-- ==== Sys2Proof/Word.lean ====
section
/-! DEFINITION. The word types of the part and their plainest names (00_scope R4, 02_scalar_instructions R40,
07_vector_instructions R144). -/

namespace Sys2Proof

/-- A 64-bit scalar value, staging register or state register (R40, R28, R105). -/
abbrev Word := BitVec 64

/-- One 32-bit lane of a vector register (R144). -/
abbrev Lane := BitVec 32

/-- A 256-bit mask register, bit i for lane i (R92). -/
abbrev Mask := BitVec 256

/-- One byte of a memory space (R4). -/
abbrev Byte := BitVec 8

end Sys2Proof
end

