-- ==== Sys2Proof/Config.lean ====
section
/-! DEFINITION. What one part fixes, and the free values: constants with no body, so that nothing can be
proved about which value they take (log entries 1, 7 and 8). -/

namespace Sys2Proof

/-- Unspecified bits (00_scope R6): the `w` bits that the `idx`-th open choice of the `ctr`-th moment yields. Log entry 1. -/
opaque Config.freeBits (w ctr idx : Nat) : BitVec w

/-- A duration in clocks that the manual does not give (copy and network accesses). Log entry 7. -/
opaque Config.freeClocks (ctr : Nat) : Nat

/-- Which write a copy's read of a unit it also writes returns (12 R258): true for the value at issue. Log entry 1. -/
opaque Config.readsAtIssue (ctr : Nat) : Bool

/-- The ECDSA P-384 signature of bytes 0..71 of a log head and the LMS signature made with key number `k`
(22 R389): 96 and 1,772 bytes. Log entry 8. -/
opaque Config.ecdsaByte (msg : List Byte) (i : Nat) : Byte

opaque Config.lmsByte (k : Nat) (msg : List Byte) (i : Nat) : Byte

/-- The SHA-384 measurement of a firmware stage (20 R372). Log entry 8. -/
opaque Config.stageMeasurement (slot : Nat) : BitVec 384

/-- The threshold of uncorrectable W events at which the hub retires a site (22 R391). Log entry 8. -/
opaque Config.retireThreshold : Nat

/-- The feature bits the part offers (20 R370): all twelve. DESIGN CHOICE, log entry 9. -/
def Config.foffer : BitVec 128 := 0xFFF#128

/-- The equal-priority quantum Q at its default (20 R357). -/
def Config.quantum : Nat := 2 ^ 21

/-- The number of this package in the fabric (10 R213). DESIGN CHOICE, log entry 9. -/
def Config.ownPackage : Nat := 0

/-- First W position, at every site, of the space that the configuration record reserves (20 R362, 21 R376, 22 R385):
sixteen context save areas, the staithe save area and the Peat log's mirror of a die. DESIGN CHOICE, log entry 9. -/
def Config.reservedPos : Nat := 95232

/-- The sites, as die sites in rising order, that the configuration record retires at cold reset (22 R391 gives SRMAP's reset value only
as "from configuration"): none. DESIGN CHOICE, log entry 9. -/
def Config.retiredAtReset : List Nat := []

/-- Whether a staithe slice refuses a request (12 R262): the manual leaves it open. Log entry 1. -/
opaque Config.staitheRefuses (ctr : Nat) : Bool

/-- Whether the signed firmware image verifies at the measured start (20 R372). Log entry 8. -/
opaque Config.imageVerifies : Bool

/-- The two signatures of a measurement report (20 R372). Log entry 8. -/
opaque Config.reportEcdsa (slots : List (BitVec 384)) : BitVec 768

opaque Config.reportLms (slots : List (BitVec 384)) : BitVec 14176

/-- Whether a request of an engine is on a link at the moment it fails (22 R392, R393). Log entry 7. -/
opaque Config.inFlight (ctr : Nat) : Bool

end Sys2Proof
end

