-- ==== Sys2Proof/Syntax.lean ====
section
/-! DEFINITION. The syntax: one constructor for every row of spec/opcode_table.json.
The first 181 are slot operations (01_long_word R12, R24 to R33), each with its word's fields in the
order the table gives them; the next 11 are micro-steps with the fields of R189; the rest are the steps
that engines, controllers, Kordin cores, the hub, the host and the driver take (95_what_each_step_holds),
with the number of the unit they concern. -/

namespace Sys2Proof

inductive Instr where
  -- sync slot (R29)
  | nop
  | wait (f : BitVec 5) (o : BitVec 3) (t : BitVec 16)
  | waitc (f : BitVec 5) (o : BitVec 3) (t : BitVec 16)
  | post (f : BitVec 5) (o s : BitVec 3) (n : BitVec 16)
  | clrf (f : BitVec 5)
  | quiet (l : BitVec 16)
  | segb (s : BitVec 6)
  | brk (c : BitVec 16)
  | trapi (c : BitVec 16)
  | drain (s : BitVec 3)
  | endOp
  -- scalar slots (R30)
  | add (d a b : BitVec 6)
  | sub (d a b : BitVec 6)
  | and (d a b : BitVec 6)
  | or (d a b : BitVec 6)
  | xor (d a b : BitVec 6)
  | andn (d a b : BitVec 6)
  | shl (d a b : BitVec 6)
  | shr (d a b : BitVec 6)
  | sar (d a b : BitVec 6)
  | rotl (d a b : BitVec 6)
  | min (d a b : BitVec 6)
  | max (d a b : BitVec 6)
  | minu (d a b : BitVec 6)
  | maxu (d a b : BitVec 6)
  | mov (d a : BitVec 6)
  | mul (d a b : BitVec 6)
  | mulh (d a b : BitVec 6)
  | mulhu (d a b : BitVec 6)
  | div (d a b : BitVec 6)
  | divu (d a b : BitVec 6)
  | rem (d a b : BitVec 6)
  | remu (d a b : BitVec 6)
  | sel (d a b c : BitVec 6)
  | clz (d a : BitVec 6)
  | ctz (d a : BitVec 6)
  | popc (d a : BitVec 6)
  | bext (d a b : BitVec 6)
  | bins (d a b c : BitVec 6)
  | sext (d a n : BitVec 6)
  | zext (d a n : BitVec 6)
  | ceq (d a b : BitVec 6)
  | cne (d a b : BitVec 6)
  | clt (d a b : BitVec 6)
  | cltu (d a b : BitVec 6)
  | cle (d a b : BitVec 6)
  | cleu (d a b : BitVec 6)
  | addi (d a : BitVec 6) (i : BitVec 13)
  | andi (d a : BitVec 6) (i : BitVec 13)
  | ori (d a : BitVec 6) (i : BitVec 13)
  | xori (d a : BitVec 6) (i : BitVec 13)
  | shli (d a n : BitVec 6)
  | shri (d a n : BitVec 6)
  | sari (d a n : BitVec 6)
  | ceqi (d a : BitVec 6) (i : BitVec 13)
  | clti (d a : BitVec 6) (i : BitVec 13)
  | cltui (d a : BitVec 6) (i : BitVec 13)
  | lui (d : BitVec 6) (i : BitVec 19)
  | movi (d : BitVec 6) (i : BitVec 19)
  | stg (s a : BitVec 6)
  | stgi (s : BitVec 6) (q : BitVec 2) (i : BitVec 16)
  | srd (d : BitVec 6) (r : BitVec 12)
  | swr (a : BitVec 6) (r : BitVec 12)
  | ldI8 (d b : BitVec 6) (o : BitVec 13)
  | ldN8 (d b : BitVec 6) (o : BitVec 13)
  | ldI16 (d b : BitVec 6) (o : BitVec 13)
  | ldN16 (d b : BitVec 6) (o : BitVec 13)
  | ldI32 (d b : BitVec 6) (o : BitVec 13)
  | ldN32 (d b : BitVec 6) (o : BitVec 13)
  | ldI64 (d b : BitVec 6) (o : BitVec 13)
  | ldsI8 (d b : BitVec 6) (o : BitVec 13)
  | ldsN8 (d b : BitVec 6) (o : BitVec 13)
  | ldsI16 (d b : BitVec 6) (o : BitVec 13)
  | ldsN16 (d b : BitVec 6) (o : BitVec 13)
  | ldsI32 (d b : BitVec 6) (o : BitVec 13)
  | ldsN32 (d b : BitVec 6) (o : BitVec 13)
  | ldsI64 (d b : BitVec 6) (o : BitVec 13)
  | ldaI32 (d b : BitVec 6) (o : BitVec 13)
  | ldaN32 (d b : BitVec 6) (o : BitVec 13)
  | ldaI64 (d b : BitVec 6) (o : BitVec 13)
  | stI8 (d b : BitVec 6) (o : BitVec 13)
  | stI16 (d b : BitVec 6) (o : BitVec 13)
  | stI32 (d b : BitVec 6) (o : BitVec 13)
  | stI64 (d b : BitVec 6) (o : BitVec 13)
  | stlI32 (d b : BitVec 6) (o : BitVec 13)
  | stlI64 (d b : BitVec 6) (o : BitVec 13)
  | amoI32 (d a b : BitVec 6) (k : BitVec 4) (o : BitVec 3)
  | amoI64 (d a b : BitVec 6) (k : BitVec 4) (o : BitVec 3)
  | casI32 (d a b c : BitVec 6) (x : BitVec 1)
  | casI64 (d a b c : BitVec 6) (x : BitVec 1)
  | br (c : BitVec 4) (a : BitVec 6) (o : BitVec 15)
  | jmp (o : BitVec 15)
  | jmpi (a : BitVec 6)
  | call (o : BitVec 15)
  | ret
  | loop (a : BitVec 6) (o : BitVec 15)
  | chk (a : BitVec 6) (o : BitVec 15)
  | tret
  -- transfer slot (R31)
  | xtov (v s : BitVec 6) (l : BitVec 8) (m : BitVec 2)
  | xfromv (v d : BitVec 6) (l : BitVec 8) (m : BitVec 2)
  | xag (g : BitVec 3) (p : BitVec 4) (s : BitVec 6)
  | xmask (m : BitVec 3) (x : BitVec 1) (q : BitVec 2) (s : BitVec 6)
  | xsts (z e : BitVec 3) (d : BitVec 6)
  -- vector slot (R32)
  | vadd (d a b : BitVec 6) (m : BitVec 3) (t : BitVec 4)
  | vsub (d a b : BitVec 6) (m : BitVec 3) (t : BitVec 4)
  | vmul (d a b : BitVec 6) (m : BitVec 3) (t : BitVec 4)
  | vfma (d a b : BitVec 6) (m : BitVec 3) (t : BitVec 4)
  | vfms (d a b : BitVec 6) (m : BitVec 3) (t : BitVec 4)
  | vmin (d a b : BitVec 6) (m : BitVec 3) (t : BitVec 4)
  | vmax (d a b : BitVec 6) (m : BitVec 3) (t : BitVec 4)
  | vabs (d a : BitVec 6) (m : BitVec 3) (t : BitVec 4)
  | vneg (d a : BitVec 6) (m : BitVec 3) (t : BitVec 4)
  | vdiv (d a b : BitVec 6) (m : BitVec 3) (t : BitVec 4)
  | vsqrt (d a : BitVec 6) (r m : BitVec 3) (t : BitVec 4)
  | vrsq (d a : BitVec 6) (r m : BitVec 3) (t : BitVec 4)
  | vrcp (d a : BitVec 6) (r m : BitVec 3) (t : BitVec 4)
  | vexp2 (d a : BitVec 6) (r m : BitVec 3) (t : BitVec 4)
  | vlog2 (d a : BitVec 6) (r m : BitVec 3) (t : BitVec 4)
  | vtanh (d a : BitVec 6) (r m : BitVec 3) (t : BitVec 4)
  | vsigm (d a : BitVec 6) (r m : BitVec 3) (t : BitVec 4)
  | viadd (d a b : BitVec 6) (m : BitVec 3) (t : BitVec 4)
  | visub (d a b : BitVec 6) (m : BitVec 3) (t : BitVec 4)
  | vimul (d a b : BitVec 6) (m : BitVec 3) (t : BitVec 4)
  | vimulh (d a b : BitVec 6) (m : BitVec 3) (t : BitVec 4)
  | vimin (d a b : BitVec 6) (m : BitVec 3) (t : BitVec 4)
  | vimax (d a b : BitVec 6) (m : BitVec 3) (t : BitVec 4)
  | vand (d a b : BitVec 6) (m : BitVec 3) (t : BitVec 4)
  | vor (d a b : BitVec 6) (m : BitVec 3) (t : BitVec 4)
  | vxor (d a b : BitVec 6) (m : BitVec 3) (t : BitVec 4)
  | vshl (d a b : BitVec 6) (m : BitVec 3) (t : BitVec 4)
  | vshr (d a b : BitVec 6) (m : BitVec 3) (t : BitVec 4)
  | vsar (d a b : BitVec 6) (m : BitVec 3) (t : BitVec 4)
  | vwadd (d a b : BitVec 6) (m : BitVec 3) (t : BitVec 4)
  | vwmul (d a b : BitVec 6) (m : BitVec 3) (t : BitVec 4)
  | vnarw (d a b : BitVec 6) (m : BitVec 3) (t : BitVec 4)
  | vcmp (c d : BitVec 3) (a b : BitVec 6) (m : BitVec 3) (t : BitVec 4)
  | vsel (d a b : BitVec 6) (s : BitVec 3) (t : BitVec 4)
  | vmop (d a b : BitVec 3) (f : BitVec 4)
  | vcvt (d a : BitVec 6) (s r m : BitVec 3) (t : BitVec 4)
  | vscale (d a b : BitVec 6) (m : BitVec 3) (t : BitVec 4)
  | vpack (d a f : BitVec 6) (m : BitVec 3) (t : BitVec 4)
  | vunpk (d a f : BitVec 6) (m : BitVec 3) (t : BitVec 4)
  | vmov (d a : BitVec 6) (m : BitVec 3) (t : BitVec 4)
  | vperm (d a b : BitVec 6) (m : BitVec 3) (t : BitVec 4)
  | vslide (d a : BitVec 6) (n : BitVec 8) (x : BitVec 1)
  | vzip (d a b : BitVec 6) (m : BitVec 3) (t : BitVec 4)
  | vuzp (d a b : BitVec 6) (m : BitVec 3) (t : BitVec 4)
  | vred (d a f : BitVec 6) (m : BitVec 3) (t : BitVec 4)
  | vscan (d a f : BitVec 6) (m : BitVec 3) (t : BitVec 4)
  | vld (v : BitVec 6) (g m : BitVec 3) (t : BitVec 4)
  | vst (v : BitVec 6) (g m : BitVec 3) (t : BitVec 4)
  | vldx (v : BitVec 6) (g : BitVec 3) (b : BitVec 6) (m : BitVec 3) (t : BitVec 4)
  | vstx (v : BitVec 6) (g : BitVec 3) (b : BitVec 6) (m : BitVec 3) (t : BitVec 4)
  | vdec (d c z : BitVec 3) (b : BitVec 6) (m : BitVec 3) (p : BitVec 1) (f : BitVec 5)
  | vcut (z : BitVec 3) (f : BitVec 6) (m : BitVec 3)
  -- matrix slot (R33)
  | mcall (c : BitVec 5) (p : BitVec 1) (r : BitVec 5) (l : BitVec 2)
  | mlatch (c : BitVec 5) (p : BitVec 1) (l : BitVec 2) (t : BitVec 1)
  | medge (c : BitVec 5) (p : BitVec 1)
  | mflush (c : BitVec 5) (p : BitVec 1)
  | mstep (c : BitVec 5) (p : BitVec 1) (i : BitVec 8) (n : BitVec 3)
  | mrout (c : BitVec 5) (p : BitVec 1) (e : BitVec 5) (s : BitVec 8)
  | mstat (c : BitVec 5) (p : BitVec 1)
  | mdec (c : BitVec 5) (p : BitVec 1) (k : BitVec 3)
  | mcut (c : BitVec 5) (p a : BitVec 1)
  -- copy slot (R33)
  | cpy (c : BitVec 5) (p : BitVec 1) (r s : BitVec 3) (f : BitVec 1)
  | cpys (c : BitVec 5) (p : BitVec 1) (r s : BitVec 3) (f : BitVec 1)
  | cpyg (c : BitVec 5) (p : BitVec 1) (r s : BitVec 3) (f : BitVec 1)
  | cpyt (c : BitVec 5) (p : BitVec 1) (r s : BitVec 3) (f : BitVec 1)
  | cpyx (c : BitVec 5) (p : BitVec 1) (r s : BitVec 3) (f : BitVec 1)
  | cpyf (c : BitVec 5) (p : BitVec 1) (r s : BitVec 3) (f : BitVec 1)
  | cpyw (c : BitVec 5) (p : BitVec 1) (r s : BitVec 3) (f : BitVec 1)
  | cpyq (c : BitVec 5) (p : BitVec 1) (r s : BitVec 3) (f : BitVec 1)
  -- network slot (R33)
  | lsend (v : BitVec 6) (q : BitVec 2)
  | lsched (c : BitVec 5) (p : BitVec 1)
  | gld (c : BitVec 5) (p : BitVec 1) (g : BitVec 6)
  | gdef (c : BitVec 5) (p : BitVec 1)
  | fpost (c : BitVec 5) (p : BitVec 1) (o s : BitVec 3)
  | namo (c : BitVec 5) (p : BitVec 1) (o s : BitVec 3) (k : BitVec 4) (w : BitVec 1)
  | ncas (c : BitVec 5) (p : BitVec 1) (o s f : BitVec 3) (w : BitVec 1)
  | pgmap (c : BitVec 5) (p : BitVec 1)
  | pgdone (c : BitVec 5) (p : BitVec 1)
  -- micro-steps (R189)
  | stepEnd
  | stepHead (sites : BitVec 8)
  | stepJoin (sites : BitVec 8)
  | stepAdd (sites : BitVec 8)
  | stepPass (sites : BitVec 8)
  | stepTail (sites : BitVec 8) (inp : BitVec 2)
  | stepFill (sites : BitVec 8) (l : BitVec 2) (t rel : BitVec 1) (p : BitVec 3) (adv : BitVec 8)
  | stepSwap (sites : BitVec 8)
  | stepFeed (sites : BitVec 8) (src : BitVec 1) (af : BitVec 4) (ent : BitVec 8) (ag : BitVec 3) (count : BitVec 16) (scl : BitVec 1)
  | stepRepeat (count : BitVec 16) (len : BitVec 8) (cp : BitVec 1) (k : BitVec 3)
  | stepSync (mode : BitVec 1) (flag : BitVec 5)
  -- steps of the other agents of the package
  | pendingWriteLanding (n : Nat)
  | streamCompletion (n z : Nat)
  | vdecDecision (n z : Nat)
  | watchdogExpiry (n : Nat)
  | segmentLanding (n : Nat)
  | taskCompletion (n : Nat)
  | matrixCommandStart (n : Nat)
  | fillComplete (site : Nat)
  | matrixCommandComplete (n : Nat)
  | bedRowEntry (n : Nat)
  | linkRowArrival (n : Nat)
  | rowDelivery (n : Nat)
  | mcallComplete (n : Nat)
  | lodeSwitch (cl : Nat)
  | lodeInjection (cl : Nat)
  | lodeDelivery (cl : Nat)
  | copyStart (n : Nat)
  | retryPermit (die slice : Nat)
  | copyComplete (n : Nat)
  | networkCommandStart (n : Nat)
  | networkCommandComplete (n : Nat)
  | flagPostArrival (n : Nat)
  | fabricAtomic (n : Nat)
  | requestTranslate (n : Nat)
  | queuePoll (q : Nat)
  | launch (q : Nat)
  | barrier (q : Nat)
  | signalSet (q : Nat)
  | tilePlacement (die : Nat)
  | signalDecrement (id : Nat)
  | free (c : Nat)
  | preempt (c : Nat)
  | quantumExpiry (c : Nat)
  | arm (n : Nat)
  | target (c : Nat)
  | release (n : Nat)
  | contextSaved (c : Nat)
  | resume (c : Nat)
  | debugStepEnd (c : Nat)
  | linkstopDone (die : Nat)
  | writebackDone (die : Nat)
  | resetDone (die : Nat)
  | thresholdRetirement (site : Nat)
  | periodBoundary (cl : Nat)
  | install (c : Nat)
  | linkFailed (l : Nat)
  | portDown (p : Nat)
  | clockStep (power temp : Nat)
  -- steps of the outside world, and the commands it gives
  | notify (q v : Nat)
  | queueEnable (q : Nat)
  | queueDisable (q : Nat)
  | qctlReset (q skip : Nat)
  | lock
  | registerWrite (bar off value : Nat)
  | create
  | reserve (c : Nat)
  | reserveRelease (c : Nat)
  | alloc (c : Nat)
  | allocRelease (c : Nat)
  | tarea (c : Nat)
  | image (c : Nat)
  | imageUnreg (c : Nat)
  | pager (c : Nat)
  | halt
  | run
  | cstep
  | bstep (n : Nat)
  | read (n : Nat)
  | write (n : Nat)
  | brken
  | quiesce (die : Nat)
  | linkstop (die : Nat)
  | writeback (die : Nat)
  | drctlReset (die : Nat)
  | drctlRetrain (die : Nat)
  | trained (die ok : Nat)
  | admitCmd (die : Nat)
  | admitDone (die ok : Nat)
  | head
  | seal
  | scrub (place found : Nat)
  | retire (site : Nat)
  | enable (p : Nat)
  | disable (p : Nat)
  | pctlRetrain (p : Nat)
  | cxlPortFailure (port : Nat)
  | thermalTrip (temp : Nat)
  | measuredStart (stage : Nat)
  | getMeasurements
  | linkReplay (port idx fec : Nat)
  | portTrainingDone (p : Nat)
  | portDegraded (p : Nat)
  | cxlPortTrained (port cap : Nat)
  | firmwarePush (ok : Nat)
  deriving DecidableEq, Repr

end Sys2Proof
end

