-- ==== Sys2Proof/Machine/State.lean ====
section
/-! DEFINITION. The state of one FLP-4096 package as plain data, its value right after reset, and the reasons
a step can stop. Every register, queue and engine that the manual names is a field here (INVENTORY.md lists
each with its rule). Sparse tables are lists of (number, value) pairs in rising order. -/

namespace Sys2Proof.Machine

/-- A sparse table: pairs of a number and a value, numbers strictly rising. -/
abbrev Table (α : Type) := List (Nat × α)

/-! ## Values -/

/-- A scalar value and its poison bit (02 R40). -/
structure Scalar where
  bits : Word := 0
  poison : Bool := false
  deriving DecidableEq, Repr

/-- The 256 lanes of a vector register (07 R144). -/
abbrev VReg := List Lane

/-- An exact number: `fin neg m e` is (−1)^neg × m × 2^e; a NaN is held as its FP32 pattern (06 R131);
`zti` is zero_times_inf (06 R130); `pruned` is a pruned sparse position (06 R143). -/
inductive Num where
  | fin (neg : Bool) (m : Nat) (e : Int)
  | inf (neg : Bool)
  | nan (bits : BitVec 32)
  | zti
  | pruned
  deriving DecidableEq, Repr

/-- A window: SUM and WSTAT (06 R137). -/
structure Win where
  sum : BitVec 128 := 0
  count : Nat := 0
  ovf : Bool := false
  pinf : Bool := false
  ninf : Bool := false
  zinf : Bool := false
  nanf : Bool := false
  ncause : BitVec 4 := 0
  deriving DecidableEq, Repr

/-! ## Results in flight, generators, streams -/

/-- The destination of a result in flight (05 R109, 16 R310). A queue entry is held by its present age. -/
inductive Dest where
  | queue (age : Nat)
  | shadow (age : Nat)
  | named (r : Nat)
  | vector (r : Nat)
  | mask (r : Nat)
  | param (g p : Nat)
  deriving DecidableEq, Repr

/-- An entry of the pending-write table (05 R109). `exact` marks a transfer toward the vector side, whose
destination keeps its previous value until it lands (03 R88); `flags` are the sr.fpstat bits that land with it, `transfer` marks a result of the
transfer slot toward the scalar side. `under` is the clock of the first group load that has landed in the destination over it (13
R276; 0: none). -/
structure Pending where
  dest : Dest
  lanes : Mask := BitVec.allOnes 256
  value : Scalar := {}
  vec : VReg := []
  mvec : Mask := 0
  left : Nat
  exact : Bool := false
  flags : BitVec 6 := 0
  transfer : Bool := false
  under : Nat := 0
  deriving DecidableEq, Repr

/-- An address generator and its walk position (03 R91, 07 R167). -/
structure Gen where
  base : BitVec 20 := 0
  count : List (BitVec 16) := [0, 0, 0, 0]
  stride : List (BitVec 32) := [0, 0, 0, 0]
  ctl : BitVec 3 := 0
  idx : List Nat := [0, 0, 0, 0]
  deriving DecidableEq, Repr

/-- A VDEC attached to a stream (11 R230 to R232). `issued` is sr.sched at its issue. `later` holds
the later writes of its mask register that have still to land, as (clocks left, lanes), and `lost` the lanes where one has
landed: from its landing on the later write prevails (03 R88). `ready`: every bit has landed and the post may come. -/
structure Vdec where
  md : BitVec 3 := 0
  cc : BitVec 3 := 0
  pe : Bool := false
  flag : BitVec 5 := 0
  scope : Mask := 0
  thr : VReg := []
  bits : Mask := 0
  left : Nat := 0
  issued : Word := 0
  later : List (Nat × Mask) := []
  lost : Mask := 0
  ready : Bool := false
  deriving DecidableEq, Repr

/-- A stream record (11 R240). `value` holds each lane's completed value, or the fill once the lane is cut; `left`
counts to C, `chain` to δ (R226); `olds` are lanes left as the register held them that still wait for an earlier stream there, with the
clocks to its completion (R225); `preCut` are each source's lanes that were cut before the stream issued (R234); `broken`, it broke the source rule
(R227); `due` and `idle` are sr.fpstat bits and the fields of a VDEC that a debugger has written while none are due or attached
(16 R318); `digits` holds each lane's committed digits as the record lays them out (R224, R240); `retCut` are the lanes cut at flag retirement
(R228), `spoilt` those whose value the source rule left unspecified (R227); `own` tells that zk's earlier value is the
addend; `codes` are the codes that a bit-mode VPACK enables. `born` is sr.sched at its issue, `reads` that of the stream in each source
register then, `after` that of the stream it replaced: by them the source rule finds a stream's readers (R227). -/
structure Stream where
  valid : Bool := false
  op : BitVec 7 := 0
  ty : BitVec 4 := 0
  st : BitVec 4 := 0
  rm : BitVec 3 := 0
  fn : BitVec 6 := 0
  left : Nat := 0
  chain : Nat := 0
  srcs : List (BitVec 6) := []
  captured : List VReg := []
  value : VReg := []
  laneFlags : List (BitVec 6) := []
  pred : Mask := 0
  cut : Mask := 0
  decided : Mask := 0
  retired : Bool := false
  done : Bool := false
  olds : List (Mask × Nat) := []
  preCut : List Mask := []
  broken : Bool := false
  due : BitVec 6 := 0
  idle : Vdec := {}
  vdec : Option Vdec := none
  digits : List Word := []
  retCut : Mask := 0
  spoilt : Mask := 0
  own : Bool := false
  codes : Mask := 0
  born : Word := 0
  reads : List Word := []
  after : Word := 0
  deriving DecidableEq, Repr

/-! ## Control state -/

/-- An open branch shadow: the target and the delay-slot bundles still to issue (02 R67). -/
structure Shadow where
  target : BitVec 11
  left : Nat
  deriving DecidableEq, Repr

/-- A loop entry (02 R68). -/
structure LoopEntry where
  start : BitVec 11
  last : BitVec 11
  left : Nat
  deriving DecidableEq, Repr

/-- What a sequencer is doing (05 R106, 16 R305, 05 R84, R118); `placed` holds a tile whose task has not started (16 R403). -/
inductive Status where
  | idle | running | held | ending | stopped | placed
  deriving DecidableEq, Repr

/-- A pending fetch of an overlay segment (05 R120); `failed` are the pages whose reads a pager has refused (10 R221). -/
structure SegFetch where
  seg : Nat
  load : Nat
  len : Nat
  src : Nat
  left : Nat
  failed : List Nat := []
  deriving DecidableEq, Repr

/-! ## Engine commands -/

/-- A command in an engine queue: the slot operation, its staging snapshot (01 R28), the rounding mode and
cut number at issue, its bundle index and the clock of its issue. -/
structure Command where
  op : Instr
  stage : List Word
  lanes : VReg := []
  vmode : BitVec 3 := 1
  bundle : BitVec 11 := 0
  clock : Nat := 0
  serial : Nat := 0
  deriving DecidableEq, Repr

/-- The installed edge configuration with its bias and scale arrays (08 R183, R184). -/
structure Edge where
  cfg : List Word
  mode : BitVec 3
  bias : List (BitVec 32)
  scale : List (BitVec 24)
  deriving DecidableEq, Repr

/-- The role of a site in a routine (08 R193); `inp` is TAIL's IN. -/
inductive Role where
  | headRole | joinRole | addRole | passRole | tailRole (inp : BitVec 2)
  deriving DecidableEq, Repr

/-- A FEED in progress (08 R193, 15 R296). -/
structure Feed where
  word : Instr
  rows : Nat
  start : Nat
  half : Bool := false
  next : Nat
  deriving DecidableEq, Repr

/-- A row of 64 windows on its way to an edge or over a link (08 R195, 15 R295); `cut` marks a cut row (11 R237). `num` counts the
rows fed toward the TAIL before it; `flush` is the number of a held row that MFLUSH writes (R186); `ctx`, `entry` and `bundle` name
the routine or command that owns it. -/
structure Row where
  wins : List Win
  ew : Int
  arrive : Nat
  sentAt : Nat := 0
  cut : Bool := false
  num : Nat := 0
  flush : Option Nat := none
  ctx : Option Nat := none
  entry : Nat := 0
  bundle : BitVec 11 := 0
  deriving DecidableEq, Repr

/-- A SYNC post waiting for earlier rows and fills (08 R193); `after` is the clock by which earlier rows for the east
link have left. -/
structure SyncPost where
  flag : Nat
  rows : Nat
  fills : Nat
  after : Nat := 0
  deriving DecidableEq, Repr

/-- A running routine (08 R191 to R197): its words from `pc`, the open REPEATs (first, last, passes left), roles and
active latches of the eight sites, how often each FILL ran, the FEED in progress, the clock of its next step, rows
fed toward its TAIL, the site fills started, and the SYNC posts still to perform. -/
structure Routine where
  serial : Nat
  entry : Nat
  bundle : BitVec 11
  cf : Nat
  pe : Bool
  pair : Nat
  params : List Word
  pc : Nat
  loops : List (Nat × Nat × Nat) := []
  roles : List (Option Role) := List.replicate 8 none
  active : List Nat
  fillRuns : Table Nat := []
  feed : Option Feed := none
  ready : Nat
  waitSync : Bool := false
  fed : Nat := 0
  fillsStarted : Nat := 0
  posts : List SyncPost := []
  ended : Bool := false
  cutRow : Option Nat := none
  deriving DecidableEq, Repr

/-- An armed MDEC (11 R235): its staged mp0 and cc. -/
structure Arming where
  stage : Word := 0
  cc : BitVec 3 := 0
  deriving DecidableEq, Repr

/-- The latest MCALL's target for MCUT (11 R237): the rows delivered so far, and whether the configuration has
been replaced since; `cuts` are the (COLS, ROW) pairs in force and `arm` the MDEC armed for it. -/
structure Target where
  rows : Nat := 0
  edgeChanged : Bool := false
  cuts : List (Word × Nat) := []
  arm : Option Arming := none
  values : Table (List (BitVec 64)) := []
  deriving DecidableEq, Repr

/-- A matrix command in progress other than MCALL; it completes at `doneAt` when `fills` are none. -/
structure MatrixRun where
  cmd : Command
  doneAt : Nat
  waitsFill : Bool := false
  waitsCall : Option Nat := none
  deriving DecidableEq, Repr

/-- A fill in progress at a site (08 R177 to R182, 15 R297): what the latch will hold, its element width and its scale entries, each
with its damage (15 R298), the elements found damaged, whether sparse metadata was out of order, the command it belongs to, its number among the
site fills of a routine, the banks it opens with their clocks, the first clock of its transfer, and the clock in which the latch is
complete. -/
structure Fill where
  site : Nat
  latch : Nat
  value : List Num
  width : Nat
  scales : List (BitVec 24 × Bool) := []
  pois : Nat
  spm : Bool
  owner : Nat
  bundle : BitVec 11 := 0
  routine : Bool
  idx : Nat
  opens : List (Nat × Nat) := []
  readAt : Nat := 0
  doneAt : Nat
  deriving DecidableEq, Repr

/-- A lode delivery held for a FEED (15 R301): its site 0..7, its entry, its lanes and the clock it came. -/
structure LodeHeld where
  site : Nat
  entry : Nat
  lanes : List Lane
  clock : Nat
  deriving DecidableEq, Repr

/-- The matrix engine of a sequencer (08). `edgeBuf` holds rows on their way to the edge, `edgeNext` the first clock the
edge is free; `incoming` rows arrived from the west, `discardIn` rows of a cut routine still to discard (11 R237);
`sent` rows on the east link; `armIdle`, `edgeIdle` and `rowsIdle` what a debugger has written where nothing is armed, installed or a target (16 R318); `lastDone` the clock of the latest completion; `lastEntry` and `lastBundle` the routine entry
and the bundle of the latest MCALL. -/
structure Matrix where
  queue : List Command := []
  running : List MatrixRun := []
  fills : List Fill := []
  routine : Option Routine := none
  edge : Option Edge := none
  acc : List (List Win) := []
  arming : Option Arming := none
  armIdle : Arming := {}
  rowsIdle : Nat := 0
  edgeIdle : Option Edge := none
  target : Option Target := none
  err : BitVec 6 := 0
  fillCount : BitVec 32 := 0
  rowCount : BitVec 32 := 0
  poisonCount : BitVec 32 := 0
  lmissCount : BitVec 32 := 0
  oobCount : BitVec 32 := 0
  edgeBuf : List Row := []
  edgeNext : Nat := 0
  incoming : List Row := []
  sent : List Row := []
  lodeBuf : List LodeHeld := []
  discardIn : Nat := 0
  lastDone : Nat := 0
  lastEntry : Nat := 0
  lastBundle : BitVec 11 := 0
  deriving DecidableEq, Repr

/-- An end of a copy: the space (0 D, 1 own P, 2 own E, 3 the targets' P or E, 4 W rows, 5 none), its first address, its
bound, and for D the range register's base, fabric base and HO bit (12 R244, R248, 10 R211); the format of its first element, and
whether that lies in a W bank (R245). -/
structure CopyEnd where
  space : Nat := 5
  addr : Int := 0
  lo : Int := 0
  hi : Int := 0
  vbase : Nat := 0
  fbase : Nat := 0
  ho : Bool := false
  fmt : BitVec 32 := 0x000B0000
  bank : Bool := false
  deriving DecidableEq, Repr

/-- A running copy: its ends, whether it converts, how many elements its walk visits and the next, the fields of its
record (12 R247, R263), the bytes its writes replaced (R258), the clock of its next access, and how that access
stands: 0 none held, 1 held at a controller or refused by a staithe, 3 holding a staithe's permit, 5 woken to be translated again.
`failR` and `failW` are the pages whose read or write of the present element is answered with an error reply (10 R221); `stopped` is a
die that has answered it "target in reset" (21 R377); a run that is not `begun` waits to look up the formats of its ends (R245). -/
structure CopyRun where
  cmd : Command
  src : CopyEnd := {}
  dst : CopyEnd := {}
  convert : Bool := false
  total : Nat := 0
  next : Nat := 0
  status : BitVec 8 := 0
  flags : BitVec 8 := 0
  fp : BitVec 6 := 0
  xerr : BitVec 8 := 0
  written : Nat := 0
  supp : Nat := 0
  poison : Nat := 0
  xoff : Nat := 0
  retry : Nat := 0
  image : Table (Byte × Bool) := []
  unit : Option (Nat × List Byte × Bool) := none
  ready : Nat := 0
  wait : Nat := 0
  failR : List Nat := []
  failW : List Nat := []
  stopped : Option Nat := none
  begun : Bool := true
  deriving DecidableEq, Repr

/-- The copy engine (12 R244, R251). -/
structure CopyEngine where
  queue : List Command := []
  running : List CopyRun := []
  completed : BitVec 32 := 0
  failed : BitVec 32 := 0
  refusals : Word := 0
  elements : Word := 0
  deriving DecidableEq, Repr

/-- What a group member gives for an element (13 R275): absent, damaged, or the element's code and, under .w, its WSTAT. -/
inductive Leaf where
  | absent | damaged
  | code (x : Nat) (stat : Word)
  deriving DecidableEq, Repr

/-- A group definition (13 R271). -/
structure Group where
  op : Nat
  mode : Nat
  fmt : BitVec 4
  ew : Int
  members : List Nat
  deriving DecidableEq, Repr

/-- A started network command: the record's fields, and what it still has to do (13 R265, R266). `phase`: 0 to be
translated, 1 translated to `place`, 2 only to complete, 3 a PGMAP whose old entry may still have accesses to
perform (10 R218), those of `owed`, 4 an FPOST on its way; `wait` as in CopyRun, or 2 or 4 for an access answered with an error
reply; `ho` an access through a host-ordered range (R211); `ticket` is that of a .sc atomic, `group` the
definition a GLD took, and `leaves` what it has read of each member so far (13 R276). -/
structure NetRun where
  cmd : Command
  status : BitVec 8 := 0
  value : Word := 0
  valuePoison : Bool := false
  pois : Bool := false
  detail : BitVec 16 := 0xFFFF
  count : BitVec 16 := 0
  fa : Nat := 0
  phase : Nat := 2
  place : Nat := 0
  wait : Nat := 0
  ticket : Option Nat := none
  ho : Bool := false
  owed : List (Nat × Nat) := []
  group : Option Group := none
  leaves : List (List Leaf) := []
  ready : Nat := 0
  deriving DecidableEq, Repr

/-- The network engine (13 R265). -/
structure NetEngine where
  queue : List Command := []
  running : List NetRun := []
  lastStart : Nat := 0
  deriving DecidableEq, Repr

/-- A flag post on its way (12 R260, 13 R277): its fabric address, increment, the sequencer and context that post it, and
the copy or network command it belongs to. -/
structure FlagPost where
  fabric : Nat
  inc : Nat
  seq : Nat
  ctx : Nat
  copyOf : Option CopyRun := none
  netOf : Option Nat := none
  ready : Nat := 0
  deriving DecidableEq, Repr

/-! ## A sequencer -/

/-- The fifteen state registers with storage of their own (05 R105), sr.tile, sr.window and sr.wdog among them. -/
structure StateRegs where
  tvec : Word := 0
  trapcause : Word := 0
  faultmask : Word := 0
  resume : Word := 0
  hstat : Bool := false
  vmode : BitVec 3 := 1
  fpstat : BitVec 6 := 0
  segLast : BitVec 6 := 0
  segBad : Bool := false
  segErr : Bool := false
  flagsat : BitVec 32 := 0
  cutnext : Word := 0
  cutlabel : BitVec 16 := 0
  cutmiss : BitVec 32 := 0
  sched : Word := 0
  tile : BitVec 48 := 0
  winBase : BitVec 20 := 0
  winSize : BitVec 21 := 0
  wdog : BitVec 6 := 32
  deriving DecidableEq, Repr

/-- Lanes that a GLD has landed in vector register `vd` and whose post, on flag `flag` (32: no flag), no acquire has contained yet: they
read as unspecified bits (13 R276). `clock` is that of the landing. -/
structure GldOpen where
  vd : Nat
  flag : Nat
  lanes : Mask
  clock : Nat
  deriving DecidableEq, Repr

/-- Lanes of mask register `md` that a VDEC has landed ahead of its deadline: they read as unspecified bits until an acquire on flag `flag`
(32: none) contains the VDEC's post, or the `left` clocks to the deadline have passed (11 R231). `clock` is that of the post. -/
structure MaskOpen where
  md : Nat
  flag : Nat
  lanes : Mask
  clock : Nat
  left : Nat
  deriving DecidableEq, Repr

/-- One sequencer and its tile task (05 R103, R104). `leaving` are the streams that a later producer has replaced while they were
open, with their register (11 R228); `microBad` the damaged words of the micro-step store (22 R382); `fpNow` the sr.fpstat bits that landed in this clock (06 R135);
`startIdle` the START that a debugger has written into an invalid routine entry (16 R318). -/
structure Seq where
  pc : BitVec 11 := 0
  status : Status := .idle
  ctx : Option Nat := none
  launch : Option Nat := none
  q : List Scalar := List.replicate 16 {}
  sq : List Scalar := List.replicate 16 {}
  g : List Scalar := List.replicate 32 {}
  v : List VReg := List.replicate 48 []
  z : List Stream := List.replicate 8 {}
  leaving : List (Nat × Stream) := []
  fpNow : BitVec 6 := 0
  m : List Mask := List.replicate 8 0
  ag : List Gen := List.replicate 8 {}
  mp : List Word := List.replicate 8 0
  cp : List Word := List.replicate 8 0
  np : List Word := List.replicate 8 0
  f : List (BitVec 16) := List.replicate 32 0
  fInc : List Nat := List.replicate 32 0
  fBase : Option (Nat × Option (BitVec 16)) := none
  sr : StateRegs := {}
  shadow : Option Shadow := none
  loops : List LoopEntry := []
  savedShadow : Option Shadow := none
  savedLoops : List LoopEntry := []
  pending : List Pending := []
  stallCount : Nat := 0
  stallDetail : Word := 0
  stallSlot : Nat := 0
  drain : Option (BitVec 3) := none
  gap : Nat := 0
  segRes : BitVec 64 := 1
  segFetch : List SegFetch := []
  micro : List Word := []
  microBad : List Nat := []
  routines : List (Option (BitVec 8)) := List.replicate 32 none
  startIdle : List (BitVec 8) := List.replicate 32 0
  zones : List (BitVec 32) := List.replicate 16 0x000B0000
  ranges : List (BitVec 128) := List.replicate 8 0
  mx : Matrix := {}
  cpy : CopyEngine := {}
  net : NetEngine := {}
  gldOpen : List GldOpen := []
  maskOpen : List MaskOpen := []
  counters : List Word := List.replicate 5 0
  hold : Option Word := none
  reported : Option Word := none
  deriving DecidableEq, Repr

/-- A site: latches (an empty list reads +0 everywhere), the element width a latch was last filled with (0: never
since admission) and its scale entries, column by column (15 R298), bank formats, recent openings, port (08 R176, R182, 10 R206, 15 R296, 22 R391). -/
structure Site where
  latch : List (List Num) := [[], [], [], []]
  latchW : List Nat := [0, 0, 0, 0]
  latchScale : List (List (BitVec 24 × Bool)) := [[], [], [], []]
  bank : List (BitVec 32) := List.replicate 32 0x000B0000
  opens : List (Nat × Nat) := []
  portFree : Nat := 0
  retired : Bool := false
  uncorrectable : Nat := 0
  deriving DecidableEq, Repr

/-- A lode schedule entry (13 R267). -/
structure LodeEntry where
  cycle : Nat
  port : Nat
  rows : BitVec 16
  cols : BitVec 8
  deriving DecidableEq, Repr

/-- A lode schedule table (13 R267) and the context that installed it (R268). -/
structure LodeTable where
  period : Nat
  entries : List LodeEntry
  ctx : Option Nat := none
  deriving DecidableEq, Repr

/-- A vector on its way to its sites: its entry, their rows and columns, the delivery clock (13 R269), the sender's context. -/
structure LodeVec where
  entry : Nat
  rows : BitVec 16
  cols : BitVec 8
  arrive : Nat
  lanes : List Lane
  ctx : Option Nat := none
  deriving DecidableEq, Repr

/-- The lode of a cluster (13 R268): the running table and its first clock, the waiting table and the earliest clock
of its switch, each port's count of LSENDs, vectors to deliver. -/
structure Lode where
  table : Option LodeTable := none
  origin : Nat := 0
  waiting : Option (LodeTable × Nat) := none
  counts : List Nat := List.replicate 16 0
  deliver : List LodeVec := []
  boundarySeen : Nat := 0
  deriving DecidableEq, Repr

/-! ## Contexts, images, launches -/

/-- A request held at a controller: the sequencer, the engine (0 copy, 1 network, 3 a segment fetch; 2 is a Kordin core, which names no
sequencer, and `seq` is then its reader: queue 0..63, 64 the mailbox, 65 + d the core of die d), whether it writes, and the copy, network or
core serial, or the segment, that it belongs to (10 R217, R219). `ctx` is the context that a core reads or writes for. -/
structure HeldRequest where
  seq : Nat
  eng : Nat
  write : Bool
  serial : Nat
  page : Nat
  ctx : Nat := 16
  deriving DecidableEq, Repr

/-- A pager region (10 R219, 20 R367). -/
structure Pager where
  first : Nat
  pages : Nat
  seq : Nat
  ring : Nat
  slots : Nat
  flag : Nat
  num : Nat := 0
  occupied : List (Nat × Nat) := []
  backlog : List (HeldRequest × Nat) := []
  waits : List HeldRequest := []
  deriving DecidableEq, Repr

/-- A storage grant (20 R364): the class and the fields of ARG0..ARG2. -/
structure Grant where
  cls : Nat
  a0 : Word
  a1 : Word
  a2 : Word
  deriving DecidableEq, Repr

/-- A table area (10 R216, 20 R363). -/
structure TableArea where
  die : Nat
  site : Nat
  first : Nat
  count : Nat
  installed : Bool := false
  deriving DecidableEq, Repr

/-- A data entry of an image: space, offset and the kept bytes (20 R369). -/
structure DataEntry where
  space : Nat
  offset : Nat
  bytes : List Byte
  deriving DecidableEq, Repr

/-- A registered image, the copy the front core keeps, and the copies of segment 0 that dies hold in a slice (20 R366, R369; log entry 108). -/
structure Image where
  handle : Nat
  entry : BitVec 11
  tvec : Word
  winBase : BitVec 20
  winSize : BitVec 21
  zones : List (BitVec 32)
  banks : List (BitVec 32)
  flags : List (BitVec 16)
  data : List DataEntry
  steps : List Word
  routines : List (Option (BitVec 8))
  segs : List (Option (Nat × Nat × Nat))
  code : List Byte
  overlays : List (List Byte) := []
  placedSites : List Nat := []
  slices : List (Nat × List Byte) := []
  deriving DecidableEq, Repr

/-- A consumed launch (20 R343, R354, R358, R359); `rtab` is its range table's address and count until a die core has read it (19 R345). -/
structure Launch where
  id : Nat
  ctx : Nat
  queue : Nat
  index : Nat
  prio : Nat
  handle : Nat
  pinned : Bool
  esc : Bool
  seq0 : Nat
  nx : Nat
  ny : Nat
  nz : Nat
  wdog : Nat
  ranges : List (BitVec 128)
  sig : Nat
  unplaced : List Nat := []
  rangeTable : List (Nat × Nat) := []
  running : Nat := 0
  rtab : Option (Nat × Nat) := none
  deriving DecidableEq, Repr

/-- Where a pre-emption stands (16 R304): none, arming with the largest r reported so far, or released toward N. -/
inductive CutPhase where
  | none | reporting (r : Word) | released (n : Word)
  deriving DecidableEq, Repr

/-- A saved sequencer's image as kept for the restore (16 R309, R312). -/
structure SavedSeq where
  seq : Nat
  data : Seq
  deriving DecidableEq, Repr

/-- A resident context (20 R360 to R368, 16). `life`: 0 created, 1 started or resumed, 2 saved, 3 stopped by
a fatal error, 4 the same once CSTAT tells it; `halting` is a halt (true) or the end of one at the next clock. -/
structure Ctx where
  life : Nat := 0
  cstat : Nat := 0
  esc : Bool := false
  seqs : List Nat := []
  grants : List Grant := []
  areas : List TableArea := []
  images : List Image := []
  pagers : List Pager := []
  migWaits : List HeldRequest := []
  groups : Table Group := []
  started : Nat := 0
  savedAt : Nat := 0
  saved : List SavedSeq := []
  cut : CutPhase := .none
  brken : Bool := false
  halted : Bool := false
  brkSeqs : List Nat := []
  stepLeft : Option Nat := none
  stepSeq : Option Nat := none
  stepIssued : Bool := false
  stepStatus : Nat := 0
  dbgWrites : List (Nat × Nat × Word) := []
  sites : List Nat := []
  banks : Table (List (BitVec 32)) := []
  freeing : Bool := false
  halting : Option Bool := none
  deriving DecidableEq, Repr

/-! ## Front core, hub, links -/

/-- The consumed packet for which a core changes a signal: its queue, the byte and the index of an error record (20 R354), and whether the
change is a decrement. -/
structure SignalRef where
  queue : Nat
  byte : Nat
  index : Nat
  dec : Bool
  deriving DecidableEq, Repr

/-- A write of a Kordin core that is held at a controller: its serial, context, fabric address and bytes (10 R217, R222), and the signal that it
changes, if one. -/
structure CoreStore where
  serial : Nat
  ctx : Nat
  fabric : Nat
  bytes : List Byte
  signal : Option SignalRef := none
  deriving DecidableEq, Repr

/-- What follows the consumption of a packet (20 R351): nothing, a launch's tiles, or a change of a signal. -/
inductive PacketAct where
  | none
  | launch (l : Launch)
  | signal (fa : Nat) (value : Nat) (g : SignalRef)
  deriving DecidableEq, Repr

/-- A packet whose consumption waits for a held write of the core: that of its header, or then that of the read index (20 R350). -/
structure Consuming where
  serial : Nat
  indexed : Bool
  act : PacketAct
  deriving DecidableEq, Repr

/-- A launch queue (20 R349, R350); `lateFails` are the failures of consumed packets that its next slot reports: cause, byte and read index
(R354, log entry 56); `depOk` are the addresses of the DEPs that the barrier at the read index has read as 0. -/
structure LQueue where
  base : Word := 0
  cfg : Word := 0
  ridx : Word := 0
  state : Nat := 0
  note : BitVec 32 := 0
  index : Nat := 0
  qerr : BitVec 256 := 0
  enabling : Bool := false
  disabling : Bool := false
  resetting : Option Bool := none
  past : Bool := false
  polled : Option Nat := none
  depOk : List Nat := []
  lateFails : List (Nat × Nat × Nat) := []
  consuming : Option Consuming := none
  lastPoll : Nat := 0
  deriving DecidableEq, Repr

/-- The die-reset registers of a compute die (21 R375); `trains` and `seamTrains` are its links' counts at the accepted LINKSTOP (R379). -/
structure DieReset where
  st : Nat := 0
  busy : Bool := false
  err : Nat := 0
  cmd : Nat := 0
  stray : Word := 0
  count : Word := 0
  wb : Word := 0
  trains : Word := 0
  locked : Bool := false
  seamTrains : Word := 0
  deriving DecidableEq, Repr

/-- The Peat log's registers (22 R385 to R390): how many records the volume holds, CHAIN of the last (none: the volume's
initial value), LAST as the latest head gave it, the LMS keys used, the command in
progress (0 none, 1 HEAD, 2 SEAL), and EMPTY, which a seal sets. The records stand in the two mirrors. -/
structure Peat where
  count : Nat := 0
  chain : Option (BitVec 384) := none
  vol : BitVec 32 := 0
  lost : Word := 0
  result : Nat := 0
  hbuf : Word := 0
  ridx : Word := 0
  head : Option Nat := none
  keys : Nat := 0
  busy : Nat := 0
  void : Bool := false
  deriving DecidableEq, Repr

/-- A UCIe link (22 R392). -/
structure ULink where
  st : Nat := 2
  train : Word := 0
  replay : Word := 0
  run : Nat := 0
  deriving DecidableEq, Repr

/-- A Dareth port (22 R393). -/
structure Port where
  st : Nat := 0
  feccor : Word := 0
  fecunc : Word := 0
  replay : Word := 0
  tx : Word := 0
  rx : Word := 0
  run : Nat := 0
  deriving DecidableEq, Repr

/-- A CXL port (22 R396); `share` is its capacity in the class 2 layout fixed at LOCK. -/
structure Cxl where
  st : Nat := 0
  cap : Nat := 0
  pois : Word := 0
  share : Nat := 0
  deriving DecidableEq, Repr

/-- A measurement report: the slots and its two signatures (20 R372). -/
structure Report where
  slots : List (BitVec 384)
  ecdsa : BitVec 768
  lms : BitVec 14176
  deriving DecidableEq, Repr

/-- The management registers of R398, the debug mailbox of R397, measurements of R372; `pcieNow` are the offsets that PCIe has written in
this clock (22 R401). -/
structure Mgmt where
  pwrcap : Word := 2800
  pwrnow : Word := 0
  clkstep : Nat := 0
  temp : Word := 0
  twarn : Word := 760
  ttrip : Word := 880
  rails : Word := 0
  lastStep : Option Nat := none
  dbgarg : Word := 0
  dbgdata : Word := 0
  dbgstat : Word := 0
  dbgctx : Word := 0
  ctrseq : Word := 0
  slots : List (BitVec 384) := List.replicate 16 0
  booted : Nat := 0
  bootWaits : Bool := false
  pushed : Bool := false
  reports : List Report := []
  pcieNow : List Nat := []
  deriving DecidableEq, Repr

/-! ## The bundle being issued -/

/-- What the control slot asks for at commit (02 R62 to R71). -/
inductive Control where
  | none
  | transfer (target : BitVec 11)
  | skipLoop (target : BitVec 11)
  | enterLoop (e : LoopEntry)
  | tret
  deriving DecidableEq, Repr

/-- A detected error or event on its way to the Peat log (22 R386): the fields of its record but SEQ and
TIME, and the first clock in which it is detected. -/
structure PeatEvent where
  die : Nat
  unit : Nat
  loc : Nat
  bank : Nat := 0
  kind : Nat
  syn : Nat := 0
  count : Nat := 0
  due : Nat := 0
  deriving DecidableEq, Repr

/-- A store held until the bundle's end (01 R19): flat place and bytes. -/
structure StoreOp where
  place : Nat
  bytes : List Byte
  deriving DecidableEq, Repr

/-- The bundle that sequencer `seq` is issuing: its state at the start (operands are read there, 01 R18), its
state with the effects so far, and what its slots have asked for; `fresh` are the scalar destinations that it has written with a bound
of 1. -/
structure Bundle where
  seq : Nat
  start : Seq
  work : Seq
  slot : Nat := 8
  faults : List (Nat × Nat × BitVec 16) := []
  fatals : List (Nat × Nat × Word) := []
  stalls : List (Nat × Word) := []
  stores : List StoreOp := []
  errs : List PeatEvent := []
  ctl : Control := .none
  quiet : Option (BitVec 16) := none
  ends : Bool := false
  drains : Option (BitVec 3) := none
  fresh : List Dest := []
  deriving DecidableEq, Repr

/-! ## The package -/

/-- The whole machine. The model's own fields: `free`, the counter that the free values are read at; `serial`, the number of
the next launch; `cur`, the sequencer of the step; `turn` and `ran`, the sequencers yet to issue in this clock and those that
have; `inputs`, the steps of the outside world still to come, each with the first clock in which it may happen (log entry 2);
`coreStores` the core writes held at controllers, `coreFails` the (context, page, reader) of the core reads that PGDONE has failed, `cmInstall`
the context and the accesses of an INSTALL that still waits (10 R217 to R222); `bundle`, the bundle being issued; `stamp`, the timestamp in tenths. `cmcmd` is the mailbox command that the front core has yet
to carry out (20 R360). -/
structure State where
  clock : Nat := 0
  stamp : Nat := 0
  free : Nat := 0
  serial : Nat := 0
  cur : Nat := 0
  turn : List Nat := []
  ran : List Nat := []
  inputs : List (Nat × Instr) := []
  bundle : Option Bundle := none
  seqs : Table Seq := []
  sites : Table Site := []
  lodes : Table Lode := []
  mem : List Host.Cell := []
  poison : List Nat := []
  posts : List FlagPost := []
  refusals : List (Nat × Nat × Nat × Nat) := []
  woken : List HeldRequest := []
  coreStores : List CoreStore := []
  coreFails : List (Nat × Nat × Nat) := []
  cmInstall : Option (Nat × List (Nat × Nat)) := none
  ctxs : Table Ctx := []
  launches : List Launch := []
  queues : Table LQueue := []
  faccept : BitVec 128 := 0
  lock : Bool := false
  frame : Word := 0
  cmarg0 : Word := 0
  cmarg1 : Word := 0
  cmarg2 : Word := 0
  cmstat : Word := 0
  cmcmd : Option Word := none
  dies : Table DieReset := []
  peat : Peat := {}
  events : List PeatEvent := []
  links : Table ULink := []
  ports : Table Port := []
  routes : Table Word := []
  cxl : Table Cxl := []
  mgmt : Mgmt := {}
  tickets : Nat := 0
  msix : List Nat := []
  fatals : List (BitVec 256) := []
  halted : Bool := false
  deriving DecidableEq, Repr

/-- The machine right after a cold reset: no context, no task, no image, every queue disabled, nothing in memory;
the sites that the configuration retires are retired (22 R391, log entry 9). -/
def State.reset : State := { sites := Config.retiredAtReset.map (fun x => (x, { retired := true })) }

/-- The part names no such unit: raised by a step whose unit number is outside the counts of 00_scope R2
(sequencer 512 and up, die 4 and up, ...). Safe: the machine stops where the part has nothing to act. -/
inductive Fault where
  /-- raised by a step of another agent whose number names no unit of the package; safe -/
  | noSuchUnit (what : String) (n : Nat)
  deriving DecidableEq, Repr

/-- Why a step has no meaning in a state. -/
inductive Refusal where
  /-- an instruction of the table that the model gives no meaning yet; raised by exec's refused arms only; safe -/
  | notModelled (mnemonic : String)
  /-- a step of another agent (not an instruction of a program) asked for in a state in which the manual says it
  does not happen: nothing is queued, started, due or addressed; raised by those steps only; safe -/
  | notEnabled (mnemonic : String)
  deriving DecidableEq, Repr

/-- The outcome of a step of this machine. -/
abbrev Out := Host.Outcome State Fault Refusal

end Sys2Proof.Machine
end

