-- ==== Sys2Proof/Machine/Bits.lean ====
section
/-! DEFINITION. Bit fields, sign extension, byte order and list access: the helpers every other file uses
(00_scope R4). -/

namespace Sys2Proof.Machine

/-- Bits [lo+len-1 : lo] of `x`. -/
def bits {n : Nat} (x : BitVec n) (lo len : Nat) : BitVec len := x.extractLsb' lo len

/-- The same bits as a number. -/
def fieldN {n : Nat} (x : BitVec n) (lo len : Nat) : Nat := (x.extractLsb' lo len).toNat

/-- Whether any of bits [lo+len-1 : lo] is set. -/
def anyBit {n : Nat} (x : BitVec n) (lo len : Nat) : Bool := fieldN x lo len != 0

/-- `x` with bits [lo+len-1 : lo] replaced by `y`. -/
def putBits {n len : Nat} (x : BitVec n) (lo : Nat) (y : BitVec len) : BitVec n :=
  (x &&& ~~~ ((BitVec.allOnes len).setWidth n <<< lo)) ||| (y.setWidth n <<< lo)

/-- Element `i` of a list, `d` past its end. -/
def at' {α : Type} (l : List α) (i : Nat) (d : α) : α := l.getD i d

/-- Little-endian bytes to a number (R4). -/
def leNat : List Byte → Nat
  | [] => 0
  | b :: r => b.toNat + 256 * leNat r

/-- The `n` little-endian bytes of a number (R4). -/
def leBytes : Nat → Nat → List Byte
  | 0, _ => []
  | n + 1, x => BitVec.ofNat 8 x :: leBytes n (x / 256)

/-- Words 0..7 of a list of bytes and so on: consecutive little-endian groups of `w` bytes, `n` of them. -/
def leWords (w : Nat) : Nat → List Byte → List Nat
  | 0, _ => []
  | n + 1, l => leNat (l.take w) :: leWords w n (l.drop w)

/-- Ceiling division. -/
def ceilDiv (a b : Nat) : Nat := (a + b - 1) / b

/-- The two's complement reading of the low `w` bits of `x`. -/
def sRead (w x : Nat) : Int :=
  let u := x % 2 ^ w
  if w != 0 && 2 ^ (w - 1) ≤ u then (u : Int) - (2 : Int) ^ w else u

/-- An integer modulo 2^w as a number. -/
def wrapN (w : Nat) (i : Int) : Nat := (i % (2 : Int) ^ w).toNat

/-! ## Sparse tables -/

/-- The entry of `k`, `d` where the table lists none. -/
def tget {α : Type} (d : α) : Table α → Nat → α
  | [], _ => d
  | (j, x) :: r, k => if j = k then x else tget d r k

/-- The entry of `k` if listed. -/
def tfind {α : Type} : Table α → Nat → Option α
  | [], _ => none
  | (j, x) :: r, k => if j = k then some x else tfind r k

/-- The table with the entry of `k` set. -/
def tset {α : Type} : Table α → Nat → α → Table α
  | [], k, v => [(k, v)]
  | (j, x) :: r, k, v => if k < j then (k, v) :: (j, x) :: r else if k = j then (k, v) :: r else (j, x) :: tset r k v

/-- The table without the entry of `k`. -/
def tdel {α : Type} : Table α → Nat → Table α
  | [], _ => []
  | (j, x) :: r, k => if j = k then r else (j, x) :: tdel r k

end Sys2Proof.Machine
end

