-- ==== Sys2Proof/Machine/Numbers.lean ====
section
/-! DEFINITION. 06_numbers: formats (R121 to R128), scales (R129, R130), NaNs (R131, R132), poison markers
(R402), rounding and conversion (R133, R134). Values are exact (`Num`); every conversion returns a code and
the sr.fpstat bits it calls for (R135). -/

namespace Sys2Proof.Machine

/-- sr.fpstat bits (R135). -/
def fInvalid : BitVec 6 := 0x01
def fOverflow : BitVec 6 := 0x02
def fUnderflow : BitVec 6 := 0x04
def fInexact : BitVec 6 := 0x08
def fWindow : BitVec 6 := 0x10
def fNanLost : BitVec 6 := 0x20

/-- A rounding mode, resolved: 1 RNE, 2 RTZ, 3 RDN, 4 RUP, 5 RNA (R23). -/
abbrev Mode := BitVec 3

/-- A float format (R121, R123): exponent bits, mantissa bits, bias, sign bit, special-value policy. -/
structure Fmt where
  eb : Nat
  mb : Nat
  bias : Int
  sgn : Bool
  pol : Nat
  wide : Bool
  deriving DecidableEq, Repr

def fmtF32 : Fmt := ⟨8, 23, 127, true, 0, true⟩
def fmtBf16 : Fmt := ⟨8, 7, 127, true, 0, true⟩

/-- How elements of a place are stored: a float format, an integer of `w` bits, a window sum, or raw bytes. -/
inductive ElKind where
  | float (f : Fmt) | int (signed : Bool) | win | raw
  deriving DecidableEq, Repr

/-- A stored format: kind, width in bits, elements per scale block (0: none), scale bytes (1 E8M0, 3 SC24). -/
structure ElFmt where
  kind : ElKind
  w : Nat
  blk : Nat := 0
  sck : Nat := 0
  deriving DecidableEq, Repr

/-- Fields of a narrow descriptor (R123). -/
def descWidth (d : BitVec 16) : Nat := fieldN d 0 3 + 1
def descEB (d : BitVec 16) : Nat := fieldN d 3 3
def descSgn (d : BitVec 16) : Bool := anyBit d 6 1
def descPol (d : BitVec 16) : Nat := fieldN d 7 2
def descBlk (d : BitVec 16) : Nat := match fieldN d 9 2 with | 0 => 0 | 1 => 16 | 2 => 32 | _ => 64
def descSck (d : BitVec 16) : Nat := fieldN d 11 2
def descBadj (d : BitVec 16) : Int := sRead 3 (fieldN d 13 3)
def descM (d : BitVec 16) : Int := (descWidth d : Int) - (if descSgn d then 1 else 0) - descEB d

/-- R124: whether a descriptor is valid. -/
def descValid (d : BitVec 16) : Bool :=
  fieldN d 0 3 != 0 && decide (0 ≤ descM d) &&
  !(descPol d == 3 && (descEB d != 0 || descBadj d != 0)) && !(descPol d != 3 && descEB d == 0) &&
  !(descPol d == 0 && descM d == 0) && !(descBlk d == 0 && descSck d != 0) &&
  !(descBlk d != 0 && descSck d == 0) && descSck d != 3

/-- R123: the float format of a descriptor with POL 0..2. -/
def descFmt (d : BitVec 16) : Fmt :=
  ⟨descEB d, (descM d).toNat, (2 : Int) ^ (descEB d - 1) - 1 + descBadj d, descSgn d, descPol d, false⟩

/-- The stored format of a descriptor. -/
def descEl (d : BitVec 16) : ElFmt :=
  ⟨if descPol d == 3 then .int (descSgn d) else .float (descFmt d), descWidth d, descBlk d,
   match descSck d with | 1 => 3 | 2 => 1 | _ => 0⟩

/-- The stored format of a ty code (R23, R121). -/
def tyEl (t : Nat) : ElFmt :=
  match t with
  | 0 => ⟨.float fmtF32, 32, 0, 0⟩
  | 1 => ⟨.float fmtBf16, 16, 0, 0⟩
  | 2 => ⟨.int true, 8, 0, 0⟩
  | 3 => ⟨.int false, 8, 0, 0⟩
  | 4 => ⟨.int true, 16, 0, 0⟩
  | 5 => ⟨.int false, 16, 0, 0⟩
  | 6 => ⟨.int true, 32, 0, 0⟩
  | 7 => ⟨.int false, 32, 0, 0⟩
  | 8 => ⟨.int true, 64, 0, 0⟩
  | 9 => ⟨.win, 128, 0, 0⟩
  | _ => ⟨.raw, 8, 0, 0⟩

/-- The stored format of a format register (10 R206). -/
def regEl (r : BitVec 32) : ElFmt :=
  match fieldN r 16 4 with
  | 10 => descEl (bits r 0 16)
  | t => tyEl t

/-- R207: whether a value may be written to a format register. -/
def regValid (r : BitVec 32) : Bool :=
  !anyBit r 20 12 && decide (fieldN r 16 4 ≤ 11) &&
  (if fieldN r 16 4 == 10 then descValid (bits r 0 16) else fieldN r 0 16 == 0)

/-- R127: the descriptors of the presets in the order of VPACK's fn (R161). -/
def presetDesc (i : Nat) : BitVec 16 :=
  match i with
  | 0 => 0x0153 | 1 => 0x015D | 2 => 0x0155 | 3 => 0x00E7 | 4 => 0x006F
  | 5 => 0x01C3 | 6 => 0x0183 | 7 => 0x01C7 | _ => 0x0187

/-! ## NaNs -/

/-- R131: a generated NaN as its FP32 pattern. -/
def nanBits (cause : Nat) : BitVec 32 := 0x7FC00000#32 + BitVec.ofNat 32 (cause * 2 ^ 18)

def Num.nanOf (cause : Nat) : Num := .nan (nanBits cause)

def Num.isNan : Num → Bool
  | .nan _ => true
  | _ => false

/-- R131: the cause field of a NaN held as an FP32 pattern. -/
def nanCause (b : BitVec 32) : Nat := fieldN b 18 4

/-- R131: the flag that generating a NaN sets. -/
def causeFlag (cause : Nat) : BitVec 6 :=
  match cause with
  | 2 | 3 | 4 | 8 => fInvalid
  | 5 => fWindow
  | _ => 0

/-- Whether a NaN pattern is signalling: bit 22 clear. -/
def isSignalling (b : BitVec 32) : Bool := !anyBit b 22 1

def quieten (b : BitVec 32) : BitVec 32 := b ||| 0x00400000#32

def Num.neg : Num → Num
  | .fin n m e => .fin (!n) m e
  | .inf n => .inf (!n)
  | .nan b => .nan (b ^^^ 0x80000000#32)
  | x => x

/-- R122: invalid is set when an operand is a signalling NaN. -/
def sigFlag (ops : List Num) : BitVec 6 :=
  if ops.any (fun x => match x with | .nan b => isSignalling b | _ => false) then fInvalid else 0

/-- R132: nan_result. Returns the NaN and the flags (those of R122 and, for a generated NaN, of R131). -/
def nanResult (ops : List Num) (gen : Option Nat) : Num × BitVec 6 :=
  let causes := ops.filterMap (fun x => match x with | .nan b => some b | _ => none)
  if causes.any (fun b => nanCause b == 6) then (Num.nanOf 6, sigFlag ops)
  else if causes.any (fun b => nanCause b == 7) then (Num.nanOf 7, sigFlag ops)
  else match causes with
    | b :: _ => (.nan (quieten b), sigFlag ops)
    | [] => match gen with
      | some c => (Num.nanOf c, causeFlag c)
      | none => (.fin false 0 0, 0)

/-! ## Decoding -/

/-- R125: decode a float code. A wide format keeps the operand NaN (R131). -/
def decodeFloat (f : Fmt) (code : Nat) : Num :=
  let m := code % 2 ^ f.mb
  let e := code / 2 ^ f.mb % 2 ^ f.eb
  let s := f.sgn && (code / 2 ^ (f.mb + f.eb) % 2 == 1)
  let top := 2 ^ f.eb - 1
  let nanIn : Num :=
    if f.wide then .nan (BitVec.ofNat 32 (if f.mb == 23 then code else code * 2 ^ 16))
    else .nan (nanBits 1 ||| (if s then 0x80000000#32 else 0))
  if f.pol == 0 && e == top then (if m == 0 then .inf s else nanIn)
  else if f.pol == 1 && e == top && m == 2 ^ f.mb - 1 then nanIn
  else if e == 0 then .fin s m (1 - f.bias - f.mb)
  else .fin s (m + 2 ^ f.mb) (e - f.bias - f.mb)

/-- An exact integer as a number. -/
def Num.ofInt (i : Int) : Num := .fin (decide (i < 0)) i.natAbs 0

/-- R125: decode an element of a stored format (float or integer; window sums read as integers, R159). -/
def decodeEl (f : ElFmt) (code : Nat) : Num :=
  match f.kind with
  | .float g => decodeFloat g (code % 2 ^ f.w)
  | .int s => Num.ofInt (if s then sRead f.w code else (code % 2 ^ f.w : Nat))
  | .win => Num.ofInt (sRead 128 code)
  | .raw => Num.ofInt (code % 256 : Nat)

/-! ## Shared scales -/

/-- A scale read (R129): zero, NaN, or m × 2^e. -/
inductive ScaleVal where
  | zero | nan | val (m : Nat) (e : Int)
  deriving DecidableEq, Repr

def readScale (sc : BitVec 24) : ScaleVal :=
  let ex := fieldN sc 16 8
  let fr := fieldN sc 0 16
  if ex == 255 then .nan
  else if ex == 0 then (if fr == 0 then .zero else .val fr (-126 - 16))
  else .val (65536 + fr) ((ex : Int) - 127 - 16)

/-- R130: the exact value of an element under a scale; `poisoned` scale, `damaged` element bytes. -/
def scaledEl (f : ElFmt) (code : Nat) (sc : BitVec 24) (poisoned damaged : Bool) : Num :=
  if poisoned || damaged then Num.nanOf 6
  else match readScale sc with
    | .nan => Num.nanOf 2
    | .zero => match decodeEl f code with
      | .nan _ => Num.nanOf 1
      | .inf _ => .zti
      | .fin n _ _ => .fin n 0 0
      | x => x
    | .val m e => match decodeEl f code with
      | .nan _ => Num.nanOf 1
      | .fin n k x => .fin n (k * m) (x + e)
      | x => x

/-! ## Rounding -/

/-- R133: pick on the magnitude m × 2^(-sh) (sh > 0 bits to drop, else shift up); returns the integer and whether
anything was dropped. -/
def pickMag (mode : Mode) (neg : Bool) (m : Nat) (up : Bool) (sh : Nat) : Nat × Bool :=
  if up then (m * 2 ^ sh, false)
  else
    let fl := m / 2 ^ sh
    let rem := m % 2 ^ sh
    if rem == 0 then (fl, false)
    else
      let half := 2 ^ (sh - 1)
      let inc : Bool := match mode.toNat with
        | 1 => decide (half < rem) || (rem == half && fl % 2 == 1)
        | 5 => decide (half ≤ rem)
        | 3 => neg
        | 4 => !neg
        | _ => false
      (if inc then fl + 1 else fl, true)

/-- R133: maxfin as a mantissa and an exponent. -/
def maxfin (f : Fmt) : Nat × Int :=
  let p : Int := (2 : Int) ^ f.eb
  match f.pol with
  | 0 => (2 ^ (f.mb + 1) - 1, p - 2 - f.bias - f.mb)
  | 1 => if f.mb == 0 then (1, p - 2 - f.bias) else (2 ^ (f.mb + 1) - 2, p - 1 - f.bias - f.mb)
  | _ => (2 ^ (f.mb + 1) - 1, p - 1 - f.bias - f.mb)

def shl (m : Nat) (e : Int) : Nat := if 0 ≤ e then m * 2 ^ e.toNat else m / 2 ^ (-e).toNat

/-- The code of the value k × 2^q in a float format. A value between two codes (maxfin with EB 1, log entry 12)
takes the lower. -/
def encodeFin (f : Fmt) (neg : Bool) (k : Nat) (q : Int) : Nat :=
  let s := if neg && f.sgn then 2 ^ (f.mb + f.eb) else 0
  if k == 0 then s
  else
    let l : Int := (Nat.log2 k : Int) + q
    if l < 1 - f.bias then s + shl k (q - (1 - f.bias - f.mb))
    else s + (l + f.bias).toNat * 2 ^ f.mb + (shl k (q - (l - f.mb)) - 2 ^ f.mb)

/-- Whether a × 2^p > b × 2^q. -/
def gtPow (a : Nat) (p : Int) (b : Nat) (q : Int) : Bool :=
  let r := min p q
  decide (b * 2 ^ (q - r).toNat < a * 2 ^ (p - r).toNat)

def infCode (f : Fmt) (neg : Bool) : Nat :=
  (if neg then 2 ^ (f.mb + f.eb) else 0) + (2 ^ f.eb - 1) * 2 ^ f.mb

def maxCode (f : Fmt) (neg : Bool) : Nat := encodeFin f neg (maxfin f).1 (maxfin f).2

/-- R134: nan_to for float destinations. -/
def nanTo (f : Fmt) (b : BitVec 32) : Nat × BitVec 6 :=
  let sig : BitVec 6 := if isSignalling b then fInvalid else 0
  let s := if anyBit b 31 1 && f.sgn then 2 ^ (f.mb + f.eb) else 0
  if f.wide then (if f.mb == 23 then (quieten b).toNat else fieldN (quieten b) 16 16, sig)
  else match f.pol with
    | 0 => (s + (2 ^ f.eb - 1) * 2 ^ f.mb + 2 ^ (f.mb - 1), fNanLost ||| sig)
    | 1 => (s + 2 ^ (f.mb + f.eb) - 1, fNanLost ||| sig)
    | _ => (0, fNanLost ||| sig)

/-- R133: round an exact value into a float format. `zti` becomes nan(0x4) and sets invalid (R130). -/
def roundTo (f : Fmt) (mode : Mode) (x : Num) : Nat × BitVec 6 :=
  match x with
  | .nan b => nanTo f b
  | .zti => let r := nanTo f (nanBits 4); (r.1, r.2 ||| fInvalid)
  | .pruned => (0, 0)
  | .inf n =>
    if !f.sgn && n then (0, fInvalid)
    else if f.pol == 0 then (infCode f n, 0)
    else (maxCode f n, fOverflow)
  | .fin n m e =>
    if m == 0 then (encodeFin f n 0 0, 0)
    else if !f.sgn && n then (0, fInvalid)
    else
      let l : Int := (Nat.log2 m : Int) + e
      let q : Int := max l (1 - f.bias) - f.mb
      let r := pickMag mode n m (decide (q ≤ e)) (e - q).natAbs
      let fl : BitVec 6 := if r.2 then fInexact ||| (if l < 1 - f.bias then fUnderflow else 0) else 0
      if gtPow r.1 q (maxfin f).1 (maxfin f).2 then
        let toInf : Bool := f.pol == 0 &&
          (mode == 1 || mode == 5 || (mode == 4 && !n) || (mode == 3 && n))
        (if toInf then infCode f n else maxCode f n, fl ||| fOverflow ||| fInexact)
      else (encodeFin f n r.1 q, fl)

/-- R134: convert an exact value into an integer format of `w` bits. -/
def toIntFmt (signed : Bool) (w : Nat) (mode : Mode) (x : Num) : Nat × BitVec 6 :=
  let hi : Int := if signed then (2 : Int) ^ (w - 1) - 1 else (2 : Int) ^ w - 1
  let lo : Int := if signed then -((2 : Int) ^ (w - 1)) else 0
  match x with
  | .nan _ => (0, fNanLost ||| fInvalid)
  | .zti => (0, fNanLost ||| fInvalid)
  | .pruned => (0, 0)
  | .inf n => (wrapN w (if n then lo else hi), fInvalid)
  | .fin n m e =>
    let r := pickMag mode n m (decide (0 ≤ e)) e.natAbs
    let k : Int := if n then -(r.1 : Int) else r.1
    let ix : BitVec 6 := if r.2 then fInexact else 0
    if k < lo then (wrapN w lo, fInvalid ||| ix)
    else if hi < k then (wrapN w hi, fInvalid ||| ix)
    else (wrapN w k, ix)

/-- R133, R134: convert an exact value into a stored format. -/
def convertTo (f : ElFmt) (mode : Mode) (x : Num) : Nat × BitVec 6 :=
  match f.kind with
  | .float g => roundTo g mode x
  | .int s => toIntFmt s f.w mode x
  | _ => (0, 0)

/-- R402: the poison marker of a stored format. -/
def markerOf (f : ElFmt) : Nat :=
  match f.kind with
  | .int s => if s then 2 ^ (f.w - 1) else 2 ^ f.w - 1
  | .float g =>
    if g.wide then (if g.mb == 23 then 0x7FD80000 else 0x7FD8)
    else match g.pol with
      | 0 => (2 ^ g.eb - 1) * 2 ^ g.mb + 2 ^ (g.mb - 1)
      | 1 => 2 ^ (g.mb + g.eb) - 1
      | _ => 2 ^ f.w - 1
  | .win => 2 ^ 127
  | .raw => 0xFF

/-! ## Exact arithmetic -/

/-- A signed integer times 2^e, with `zneg` the sign of a zero. -/
def finOf (i : Int) (e : Int) (zneg : Bool) : Num :=
  .fin (if i = 0 then zneg else decide (i < 0)) i.natAbs e

def signedMant (n : Bool) (m : Nat) : Int := if n then -(m : Int) else m

/-- Exact sum of two finite numbers; an exact zero takes R150's sign under `mode`. -/
def finAdd (mode : Mode) (n1 : Bool) (m1 : Nat) (e1 : Int) (n2 : Bool) (m2 : Nat) (e2 : Int) : Num :=
  let e := min e1 e2
  let i := signedMant n1 (m1 * 2 ^ (e1 - e).toNat) + signedMant n2 (m2 * 2 ^ (e2 - e).toNat)
  let z := if m1 = 0 && m2 = 0 && n1 = n2 then n1 else mode == 3
  finOf i e z

/-- Exact product of two numbers that are not NaN; `none` is zero times infinity. -/
def mulNum (x y : Num) : Option Num :=
  match x, y with
  | .fin n m e, .fin n' m' e' => some (.fin (n != n') (m * m') (e + e'))
  | .fin n m _, .inf n' => if m = 0 then none else some (.inf (n != n'))
  | .inf n, .fin n' m _ => if m = 0 then none else some (.inf (n != n'))
  | .inf n, .inf n' => some (.inf (n != n'))
  | _, _ => none

/-- Exact sum of two numbers that are not NaN; `none` is infinity minus infinity. -/
def addNum (mode : Mode) (x y : Num) : Option Num :=
  match x, y with
  | .fin n m e, .fin n' m' e' => some (finAdd mode n m e n' m' e')
  | .inf n, .inf n' => if n = n' then some (.inf n) else none
  | .inf n, _ => some (.inf n)
  | _, .inf n => some (.inf n)
  | x, _ => some x

/-- The order of two numbers that are not NaN; −0 and +0 are equal: the sign of x − y. -/
def cmpNum (x y : Num) : Ordering :=
  match x, y with
  | .inf n, .inf n' => if n = n' then .eq else if n then .lt else .gt
  | .inf n, _ => if n then .lt else .gt
  | _, .inf n => if n then .gt else .lt
  | .fin n m e, .fin n' m' e' =>
    let q := min e e'
    compare (signedMant n (m * 2 ^ (e - q).toNat)) (signedMant n' (m' * 2 ^ (e' - q).toNat))
  | _, _ => .eq

end Sys2Proof.Machine
end

