-- ==== Sys2Proof/Machine/Checks.lean ====
section
/-! DEFINITION. The decode checks of 01_long_word R14 on one slot: the cause codes of R15 (1 illegal encoding,
2 reserved operand, 3 feature not accepted) that an operation raises, and the destinations it names. Opcodes a
map leaves unassigned, opcodes in a slot that may not hold them and nonzero reserved bits are refused in
Decode.lean, which yields no operation for them. -/

namespace Sys2Proof.Machine

/-- A condition that is an illegal encoding. -/
def ill (c : Bool) : List Nat := if c then [1] else []

/-- A condition that is a reserved operand. -/
def rsv (c : Bool) : List Nat := if c then [2] else []

/-- A scalar operand code (R21): 56..63 are reserved. -/
def ckOpd (c : BitVec 6) : List Nat := rsv (decide (56 ≤ c.toNat))

/-- A scalar destination code (R21): 0 and 16..47 are destinations. -/
def ckDst (c : BitVec 6) : List Nat := rsv ((decide (1 ≤ c.toNat) && decide (c.toNat ≤ 15)) || decide (48 ≤ c.toNat))

/-- A vector operand code (R22): 58..63 are reserved. -/
def ckVSrc (c : BitVec 6) : List Nat := rsv (decide (58 ≤ c.toNat))

/-- A vector destination code; a stream destination only where R148 permits it. -/
def ckVDst (z : Bool) (c : BitVec 6) : List Nat := rsv (decide (56 ≤ c.toNat) || (decide (48 ≤ c.toNat) && !z))

/-- A vector register code 0..47 (XV, LSEND). -/
def ckV (c : BitVec 6) : List Nat := rsv (decide (48 ≤ c.toNat))

/-- A staging code (R23). -/
def ckStage (c : BitVec 6) : List Nat := rsv (decide (24 ≤ c.toNat))

/-- A type in a set of ty codes. -/
def ckTy (l : List Nat) (t : BitVec 4) : List Nat := ill (!l.contains t.toNat)

/-- A rounding field: 0..5. -/
def ckRm (r : BitVec 3) : List Nat := ill (decide (6 ≤ r.toNat))

def tyFloat : List Nat := [0, 1]
def tyInt : List Nat := [2, 3, 4, 5, 6, 7, 8]
def tyBits : List Nat := [2, 3, 4, 5, 6, 7, 8, 9]
def tySmall : List Nat := [2, 3, 4, 5, 6, 7]
def tyCmp : List Nat := [0, 1, 2, 3, 4, 5, 6, 7, 8]
def tyAll : List Nat := [0, 1, 2, 3, 4, 5, 6, 7, 8, 9]

/-- A three-register vector form; the result has the type `ty`, a stream where 32 bits or narrower (R148). -/
def ckV3 (l : List Nat) (z : Bool) (d a b : BitVec 6) (t : BitVec 4) : List Nat :=
  ckTy l t ++ ckVDst (z && decide (t.toNat ≤ 7)) d ++ ckVSrc a ++ ckVSrc b

def ckVU (d a : BitVec 6) (r : BitVec 3) (t : BitVec 4) : List Nat :=
  ckTy tyFloat t ++ ckRm r ++ ckVDst true d ++ ckVSrc a

/-- VPACK and VUNPK's fn (R161). -/
def ckPack (f : BitVec 6) (t : BitVec 4) : List Nat :=
  let p := fieldN f 0 4
  ill (decide (9 ≤ p) || anyBit f 5 1 || (if p ≤ 4 then !tyFloat.contains t.toNat else t.toNat != 6))

/-- n(ty) of R144. -/
def elemCount (t : Nat) : Nat := if t == 8 then 128 else if t == 9 then 64 else 256

/-- VRED and VSCAN's fn (R164). -/
def ckRed (f : BitVec 6) (t : BitVec 4) : List Nat :=
  let o := fieldN f 0 3
  ill (decide (6 ≤ o) || decide (elemCount t.toNat < 2 ^ fieldN f 3 3) || decide (10 ≤ t.toNat) ||
    (decide (t.toNat ≤ 1) && decide (3 ≤ o)) || (t.toNat == 9 && o != 0))

/-- A completion header (R28): pe = 0 requires cf = 0. -/
def ckHdr (c : BitVec 5) (p : BitVec 1) : List Nat := ill (p == 0 && c != 0)

/-- A copy command's header (12 R243). -/
def ckCpy (c : BitVec 5) (p : BitVec 1) (r s : BitVec 3) (f : BitVec 1) : List Nat :=
  ckHdr c p ++ ill ((f == 1 && (p == 0 || c != 0)) || (p == 0 && s != 0) || decide (6 ≤ s.toNat) || decide (6 ≤ r.toNat))

/-- An order and scope of a network atomic (13 R264). -/
def ckOrd (o s : BitVec 3) : List Nat :=
  ill (decide (5 ≤ o.toNat) || decide (6 ≤ s.toNat) || (o.toNat == 4 && !(s.toNat == 3 || s.toNat == 4)))

/-- The state-register numbers SWR may write (05 R105); sr.resume only inside a handler. -/
def srWritable (h : Bool) (r : Nat) : Bool := [0x000, 0x008, 0x009, 0x00A, 0x00B].contains r || (h && r == 3)

def ckMem (dst : Bool) (d b : BitVec 6) : List Nat := (if dst then ckDst d else ckOpd d) ++ ckOpd b

/-- The causes that an operation raises by its fields alone; SWR and TRET are judged as inside a handler. -/
def slotCauses : Instr → List Nat
  | .nop => []
  | .wait _ o _ => ill (decide (2 ≤ o.toNat))
  | .waitc _ o _ => ill (decide (2 ≤ o.toNat))
  | .post _ o s _ => ill (!(o == 0 || o == 2) || decide (6 ≤ s.toNat))
  | .clrf _ => []
  | .quiet _ => []
  | .segb _ => []
  | .brk _ => []
  | .trapi _ => []
  | .drain s => ill (decide (6 ≤ s.toNat))
  | .endOp => []
  | .add d a b => ckDst d ++ ckOpd a ++ ckOpd b
  | .sub d a b => ckDst d ++ ckOpd a ++ ckOpd b
  | .and d a b => ckDst d ++ ckOpd a ++ ckOpd b
  | .or d a b => ckDst d ++ ckOpd a ++ ckOpd b
  | .xor d a b => ckDst d ++ ckOpd a ++ ckOpd b
  | .andn d a b => ckDst d ++ ckOpd a ++ ckOpd b
  | .shl d a b => ckDst d ++ ckOpd a ++ ckOpd b
  | .shr d a b => ckDst d ++ ckOpd a ++ ckOpd b
  | .sar d a b => ckDst d ++ ckOpd a ++ ckOpd b
  | .rotl d a b => ckDst d ++ ckOpd a ++ ckOpd b
  | .min d a b => ckDst d ++ ckOpd a ++ ckOpd b
  | .max d a b => ckDst d ++ ckOpd a ++ ckOpd b
  | .minu d a b => ckDst d ++ ckOpd a ++ ckOpd b
  | .maxu d a b => ckDst d ++ ckOpd a ++ ckOpd b
  | .mov d a => ckDst d ++ ckOpd a
  | .mul d a b => ckDst d ++ ckOpd a ++ ckOpd b
  | .mulh d a b => ckDst d ++ ckOpd a ++ ckOpd b
  | .mulhu d a b => ckDst d ++ ckOpd a ++ ckOpd b
  | .div d a b => ckDst d ++ ckOpd a ++ ckOpd b
  | .divu d a b => ckDst d ++ ckOpd a ++ ckOpd b
  | .rem d a b => ckDst d ++ ckOpd a ++ ckOpd b
  | .remu d a b => ckDst d ++ ckOpd a ++ ckOpd b
  | .sel d a b c => ckDst d ++ ckOpd a ++ ckOpd b ++ ckOpd c
  | .clz d a => ckDst d ++ ckOpd a
  | .ctz d a => ckDst d ++ ckOpd a
  | .popc d a => ckDst d ++ ckOpd a
  | .bext d a b => ckDst d ++ ckOpd a ++ ckOpd b
  | .bins d a b c => ckDst d ++ ckOpd a ++ ckOpd b ++ ckOpd c
  | .sext d a n => ckDst d ++ ckOpd a ++ ill (n == 0)
  | .zext d a n => ckDst d ++ ckOpd a ++ ill (n == 0)
  | .ceq d a b => ckDst d ++ ckOpd a ++ ckOpd b
  | .cne d a b => ckDst d ++ ckOpd a ++ ckOpd b
  | .clt d a b => ckDst d ++ ckOpd a ++ ckOpd b
  | .cltu d a b => ckDst d ++ ckOpd a ++ ckOpd b
  | .cle d a b => ckDst d ++ ckOpd a ++ ckOpd b
  | .cleu d a b => ckDst d ++ ckOpd a ++ ckOpd b
  | .addi d a _ => ckDst d ++ ckOpd a
  | .andi d a _ => ckDst d ++ ckOpd a
  | .ori d a _ => ckDst d ++ ckOpd a
  | .xori d a _ => ckDst d ++ ckOpd a
  | .shli d a _ => ckDst d ++ ckOpd a
  | .shri d a _ => ckDst d ++ ckOpd a
  | .sari d a _ => ckDst d ++ ckOpd a
  | .ceqi d a _ => ckDst d ++ ckOpd a
  | .clti d a _ => ckDst d ++ ckOpd a
  | .cltui d a _ => ckDst d ++ ckOpd a
  | .lui d _ => ckDst d
  | .movi d _ => ckDst d
  | .stg s a => ckStage s ++ ckOpd a
  | .stgi s _ _ => ckStage s
  | .srd d r => ckDst d ++ rsv (decide (0x014 ≤ r.toNat))
  | .swr a r => ckOpd a ++ rsv (!srWritable true r.toNat)
  | .ldI8 d b _ => ckMem true d b
  | .ldN8 d b _ => ckMem true d b
  | .ldI16 d b _ => ckMem true d b
  | .ldN16 d b _ => ckMem true d b
  | .ldI32 d b _ => ckMem true d b
  | .ldN32 d b _ => ckMem true d b
  | .ldI64 d b _ => ckMem true d b
  | .ldsI8 d b _ => ckMem true d b
  | .ldsN8 d b _ => ckMem true d b
  | .ldsI16 d b _ => ckMem true d b
  | .ldsN16 d b _ => ckMem true d b
  | .ldsI32 d b _ => ckMem true d b
  | .ldsN32 d b _ => ckMem true d b
  | .ldsI64 d b _ => ckMem true d b
  | .ldaI32 d b _ => ckMem true d b
  | .ldaN32 d b _ => ckMem true d b
  | .ldaI64 d b _ => ckMem true d b
  | .stI8 d b _ => ckMem false d b
  | .stI16 d b _ => ckMem false d b
  | .stI32 d b _ => ckMem false d b
  | .stI64 d b _ => ckMem false d b
  | .stlI32 d b _ => ckMem false d b
  | .stlI64 d b _ => ckMem false d b
  | .amoI32 d a b k o => ckDst d ++ ckOpd a ++ ckOpd b ++ ill (decide (9 ≤ k.toNat) || decide (4 ≤ o.toNat))
  | .amoI64 d a b k o => ckDst d ++ ckOpd a ++ ckOpd b ++ ill (decide (9 ≤ k.toNat) || decide (4 ≤ o.toNat))
  | .casI32 d a b c _ => ckDst d ++ ckOpd a ++ ckOpd b ++ ckOpd c
  | .casI64 d a b c _ => ckDst d ++ ckOpd a ++ ckOpd b ++ ckOpd c
  | .br c a _ => ill (decide (7 ≤ c.toNat) || (c == 0 && a != 0)) ++ ckOpd a
  | .jmp _ => []
  | .jmpi a => ckOpd a
  | .call _ => []
  | .ret => []
  | .loop a o => ckOpd a ++ ill (decide (o.toInt < 1))
  | .chk a _ => ckOpd a
  | .tret => []
  | .xtov v s l m => ckV v ++ ckOpd s ++ ill (m == 3 || (m == 2 && l.toNat % 2 == 1) || (m == 0 && l != 0))
  | .xfromv v d l m => ckV v ++ ckDst d ++ ill (m == 3 || (m == 2 && l.toNat % 2 == 1))
  | .xag _ p s => ckOpd s ++ ill (decide (10 ≤ p.toNat))
  | .xmask _ x _ s => if x == 0 then ckOpd s else ckDst s
  | .xsts _ e d => ckDst d ++ ill (decide (5 ≤ e.toNat))
  | .vadd d a b _ t => ckV3 tyFloat true d a b t
  | .vsub d a b _ t => ckV3 tyFloat true d a b t
  | .vmul d a b _ t => ckV3 tyFloat true d a b t
  | .vfma d a b _ t => ckV3 tyFloat true d a b t
  | .vfms d a b _ t => ckV3 tyFloat true d a b t
  | .vmin d a b _ t => ckV3 tyFloat true d a b t
  | .vmax d a b _ t => ckV3 tyFloat true d a b t
  | .vabs d a _ t => ckTy [0, 1, 2, 4, 6, 8] t ++ ckVDst (decide (t.toNat ≤ 7)) d ++ ckVSrc a
  | .vneg d a _ t => ckTy [0, 1, 2, 4, 6, 8] t ++ ckVDst (decide (t.toNat ≤ 7)) d ++ ckVSrc a
  | .vdiv d a b _ t => ckV3 tyFloat true d a b t
  | .vsqrt d a r _ t => ckVU d a r t
  | .vrsq d a r _ t => ckVU d a r t
  | .vrcp d a r _ t => ckVU d a r t
  | .vexp2 d a r _ t => ckVU d a r t
  | .vlog2 d a r _ t => ckVU d a r t
  | .vtanh d a r _ t => ckVU d a r t
  | .vsigm d a r _ t => ckVU d a r t
  | .viadd d a b _ t => ckV3 tyInt true d a b t
  | .visub d a b _ t => ckV3 tyInt true d a b t
  | .vimul d a b _ t => ckV3 tyInt true d a b t
  | .vimulh d a b _ t => ckV3 tyInt true d a b t
  | .vimin d a b _ t => ckV3 tyInt true d a b t
  | .vimax d a b _ t => ckV3 tyInt true d a b t
  | .vand d a b _ t => ckV3 tyBits true d a b t
  | .vor d a b _ t => ckV3 tyBits true d a b t
  | .vxor d a b _ t => ckV3 tyBits true d a b t
  | .vshl d a b _ t => ckV3 tyInt true d a b t
  | .vshr d a b _ t => ckV3 tyInt true d a b t
  | .vsar d a b _ t => ckV3 tyInt true d a b t
  | .vwadd d a b _ t => ckTy tySmall t ++ ckVDst (decide (t.toNat ≤ 5)) d ++ ckVSrc a ++ ckVSrc b
  | .vwmul d a b _ t => ckTy tySmall t ++ ckVDst (decide (t.toNat ≤ 5)) d ++ ckVSrc a ++ ckVSrc b
  | .vnarw d a b _ t => ckV3 tySmall true d a b t
  | .vcmp c _ a b _ t => ckTy tyCmp t ++ ill (c == 7) ++ ckVSrc a ++ ckVSrc b
  | .vsel d a b s t => ckV3 tyAll false d a b t ++ ill (s == 0)
  | .vmop _ _ _ _ => []
  | .vcvt d a _ r _ t => ckTy tyCmp t ++ ckRm r ++ ckVDst false d ++ ckVSrc a
  | .vscale d a b _ t => ckV3 tyFloat true d a b t
  | .vpack d a f _ t => ckPack f t ++ ckVDst true d ++ ckVSrc a
  | .vunpk d a f _ t => ckPack f t ++ ckVDst true d ++ ckVSrc a
  | .vmov d a _ t => ckTy tyAll t ++ ckVDst false d ++ ckVSrc a
  | .vperm d a b _ t => ckV3 tyAll false d a b t
  | .vslide d a _ _ => ckVDst false d ++ ckVSrc a
  | .vzip d a b _ t => ckV3 tyAll false d a b t
  | .vuzp d a b _ t => ckV3 tyAll false d a b t
  | .vred d a f _ t => ckRed f t ++ ckVDst false d ++ ckVSrc a
  | .vscan d a f _ t => ckRed f t ++ ckVDst false d ++ ckVSrc a
  | .vld v _ _ t => ckTy tyAll t ++ ckVDst false v
  | .vst v _ _ t => ckTy tyAll t ++ ckVSrc v
  | .vldx v _ b _ t => ckTy tyAll t ++ ckVDst false v ++ ckVSrc b
  | .vstx v _ b _ t => ckTy tyAll t ++ ckVSrc v ++ ckVSrc b
  | .vdec _ c _ b _ p f => ill (c == 7 || (p == 0 && f != 0)) ++ rsv ((decide (48 ≤ b.toNat) && decide (b.toNat ≤ 55)) || decide (58 ≤ b.toNat))
  | .vcut _ f _ => rsv (decide (48 ≤ f.toNat) && f.toNat != 56)
  | .mcall c p _ _ => ckHdr c p
  | .mlatch c p _ _ => ckHdr c p
  | .medge c p => ckHdr c p
  | .mflush c p => ckHdr c p
  | .mstep c p i n => ckHdr c p ++ ill (decide (255 < i.toNat + n.toNat))
  | .mrout c p _ _ => ckHdr c p
  | .mstat c p => ckHdr c p
  | .mdec c p k => ckHdr c p ++ ill (k == 7)
  | .mcut c p _ => ckHdr c p
  | .cpy c p r s f => ckCpy c p r s f
  | .cpys c p r s f => ckCpy c p r s f
  | .cpyg c p r s f => ckCpy c p r s f
  | .cpyt c p r s f => ckCpy c p r s f
  | .cpyx c p r s f => ckCpy c p r s f
  | .cpyf c p r s f => ckCpy c p r s f
  | .cpyw c p r s f => ckCpy c p r s f
  | .cpyq c p r s f => ckCpy c p r s f
  | .lsend v _ => ckV v
  | .lsched c p => ckHdr c p
  | .gld c p _ => ckHdr c p
  | .gdef c p => ckHdr c p
  | .fpost c p o s => ckHdr c p ++ ill (!(o == 0 || o == 2) || decide (6 ≤ s.toNat))
  | .namo c p o s k _ => ckHdr c p ++ ckOrd o s ++ ill (decide (9 ≤ k.toNat))
  | .ncas c p o s f _ => ckHdr c p ++ ckOrd o s ++ ill (decide (2 ≤ f.toNat))
  | .pgmap c p => ckHdr c p
  | .pgdone c p => ckHdr c p
  | .stepEnd => []
  | .stepHead _ => []
  | .stepJoin s => ill (s != 1)
  | .stepAdd _ => []
  | .stepPass _ => []
  | .stepTail s i => ill (!([1, 2, 4, 8, 16, 32, 64, 128].contains s.toNat) || i == 3)
  | .stepFill _ l _ r _ _ => ill (r == 1 && l != 0)
  | .stepSwap _ => []
  | .stepFeed _ src af ent ag _ scl =>
    ill (if src == 1 then af != 0 || ent != 0 || scl != 0 else ag != 0 || decide (10 ≤ af.toNat) || (af == 0 && scl != 0))
  | .stepRepeat n l c _ => ill (l == 0 || (c == 1 && n != 0))
  | .stepSync m f => ill (m == 0 && f != 0)
  | _ => []

/-- The bit of the feature that gates an operation (R34, 20 R370). -/
def featureOf : Instr → Option Nat
  | .segb _ => some 0
  | .vdec _ _ _ _ _ _ _ => some 1
  | .vcut _ _ _ => some 1
  | .mdec _ _ _ => some 1
  | .mcut _ _ _ => some 1
  | .pgmap _ _ => some 6
  | .pgdone _ _ => some 6
  | .cpyx _ _ _ _ _ => some 7
  | .vpack _ _ f _ _ => packFeature f
  | .vunpk _ _ f _ _ => packFeature f
  | _ => none
where
  /-- FP4, FP6, FP8 and narrow integer (R161). -/
  packFeature (f : BitVec 6) : Option Nat :=
    match fieldN f 0 4 with
    | 0 => some 8 | 1 => some 9 | 2 => some 9 | 3 => some 10 | 4 => some 10
    | n => if n ≤ 8 then some 11 else none

/-- The vector operand fields of an operation of slot 4 (R115). -/
def vectorFields : Instr → List (BitVec 6)
  | .vadd d a b _ _ | .vsub d a b _ _ | .vmul d a b _ _ | .vfma d a b _ _ | .vfms d a b _ _ | .vmin d a b _ _
  | .vmax d a b _ _ | .vdiv d a b _ _ | .viadd d a b _ _ | .visub d a b _ _ | .vimul d a b _ _ | .vimulh d a b _ _
  | .vimin d a b _ _ | .vimax d a b _ _ | .vand d a b _ _ | .vor d a b _ _ | .vxor d a b _ _ | .vshl d a b _ _
  | .vshr d a b _ _ | .vsar d a b _ _ | .vwadd d a b _ _ | .vwmul d a b _ _ | .vnarw d a b _ _ | .vsel d a b _ _
  | .vscale d a b _ _ | .vperm d a b _ _ | .vzip d a b _ _ | .vuzp d a b _ _ => [d, a, b]
  | .vabs d a _ _ | .vneg d a _ _ | .vsqrt d a _ _ _ | .vrsq d a _ _ _ | .vrcp d a _ _ _ | .vexp2 d a _ _ _
  | .vlog2 d a _ _ _ | .vtanh d a _ _ _ | .vsigm d a _ _ _ | .vcvt d a _ _ _ _ | .vpack d a _ _ _ | .vunpk d a _ _ _
  | .vmov d a _ _ | .vslide d a _ _ | .vred d a _ _ _ | .vscan d a _ _ _ => [d, a]
  | .vcmp _ _ a b _ _ => [a, b]
  | .vld v _ _ _ | .vst v _ _ _ => [v]
  | .vldx v _ b _ _ | .vstx v _ b _ _ => [v, b]
  | _ => []

/-- Causes that depend on the handler state (R115, R71, R105): streams and VDEC, VCUT inside one; TRET and SWR to
sr.resume outside one. -/
def handlerCauses (h : Bool) (i : Instr) : List Nat :=
  if h then
    rsv ((vectorFields i).any (fun c => decide (48 ≤ c.toNat) && decide (c.toNat ≤ 55))) ++
    (match i with
     | .vdec _ _ _ _ _ _ _ => [2]
     | .vcut _ _ _ => [2]
     | _ => [])
  else match i with
    | .tret => [1]
    | .swr _ r => rsv (r == 3)
    | _ => []

/-- Every decode-check cause of an operation, given the accepted features and whether a handler runs. -/
def issueCauses (feat : BitVec 128) (h : Bool) (i : Instr) : List Nat :=
  slotCauses i ++ handlerCauses h i ++
  (match featureOf i with
   | some k => if anyBit feat k 1 then [] else [3]
   | none => [])

/-- The registers an operation names as destination, numbered g 0..31, v and z 100..155, m 200..207 (R14); a reserved code names none. -/
def destsOf (i : Instr) : List Nat :=
  match i with
  | .add d _ _ | .sub d _ _ | .and d _ _ | .or d _ _ | .xor d _ _ | .andn d _ _ | .shl d _ _ | .shr d _ _ | .sar d _ _
  | .rotl d _ _ | .min d _ _ | .max d _ _ | .minu d _ _ | .maxu d _ _ | .mov d _ | .mul d _ _ | .mulh d _ _
  | .mulhu d _ _ | .div d _ _ | .divu d _ _ | .rem d _ _ | .remu d _ _ | .sel d _ _ _ | .clz d _ | .ctz d _ | .popc d _
  | .bext d _ _ | .bins d _ _ _ | .sext d _ _ | .zext d _ _ | .ceq d _ _ | .cne d _ _ | .clt d _ _ | .cltu d _ _
  | .cle d _ _ | .cleu d _ _ | .addi d _ _ | .andi d _ _ | .ori d _ _ | .xori d _ _ | .shli d _ _ | .shri d _ _
  | .sari d _ _ | .ceqi d _ _ | .clti d _ _ | .cltui d _ _ | .lui d _ | .movi d _ | .srd d _
  | .ldI8 d _ _ | .ldN8 d _ _ | .ldI16 d _ _ | .ldN16 d _ _ | .ldI32 d _ _ | .ldN32 d _ _ | .ldI64 d _ _
  | .ldsI8 d _ _ | .ldsN8 d _ _ | .ldsI16 d _ _ | .ldsN16 d _ _ | .ldsI32 d _ _ | .ldsN32 d _ _ | .ldsI64 d _ _
  | .ldaI32 d _ _ | .ldaN32 d _ _ | .ldaI64 d _ _ | .amoI32 d _ _ _ _ | .amoI64 d _ _ _ _ | .casI32 d _ _ _ _
  | .casI64 d _ _ _ _ | .xfromv _ d _ _ | .xsts _ _ d => named d
  | .call _ => [31]
  | .xmask m x _ s => if x == 0 then [200 + m.toNat] else named s
  | .xtov v _ _ _ => if v.toNat < 48 then [100 + v.toNat] else []
  | .vcmp _ d _ _ _ _ => [200 + d.toNat]
  | .vmop d _ _ _ => [200 + d.toNat]
  | .vdec d _ _ _ _ _ _ => [200 + d.toNat]
  | .vst _ _ _ _ => []
  | .vstx _ _ _ _ _ => []
  | i => match vectorFields i with
    | d :: _ => if d.toNat < 56 then [100 + d.toNat] else []
    | [] => []
where
  named (d : BitVec 6) : List Nat := if 16 ≤ d.toNat ∧ d.toNat ≤ 47 then [d.toNat - 16] else []

end Sys2Proof.Machine
end

