-- ==== Sys2Proof/Machine/Mem.lean ====
section
/-! DEFINITION. Memory: one list of (place, byte) pairs over all spaces (10 R204), its canonical form, and the
poison marks kept per 8-byte word (22 R382). An unlisted place reads as zero (20 R364, 21 R378; log entry 3). -/

namespace Sys2Proof.Machine

/-- The byte at a place. -/
def memGet : List Host.Cell → Nat → Byte
  | [], _ => 0
  | (j, x) :: r, a => if j = a then x else if a < j then 0 else memGet r a

/-- The memory without an entry at a place. -/
def memDrop : List Host.Cell → Nat → List Host.Cell
  | [], _ => []
  | (j, x) :: r, a => if j = a then r else if a < j then (j, x) :: r else (j, x) :: memDrop r a

/-- The memory with a nonzero byte at a place. -/
def memIns : List Host.Cell → Nat → Byte → List Host.Cell
  | [], a, b => [(a, b)]
  | (j, x) :: r, a, b => if a < j then (a, b) :: (j, x) :: r else if a = j then (a, b) :: r else (j, x) :: memIns r a b

/-- The memory with a byte at a place; zero, what an unlisted place reads as, removes the entry. -/
def memSet (m : List Host.Cell) (a : Nat) (b : Byte) : List Host.Cell :=
  if b = 0 then memDrop m a else memIns m a b

/-- The canonical form: places strictly rising, no entry zero. -/
def Memory.wf : List Host.Cell → Bool
  | [] => true
  | (_, x) :: [] => x != 0
  | (j, x) :: (k, y) :: r => x != 0 && decide (j < k) && Memory.wf ((k, y) :: r)

/-- `n` bytes from a place on. -/
def memRead (m : List Host.Cell) (a : Nat) : Nat → List Byte
  | 0 => []
  | n + 1 => memGet m a :: memRead m (a + 1) n

/-- Consecutive bytes written from a place on. -/
def memWrite : List Host.Cell → Nat → List Byte → List Host.Cell
  | m, _, [] => m
  | m, a, b :: r => memWrite (memSet m a b) (a + 1) r

/-- Every byte of a range set to zero (a scrub). -/
def memClear (m : List Host.Cell) (a n : Nat) : List Host.Cell :=
  m.filter (fun c => !(decide (a ≤ c.1) && decide (c.1 < a + n)))

/-! ## Poison marks -/

/-- Whether a mark is set on the word of some byte of the range. -/
def marked (p : List Nat) (a n : Nat) : Bool :=
  n != 0 && p.any (fun w => decide (a / 8 ≤ w) && decide (w ≤ (a + n - 1) / 8))

/-- The marks after a write of `n` bytes: words written whole lose theirs (22 R382). -/
def unmark (p : List Nat) (a n : Nat) : List Nat :=
  p.filter (fun w => !(decide (a ≤ 8 * w) && decide (8 * w + 8 ≤ a + n)))

/-- The marks with word `w` marked, rising and without repeats. -/
def markWord : List Nat → Nat → List Nat
  | [], w => [w]
  | j :: r, w => if w < j then w :: j :: r else if w = j then j :: r else j :: markWord r w

/-- The marks of one range carried to another place, word by word. -/
def markCopy (p : List Nat) (src dst : Nat) : Nat → List Nat
  | 0 => p
  | k + 1 =>
    let p' := markCopy p src dst k
    if p.contains (src + k) then markWord p' (dst + k) else p'.filter (· != dst + k)

/-! ## Places of the spaces (10 R204, R205) -/

def placeW (site byte : Nat) : Nat := site * 0xC000000 + byte
def placeS (die byte : Nat) : Nat := 2 ^ 48 + die * 0x10000000 + byte
def placeTier (byte : Nat) : Nat := 2 * 2 ^ 48 + byte
def placeHost (byte : Nat) : Nat := 3 * 2 ^ 48 + byte
def placeP (seq byte : Nat) : Nat := (4 * 2 ^ 48) + seq * 2 ^ 20 + byte
def placeE (seq byte : Nat) : Nat := 5 * 2 ^ 48 + seq * 2 ^ 18 + byte
def placeI (seq byte : Nat) : Nat := 6 * 2 ^ 48 + seq * 2 ^ 16 + byte
/-- A byte of another package, held as plain memory by its fabric address (log entry 6). -/
def placeRemote (fabric : Nat) : Nat := 2 ^ 60 + fabric

/-- Bytes read from the state's memory. -/
def readBytes (s : State) (a n : Nat) : List Byte := memRead s.mem a n

/-- Bytes written to the state's memory; marks of words written whole go (22 R382). -/
def writeBytes (s : State) (a : Nat) (l : List Byte) : State :=
  { s with mem := memWrite s.mem a l, poison := unmark s.poison a l.length }

/-- A little-endian number of `n` bytes. -/
def readNat (s : State) (a n : Nat) : Nat := leNat (readBytes s a n)

/-- A number written little-endian in `n` bytes (00_scope R4). -/
def writeNat (s : State) (a n x : Nat) : State := writeBytes s a (leBytes n x)

/-- A range of places set to zero, with no mark left on it. -/
def clearRange (s : State) (a n : Nat) : State := { s with mem := memClear s.mem a n, poison := unmark s.poison a n }

/-- Whether a byte of the range lies in a poisoned word. -/
def poisoned (s : State) (a n : Nat) : Bool := marked s.poison a n

/-- The stores of a bundle performed in slot order (01 R18, 02 R57). -/
def performStores : List StoreOp → State → State
  | [], s => s
  | o :: r, s => performStores r (writeBytes s o.place o.bytes)

end Sys2Proof.Machine
end

