-- ==== Sys2Proof/Machine/Operands.lean ====
section
/-! DEFINITION. Operand forms and destinations: scalar codes (01 R21, 02 R40 to R43), vector codes and masks
(01 R22, 07 R144, R145), the pending-write table (05 R109, R110, 03 R88) and state registers (05 R105). A read
before a result has landed yields free bits (01 R19, 00 R6; log entry 1). -/

namespace Sys2Proof.Machine

/-! ## Sequencers -/

def getSeq (s : State) (n : Nat) : Seq := tget {} s.seqs n
def setSeq (s : State) (n : Nat) (q : Seq) : State := { s with seqs := tset s.seqs n q }
def modSeq (s : State) (n : Nat) (f : Seq → Seq) : State := setSeq s n (f (getSeq s n))
def getSite (s : State) (n : Nat) : Site := tget {} s.sites n
def setSite (s : State) (n : Nat) (x : Site) : State := { s with sites := tset s.sites n x }
def getCtx (s : State) (c : Nat) : Option Ctx := tfind s.ctxs c
def setCtx (s : State) (c : Nat) (x : Ctx) : State := { s with ctxs := tset s.ctxs c x }
def modCtx (s : State) (c : Nat) (f : Ctx → Ctx) : State :=
  match getCtx s c with
  | some x => setCtx s c (f x)
  | none => s

/-- Whether the context of a sequencer is not halted for debug. -/
def live (s : State) (q : Seq) : Bool :=
  match q.ctx.bind (getCtx s) with
  | some x => !x.halted
  | none => true

/-- The device timestamp at 600 MHz, which the arithmetic clock does not slow (22 R386, R399); the state counts tenths. -/
def timeNow (s : State) : Nat := s.stamp / 10

/-! ## Lanes -/

def lanesGo {α : Type} (f : Nat → Lane → α) : Nat → Nat → VReg → List α
  | 0, _, _ => []
  | k + 1, i, [] => f i 0 :: lanesGo f k (i + 1) []
  | k + 1, i, x :: r => f i x :: lanesGo f k (i + 1) r

/-- A function of number and contents applied to all 256 lanes; lanes a register does not list are zero. -/
def mapLanes {α : Type} (f : Nat → Lane → α) (v : VReg) : List α := lanesGo f 256 0 v

def zipLanesGo (f : Nat → Lane → Lane → Lane) : Nat → Nat → VReg → VReg → VReg
  | 0, _, _, _ => []
  | k + 1, i, a, b => f i (a.headD 0) (b.headD 0) :: zipLanesGo f k (i + 1) a.tail b.tail

def zipLanes (f : Nat → Lane → Lane → Lane) (a b : VReg) : VReg := zipLanesGo f 256 0 a b

/-- `new` in the lanes of a mask, `old` elsewhere. -/
def mergeLanes (m : Mask) (new old : VReg) : VReg := zipLanes (fun i x y => if m.getLsbD i then x else y) new old

/-- Free bits in the lanes of a mask. -/
def freeLanes (fr pos : Nat) (m : Mask) (v : VReg) : VReg :=
  if m == 0 then v else mapLanes (fun i x => if m.getLsbD i then Config.freeBits 32 fr (256 * pos + i) else x) v

def allLanes : Mask := BitVec.allOnes 256

/-! ## The pending-write table -/

/-- The lanes of a destination that a result in flight makes unspecified to read (transfers toward the vector side
keep the old value until they land, 03 R88). -/
def pendingLanes (q : Seq) (d : Dest) : Mask :=
  q.pending.foldl (fun m e => if e.dest == d && !e.exact then m ||| e.lanes else m) 0

/-- Whether a read of a destination of one value is unspecified. -/
def isPending (q : Seq) (d : Dest) : Bool := pendingLanes q d != 0

/-- An entry without the lanes of a later write. -/
def Pending.without (e : Pending) (l : Mask) : Pending := { e with lanes := e.lanes &&& ~~~l }

/-- The table when a later write of these lanes stands (02 R42, 03 R88): an earlier entry never lands there, but holds its place
until its own bound, when its sr.fpstat bits land (05 R110, 06 R135). -/
def dropLanes (d : Dest) (l : Mask) (p : List Pending) : List Pending := p.map (fun e => if e.dest == d then e.without l else e)

/-- As dropLanes, for a write after which the last `k` entries of the destination were issued. -/
def dropOlder (d : Dest) (l : Mask) (k : Nat) (p : List Pending) : List Pending :=
  let rec go : Nat → List Pending → List Pending
    | _, [] => []
    | n, e :: r => if e.dest == d then (if n = 0 then e else e.without l) :: go (n - 1) r else e :: go n r
  go ((p.filter (fun e => e.dest == d)).length - k) p

/-- A walk parameter of a generator set, which resets the walk (03 R91). -/
def setParam (g : Gen) (p : Nat) (x : Word) : Gen :=
  let g := { g with idx := [0, 0, 0, 0] }
  if p = 0 then { g with base := bits x 0 20 }
  else if p ≤ 4 then { g with count := g.count.set (p - 1) (bits x 0 16) }
  else if p ≤ 8 then { g with stride := g.stride.set (p - 5) (bits x 0 32) }
  else { g with ctl := bits x 0 3 }

/-- Sticky bits set by a result that lands in this clock (06 R135). -/
def orFpstat (q : Seq) (f : BitVec 6) : Seq := { q with sr := { q.sr with fpstat := q.sr.fpstat ||| f }, fpNow := q.fpNow ||| f }

/-- A mask write that has been issued, with its bound: the decisions of `r` still to land will find it later than themselves. -/
def noteMask (q : Seq) (r left : Nat) (l : Mask) : Seq :=
  { q with z := q.z.map (fun z => { z with vdec := z.vdec.map (fun d =>
      if d.md.toNat = r then { d with later := d.later ++ [(left, l)] } else d) }) }

/-- The later writes of mask `r` that land now take their lanes from the decisions still to land (03 R88). -/
def overtake (q : Seq) (r : Nat) : Seq :=
  { q with z := q.z.map (fun z => { z with vdec := z.vdec.map (fun d =>
      if d.md.toNat = r then
        { d with lost := d.later.foldl (fun m o => if o.1 = 0 then m ||| o.2 else m) d.lost, later := d.later.filter (fun o => o.1 != 0) }
      else d) }) }

/-- Lanes of vector register `r` that take the value of a write issued after the group load that left them open. A write that a group load
has landed over, in clock `under`, settles what earlier ones left open, and nothing of that one or a later one (13 R276). -/
def settleGld (q : Seq) (r : Nat) (l : Mask) (under : Nat) : Seq :=
  { q with gldOpen := (q.gldOpen.map (fun g =>
      if g.vd = r ∧ (under = 0 ∨ g.clock < under) then { g with lanes := g.lanes &&& ~~~l } else g)).filter (fun g => g.lanes != 0) }

/-- The writes in flight to a destination when a group load lands there in a clock. -/
def landedOver (d : Dest) (clock : Nat) (p : List Pending) : List Pending :=
  p.map (fun e => if e.dest == d && e.under == 0 then { e with under := clock } else e)

/-- Lanes of mask register `r` that take a value by another way than the VDEC that has landed them ahead of its deadline. -/
def settleMask (q : Seq) (r : Nat) (l : Mask) : Seq :=
  { q with maskOpen := (q.maskOpen.map (fun g => if g.md = r then { g with lanes := g.lanes &&& ~~~l } else g)).filter (fun g => g.lanes != 0) }

/-- An entry's lanes take its value (05 R110). -/
def land (q : Seq) (e : Pending) : Seq :=
  let q := orFpstat q e.flags
  let q := match e.dest with
    | .mask r => overtake q r
    | _ => q
  if e.lanes == 0 then q
  else match e.dest with
    | .queue a => { q with q := q.q.set a e.value }
    | .shadow a => { q with sq := q.sq.set a e.value }
    | .named r => { q with g := q.g.set r e.value }
    | .vector r => { settleGld q r e.lanes e.under with v := q.v.set r (mergeLanes e.lanes e.vec (at' q.v r [])) }
    | .mask r => { settleMask q r e.lanes with m := q.m.set r ((at' q.m r 0 &&& ~~~e.lanes) ||| (e.mvec &&& e.lanes)) }
    | .param g p => { q with ag := q.ag.set g (setParam (at' q.ag g {}) p e.value.bits) }

def landGo : List Pending → List Pending → Seq → Seq
  | [], kept, q => { q with pending := kept }
  | e :: r, kept, q =>
    if e.left = 0 then landGo r (dropLanes e.dest e.lanes kept) (land q e)
    else landGo r (kept ++ [e]) q

/-- Every entry whose bound has run out lands, in the order of issue (05 R110). -/
def landDue (q : Seq) : Seq := landGo q.pending [] q

/-- A vector-side or mask entry added at issue. -/
def addPending (q : Seq) (e : Pending) : Seq := { q with pending := q.pending ++ [e] }

/-! ## Scalar operands and destinations -/

/-- The value of operand code `c` of sequencer `n`, whose state at the start of the bundle is `q` (R21). -/
def scalarOperand (fr n : Nat) (q : Seq) (pos : Nat) (c : BitVec 6) : Scalar :=
  let k := c.toNat
  let free : Scalar := { bits := Config.freeBits 64 fr pos }
  if k < 16 then
    if q.sr.hstat then (if isPending q (.shadow k) then free else at' q.sq k {})
    else (if isPending q (.queue k) then free else at' q.q k {})
  else if k < 48 then (if isPending q (.named (k - 16)) then free else at' q.g (k - 16) {})
  else match k with
    | 49 => { bits := (bits q.sr.tile 0 16).setWidth 64 }
    | 50 => { bits := (bits q.sr.tile 16 16).setWidth 64 }
    | 51 => { bits := (bits q.sr.tile 32 16).setWidth 64 }
    | 52 => { bits := BitVec.ofNat 64 n }
    | 53 => { bits := 256 }
    | 54 => { bits := q.sr.sched &&& 0xFFFFFFFF }
    | 55 => { bits := BitVec.allOnes 64 }
    | _ => { bits := 0 }

/-- Operand `c` in position `pos` of the slot being executed. -/
def opd (s : State) (b : Bundle) (pos : Nat) (c : BitVec 6) : Scalar :=
  scalarOperand s.free b.seq b.start pos c

/-- A destination after a push: an entry of the queue pushed onto is one older, and gone past q15 (02 R41). -/
def ageDest (h : Bool) (d : Dest) : Option Dest :=
  match d with
  | .queue a => if h then some d else if 15 ≤ a then none else some (.queue (a + 1))
  | .shadow a => if h then (if 15 ≤ a then none else some (.shadow (a + 1))) else some d
  | _ => some d

/-- The table after a push (02 R41). -/
def agePending (h : Bool) (p : List Pending) : List Pending :=
  p.filterMap (fun e => (ageDest h e.dest).map (fun d => { e with dest := d }))

/-- The destination of a push. -/
def pushDest (h : Bool) : Dest := if h then .shadow 0 else .queue 0

/-- A push onto the task's queue, or the shadow queue inside a handler (02 R41, 05 R112); `x`: by the transfer slot. -/
def pushValue (q : Seq) (h : Bool) (bound : Nat) (v : Scalar) (x : Bool) : Seq :=
  let now : Scalar := if bound ≤ 1 then v else {}
  let p := agePending h q.pending
  let p := if bound ≤ 1 then p else p ++ [{ dest := pushDest h, value := v, left := bound, transfer := x }]
  if h then { q with sq := now :: q.sq.take 15, pending := p } else { q with q := now :: q.q.take 15, pending := p }

/-- A named register written with a latency bound (02 R42). -/
def writeNamed (q : Seq) (r bound : Nat) (v : Scalar) : Seq :=
  if bound ≤ 1 then { q with g := q.g.set r v, pending := dropLanes (.named r) allLanes q.pending }
  else addPending q { dest := .named r, value := v, left := bound }

/-- A result of the transfer slot into a named register, marked as such in the table. -/
def writeNamedBy (q : Seq) (r bound : Nat) (v : Scalar) (x : Bool) : Seq :=
  if x && decide (1 < bound) then addPending q { dest := .named r, value := v, left := bound, transfer := true } else writeNamed q r bound v

/-- The destinations that a bundle has written with a bound of 1, after a result with code `d`. -/
def freshDests (h : Bool) (d : BitVec 6) (bound : Nat) (l : List Dest) : List Dest :=
  if d = 0 then (if bound ≤ 1 then [pushDest h] else []) ++ l.filterMap (ageDest h)
  else if bound ≤ 1 ∧ 16 ≤ d.toNat ∧ d.toNat ≤ 47 then l ++ [.named (d.toNat - 16)]
  else l

/-- A result with destination code `d` (R21): a push for 0, else a named register. -/
def setScalar (b : Bundle) (d : BitVec 6) (bound : Nat) (v : Scalar) : Bundle :=
  { b with fresh := freshDests b.start.sr.hstat d bound b.fresh, work :=
      if d = 0 then pushValue b.work b.start.sr.hstat bound v (b.slot == 3)
      else if 16 ≤ d.toNat ∧ d.toNat ≤ 47 then writeNamedBy b.work (d.toNat - 16) bound v (b.slot == 3)
      else b.work }

/-! ## Vector operands and masks -/

/-- The lanes of a stream register that wait for an earlier stream there (11 R225). -/
def heldLanes (z : Stream) : Mask := z.olds.foldl (fun m o => m ||| o.1) 0

/-- The clocks until every lane of a stream register is complete (11 R225, R226). -/
def streamWait (z : Stream) : Nat := z.olds.foldl (fun k o => Nat.max k o.2) z.left

/-- A stream's lanes as an instruction reads them at issue (11 R225, R226, R234). -/
def streamLanes (fr : Nat) (chained : Bool) (pos : Nat) (z : Stream) : VReg :=
  let ok : Bool := chained && z.chain == 0
  if !z.valid && z.cut == 0 then mapLanes (fun _ _ => 0) []
  else
    let m : Mask := if ok then 0 else if z.left != 0 then allLanes else heldLanes z
    freeLanes fr pos (m &&& ~~~z.cut) z.value

/-- Whether a command is a group load to register `k` (13 R276). -/
def loadsGroup (c : Command) (k : Nat) : Bool :=
  match c.op with
  | .gld _ _ _ => decide (fieldN (at' c.stage 1 0) 0 6 = k)
  | _ => false

/-- Whether a group load to register `k` is outstanding: until then the register reads as unspecified bits (13 R276), also where it turns
out to be refused or undefined, after which the old value reads again (log entry 137). -/
def gldPending (q : Seq) (k : Nat) : Bool :=
  q.net.queue.any (fun c => loadsGroup c k) || q.net.running.any (fun r => loadsGroup r.cmd k)

/-- The lanes of register `k` that read as unspecified bits: results in flight, and a group load whose post has not been acquired
(13 R276). -/
def vectorOpen (q : Seq) (k : Nat) : Mask :=
  if gldPending q k then allLanes
  else q.gldOpen.foldl (fun m g => if g.vd = k then m ||| g.lanes else m) (pendingLanes q (.vector k))

/-- Vector operand code `c` (R22); `chained`: the reader is of a class with a stream delay and writes a stream. -/
def vectorOperand (fr : Nat) (q : Seq) (chained : Bool) (pos : Nat) (c : BitVec 6) : VReg :=
  let k := c.toNat
  if k < 48 then freeLanes fr pos (vectorOpen q k) (at' q.v k [])
  else if k < 56 then streamLanes fr chained pos (at' q.z (k - 48) {})
  else if k = 57 then mapLanes (fun i _ => BitVec.ofNat 32 i) []
  else []

/-- The lanes of mask `r` that a VDEC has not yet landed, or that it has landed ahead of its deadline unobserved (11 R231). -/
def undecided (q : Seq) (r : Nat) : Mask :=
  q.z.foldl (fun m z => match z.vdec with
    | some d => if d.md.toNat = r then m ||| (d.scope &&& ~~~d.lost) else m
    | none => m) (q.maskOpen.foldl (fun m g => if g.md = r then m ||| g.lanes else m) 0)

/-- Mask register `r` as read at issue. -/
def maskRead (fr : Nat) (q : Seq) (pos r : Nat) : Mask :=
  let open_ := pendingLanes q (.mask r) ||| undecided q r
  (at' q.m r 0 &&& ~~~open_) ||| (if open_ == 0 then 0 else Config.freeBits 256 fr (pos + 1000000) &&& open_)

/-- A predicate field: 0 is all lanes (R22). -/
def predicate (fr : Nat) (q : Seq) (k : BitVec 3) : Mask := if k = 0 then allLanes else maskRead fr q 3 k.toNat

/-! ## State registers -/

def shadowWord : Option Shadow → Word
  | some h => h.target.setWidth 64 ||| (BitVec.ofNat 64 h.left <<< 12) ||| 0x8000
  | none => 0

def loopWord : Option LoopEntry → Word
  | some e => e.start.setWidth 64 ||| (e.last.setWidth 64 <<< 11) ||| (BitVec.ofNat 64 e.left <<< 22) ||| (1 <<< 63)
  | none => 0

/-- The value of state register `r` (05 R105) with every feature accepted; `n` is the sequencer. -/
def readSr (q : Seq) (n r : Nat) : Word :=
  let x := q.sr
  let sh := if x.hstat then q.savedShadow else q.shadow
  let lp := if x.hstat then q.savedLoops else q.loops
  match r with
  | 0x000 => x.tvec
  | 0x001 => x.trapcause
  | 0x002 => x.faultmask
  | 0x003 => x.resume
  | 0x004 => shadowWord sh
  | 0x005 => loopWord lp[0]?
  | 0x006 => loopWord lp[1]?
  | 0x007 => if x.hstat then 1 else 0
  | 0x008 => x.vmode.setWidth 64
  | 0x009 => x.fpstat.setWidth 64
  | 0x00A => x.segLast.setWidth 64 ||| (if q.segFetch.isEmpty then 0 else 0x40) ||| (if x.segBad then 0x80 else 0) |||
      (if x.segErr then 0x100 else 0)
  | 0x00B => x.flagsat.setWidth 64
  | 0x00C => x.cutnext
  | 0x00D => x.cutlabel.setWidth 64
  | 0x00E => x.cutmiss.setWidth 64
  | 0x00F => x.sched
  | 0x010 => x.tile.setWidth 64
  | 0x011 => BitVec.ofNat 64 n
  | 0x012 => x.winBase.setWidth 64 ||| (x.winSize.setWidth 64 <<< 20)
  | 0x013 => x.wdog.setWidth 64
  | _ => 0

/-- A state register as it reads: sr.seg, the register of the overlays, is zero while their feature bit is not accepted (00 R11). -/
def srWord (feat : BitVec 128) (q : Seq) (n r : Nat) : Word := if r = 0x00A && !anyBit feat 0 1 then 0 else readSr q n r

/-- State register `r` written by SWR: reserved bits ignored, and RM takes 1..5 only (05 R105, 00 R7). -/
def writeSr (x : StateRegs) (r : Nat) (w : Word) : StateRegs :=
  match r with
  | 0x000 => { x with tvec := w &&& 0x87FF }
  | 0x003 => { x with resume := w &&& 0xFFF }
  | 0x008 => if 1 ≤ fieldN w 0 3 ∧ fieldN w 0 3 ≤ 5 then { x with vmode := bits w 0 3 } else x
  | 0x009 => { x with fpstat := bits w 0 6 }
  | 0x00A => { x with segLast := bits w 0 6, segBad := anyBit w 7 1, segErr := anyBit w 8 1 }
  | 0x00B => { x with flagsat := bits w 0 32 }
  | _ => x

/-- A staging register, numbered as R23's staging codes. -/
def stageRead (q : Seq) (c : Nat) : Word :=
  if c < 8 then at' q.mp c 0 else if c < 16 then at' q.cp (c - 8) 0 else at' q.np (c - 16) 0

def stageWrite (q : Seq) (c : Nat) (w : Word) : Seq :=
  if c < 8 then { q with mp := q.mp.set c w }
  else if c < 16 then { q with cp := q.cp.set (c - 8) w }
  else if c < 24 then { q with np := q.np.set (c - 16) w }
  else q

end Sys2Proof.Machine
end

