-- ==== Sys2Proof/Machine/Flags.lean ====
section
/-! DEFINITION. Flag computations: the flag counters of a clock (03 R77), the sticky bits of sr.fpstat and their
retirement from streams (06 R135, 11 R228), the source rule (11 R227) and the comparison predicates (07 R156). -/

namespace Sys2Proof.Machine

/-! ## Flag counters -/

/-- An increment performed on flag `f` of sequencer `n` in this clock (03 R77). -/
def postFlag (s : State) (n f k : Nat) : State :=
  modSeq s n (fun q => { q with fInc := q.fInc.set f (at' q.fInc f 0 + k) })

/-- One flag's next value and whether it saturated (03 R77). -/
def flagNext (old : BitVec 16) (base : Option (Option (BitVec 16))) (inc : Nat) : BitVec 16 × Bool :=
  let b : Nat := match base with
    | none => old.toNat
    | some none => 0
    | some (some th) => old.toNat - th.toNat
  if 0xFFFF < b + inc then (0xFFFF, true) else (BitVec.ofNat 16 (b + inc), false)

def flagBase (q : Seq) (f : Nat) : Option (Option (BitVec 16)) :=
  match q.fBase with
  | some (g, x) => if g = f then some x else none
  | none => none

def flagsGo (q : Seq) : Nat → List (BitVec 16) → List Nat → List (BitVec 16) × BitVec 32
  | i, x :: r, k :: ks =>
    let y := flagNext x (flagBase q i) k
    let z := flagsGo q (i + 1) r ks
    (y.1 :: z.1, if y.2 then z.2 ||| (1 <<< i) else z.2)
  | _, r, [] => (r, 0)
  | _, [], _ => ([], 0)

/-- The flags of a sequencer at the end of a clock (03 R77). -/
def tickFlags (q : Seq) : Seq :=
  if q.fBase.isNone && q.fInc.all (· == 0) then q
  else
    let r := flagsGo q 0 q.f q.fInc
    { q with f := r.1, fInc := List.replicate 32 0, fBase := none,
             sr := { q.sr with flagsat := q.sr.flagsat ||| r.2 } }

/-! ## sr.fpstat and streams -/

/-- The flags of the lanes of a mask together. -/
def joinFlags (m : Mask) (l : List (BitVec 6)) : BitVec 6 :=
  let rec go : Nat → List (BitVec 6) → BitVec 6
    | _, [] => 0
    | i, x :: r => (if x != 0 && m.getLsbD i then x else 0) ||| go (i + 1) r
  go 0 l

/-- The sticky bits of the lanes that a stream writes and that were uncut at its flag retirement, or are now (11 R228). -/
def streamFlags (z : Stream) : BitVec 6 := joinFlags (z.pred &&& ~~~(if z.retired then z.retCut else z.cut)) z.laneFlags ||| z.due

/-- Flag retirement of stream register `k` (11 R228): the bits land now if its lanes are complete, else when they complete. -/
def retireStream (q : Seq) (k : Nat) : Seq :=
  let z := at' q.z k {}
  if z.retired || !z.valid then q
  else
    let z := { z with retired := true, retCut := z.cut }
    let q := { q with z := q.z.set k z }
    if z.left = 0 then orFpstat q (streamFlags z) else q

def retireAll (q : Seq) : Seq := (List.range 8).foldl retireStream q

/-- The streams of a sequencer with their registers: those replaced while open, then z0..z7. -/
def streamsOf (q : Seq) : List (Nat × Stream) := q.leaving ++ (q.z.zipIdx).map (fun x => (x.2, x.1))

/-- The sequencer with the streams of such a list. -/
def withStreams (q : Seq) (l : List (Nat × Stream)) : Seq :=
  { q with leaving := l.take q.leaving.length, z := (l.drop q.leaving.length).map (·.2) }

/-- The sticky bits that a producer's opcode lets its lanes set (06 R131, R133, R134, R136; 07 R150 to R161): those of a sum (one below the
least normal magnitude is exact), a root, a hyperbolic or logistic function, VNARW, a comparison of VMIN or VMAX, a conversion of
VPACK by its preset; none for VABS, VNEG, VUNPK and the integer forms. -/
def settable (z : Stream) : BitVec 6 :=
  match z.op.toNat with
  | 0x01 => 0x0B
  | 0x02 => 0x0B
  | 0x03 => 0x0F
  | 0x04 => 0x0F
  | 0x05 => 0x0F
  | 0x06 => 0x01
  | 0x07 => 0x01
  | 0x0A => 0x0F
  | 0x0B => 0x09
  | 0x0C => 0x09
  | 0x0D => 0x0F
  | 0x0E => 0x0F
  | 0x0F => 0x09
  | 0x10 => 0x0D
  | 0x11 => 0x0D
  | 0x26 => 0x09
  | 0x2D => 0x0F
  | 0x2E => if z.ty.toNat ≤ 1 then 0x2F else 0x01
  | _ => 0

/-- The lanes of `m` of a stream turned unspecified (11 R227): values, decisions, and flags; those of a stream that itself broke the
rule contribute nothing. -/
def spoilStream (fr pos : Nat) (m : Mask) (z : Stream) : Stream :=
  let flag (i : Nat) : BitVec 6 :=
    if !m.getLsbD i then at' z.laneFlags i 0
    else if z.broken then 0 else Config.freeBits 6 fr (256 * (200 + pos) + i) &&& settable z
  { z with value := freeLanes fr (40 + pos) m z.value, spoilt := z.spoilt ||| m, laneFlags := (List.range 256).map flag,
           vdec := z.vdec.map (fun d => { d with bits := (d.bits &&& ~~~m) ||| (Config.freeBits 256 fr (900 + pos) &&& m) }) }

/-- The lanes of a stream that read a lane of `m` of its source: VPACK and VUNPK move codes of `w` bits in the first 32 lanes, VNARW
from 64-bit elements reads two lanes, every other form its own lane (07 R154, R155, R161). -/
def reachedLanes (z : Stream) (m : Mask) : Mask :=
  let w := match fieldN z.fn 0 4 with | 0 => 4 | 1 => 6 | 2 => 6 | 5 => 4 | 6 => 4 | _ => 8
  let bitMode := !anyBit z.fn 4 1
  let lanes (k : Nat) : Mask := (1 <<< (k * w / 32)) ||| (1 <<< ((k * w + w - 1) / 32))
  if z.op == 0x2E && bitMode then
    (List.range (1024 / w)).foldl (fun r k => if m.getLsbD k then r ||| lanes k else r) 0
  else if z.op == 0x2F && bitMode then
    (List.range (1024 / w)).foldl (fun r k => if (m &&& lanes k) != 0 then r ||| (1 <<< k) else r) 0
  else if z.op == 0x26 && (z.ty.toNat == 6 || z.ty.toNat == 7) then
    (List.range 128).foldl (fun r k => if m.getLsbD (2 * k) || m.getLsbD (2 * k + 1) then r ||| (1 <<< k) else r) 0
  else m

/-- The lanes of stream `y` of register `j` that are computed from lanes `m` of stream `z` of register `k` (11 R225, R227): through a source
that was that stream at its issue, but for lanes of it that were cut by then (R234); and where it replaced that stream, its disabled
lanes, and those of its own addend, but for lanes that hold the fill. -/
def tainted (k : Nat) (z : Stream) (m : Mask) (j : Nat) (y : Stream) : Mask :=
  let through := ((y.srcs.zip y.reads).zip y.preCut).foldl (fun r x =>
    if x.1.1 == BitVec.ofNat 6 (48 + k) && x.1.2 == z.born then r ||| (reachedLanes y (m &&& ~~~x.2) &&& y.pred) else r) 0
  let kept := if j == k && y.after == z.born then (m &&& ~~~z.cut) &&& (if y.own then allLanes else ~~~y.pred) else 0
  through ||| kept

/-- Lanes `m` of stream `i` of the list computed from unspecified bits (11 R227): those not cut in it turn unspecified, and so do the
lanes of other streams that are computed from any of them, cut in it or not. -/
def spoilFrom (fr : Nat) : Nat → List (Nat × Stream) → Nat → Mask → List (Nat × Stream)
  | 0, l, _, _ => l
  | fuel + 1, l, i, m =>
    match l[i]? with
    | none => l
    | some (k, z) =>
      let l := l.set i (k, spoilStream fr i (m &&& ~~~z.cut) z)
      (List.range l.length).foldl (fun l j =>
        let x := at' l j (0, {})
        let t := if j == i then 0 else tainted k z m x.1 x.2
        if t == 0 then l else spoilFrom fr fuel l j t) l

/-- Whether a write of operand code `c` breaks the source rule for a stream of a register (11 R227): it is open, names the register and
has a lane uncut. A stream whose own register is written is exempt: it read there the stream that it replaced (R225; log entry 127). -/
def breaks (c : BitVec 6) (x : Nat × Stream) : Bool :=
  x.2.left != 0 && x.2.srcs.contains c && x.2.cut != allLanes && c.toNat != 48 + x.1

/-- The source rule (11 R227): operand code `c` is written while open streams name it as a source. -/
def breakSource (fr : Nat) (q : Seq) (c : BitVec 6) : Seq :=
  let l := streamsOf q
  match (List.range l.length).filter (fun j => breaks c (at' l j (0, {}))) with
  | [] => q
  | js =>
    let l := js.foldl (fun l j => let x := at' l j (0, {}); l.set j (x.1, { x.2 with broken := true })) l
    withStreams q (js.foldl (fun l j => spoilFrom fr (l.length + 1) l j (~~~(at' l j (0, {})).2.cut)) l)

/-- The in-scope bits of an attached VDEC that have not landed (11 R231, R232). -/
def notLanded (z : Stream) (d : Vdec) : Mask := d.scope &&& ~~~z.decided &&& ~~~d.lost

/-- Lanes `m` of mask `r` take the bits of a VDEC: from then on an earlier-issued write of them, another VDEC's among these, never
lands (03 R88). -/
def prevail (q : Seq) (r : Nat) (m : Mask) (d : Vdec) (b : Mask) : Seq :=
  { settleMask q r m with
    z := q.z.map (fun y => { y with vdec := y.vdec.map (fun o =>
      if o.md.toNat = r ∧ o.issued.toNat < d.issued.toNat then { o with lost := o.lost ||| m } else o) }),
    m := q.m.set r ((at' q.m r 0 &&& ~~~m) ||| (b &&& m)),
    pending := dropOlder (.mask r) m d.later.length q.pending }

/-- A VDEC that will not decide: its bits not yet landed are unspecified (11 R232, 03 R84). -/
def dropVdec (fr : Nat) (q : Seq) (k : Nat) : Seq :=
  let z := at' q.z k {}
  match z.vdec with
  | none => q
  | some d =>
    prevail { q with z := q.z.set k { z with vdec := none } } d.md.toNat (notLanded z d) d (Config.freeBits 256 fr (950 + k))

/-- An abandoned VDEC (11 R232): its flag is posted as well. -/
def abandonVdec (fr : Nat) (q : Seq) (k : Nat) : Seq :=
  let p := dropVdec fr q k
  match (at' q.z k {}).vdec with
  | none => p
  | some d => if d.pe then { p with fInc := p.fInc.set d.flag.toNat (at' p.fInc d.flag.toNat 0 + 1) } else p

/-! ## Comparison -/

/-- cc of R156 on an ordering of two operands neither of which is a NaN. -/
def ccHolds (cc : Nat) (o : Ordering) : Bool :=
  match cc with
  | 0 => o == .eq
  | 1 => o != .eq
  | 2 => o == .lt
  | 3 => o != .gt
  | 4 => o == .gt
  | 5 => o != .lt
  | _ => false

/-- VCMP's predicate on two decoded elements (07 R156): a NaN makes only NE and UN true. -/
def compareNum (cc : Nat) (x y : Num) : Bool :=
  if x.isNan || y.isNan then cc == 1 || cc == 6 else ccHolds cc (cmpNum x y)

end Sys2Proof.Machine
end

