-- ==== Sys2Proof/Machine/Ops.lean ====
section
/-! DEFINITION. The named operations of a sequencer: opening a bundle, running one slot of it, what a bundle that
faults, is fatal, stalls or commits does (01 R14 to R18, 02 R44, R45, R66 to R69), taking a bundle fault and
returning from one (05 R114, R117), stopping a context (05 R118), quiet bundles (03 R85) and the end of a task
(03 R84). -/

namespace Sys2Proof.Machine

/-! ## What a slot asks for -/

/-- A bundle fault of the slot being executed: cause and code (R15). -/
def addFault (b : Bundle) (cause : Nat) (code : BitVec 16) : Bundle :=
  { b with faults := b.faults ++ [(b.slot, cause, code)] }

/-- A fatal condition of the slot being executed: cause and detail (05 R118). -/
def addFatal (b : Bundle) (cause : Nat) (detail : Word) : Bundle :=
  { b with fatals := b.fatals ++ [(b.slot, cause, detail)] }

/-- A stall of the slot being executed, with the watchdog record's detail (R17, 05 R119). -/
def addStall (b : Bundle) (detail : Word) : Bundle := { b with stalls := b.stalls ++ [(b.slot, detail)] }

/-- Consumed poison (02 R44). -/
def addPoison (b : Bundle) : Bundle := addFatal b 0x03 0

/-- A store held to the end of the bundle. -/
def addStore (b : Bundle) (place : Nat) (bytes : List Byte) : Bundle :=
  { b with stores := b.stores ++ [⟨place, bytes⟩] }

/-- An uncorrectable error met in data read (22 R382, R383): unit 2 P, 3 E of sequencer `n`, by its package number
(log entry 16). -/
def damage (n unit count : Nat) : PeatEvent := { die := n / 128, unit := unit, loc := n, kind := 0x02, syn := 3, count := count }

def addErr (b : Bundle) (e : PeatEvent) : Bundle := { b with errs := b.errs ++ [e] }

def mapWork (b : Bundle) (f : Seq → Seq) : Bundle := { b with work := f b.work }

/-- The rounding mode of an rm field: 0 is sr.vmode at issue (R23, 07 R147). -/
def resolveRm (b : Bundle) (r : BitVec 3) : Mode := if r = 0 then b.start.sr.vmode else r

/-- A taken transfer with delay slots; in a shadow it is the branch-in-shadow fault (02 R66). -/
def takeTransfer (b : Bundle) (t : BitVec 11) : Bundle :=
  if b.start.shadow.isSome then addFault b 4 0 else { b with ctl := .transfer t }

/-- The bundle `off15` after the one being issued (R25, 02 R62). -/
def relTarget (b : Bundle) (o : BitVec 15) : BitVec 11 := b.start.pc + (o.signExtend 11)

/-! ## Control flow of a commit -/

/-- The loop entries at the commit of bundle `x`, innermost first: a due back-edge's start, and the entries left
(02 R68). -/
def loopEnd (x : BitVec 11) : List LoopEntry → Option (BitVec 11) × List LoopEntry
  | [] => (none, [])
  | e :: r =>
    if e.last ≠ x then (none, e :: r)
    else if 1 < e.left then (some e.start, { e with left := e.left - 1 } :: r)
    else loopEnd x r

/-- A LOOP with a count of at least 1 pushes its entry; of two entries the outer goes (02 R68). -/
def pushLoop (e : LoopEntry) (l : List LoopEntry) : List LoopEntry := e :: l.take 1

/-- Whether a back-edge is due at the commit of bundle `x` (02 R69). -/
def backEdgeDue (x : BitVec 11) (l : List LoopEntry) : Bool := (loopEnd x l).1.isSome

/-- The commit of bundle `x` with no transfer in it: the shadow counts down and loops are evaluated (02 R62, R68).
Where both end here (only a bundle passed over by R117 item 5), the shadow's target comes first (log entry 14). -/
def flowOn (q : Seq) (x : BitVec 11) : Seq :=
  let r := loopEnd x q.loops
  let nx := r.1.getD (x + 1)
  match q.shadow with
  | some h =>
    if h.left ≤ 1 then { q with pc := h.target, shadow := none, loops := r.2 }
    else { q with pc := nx, shadow := some { h with left := h.left - 1 }, loops := r.2 }
  | none => { q with pc := nx, loops := r.2 }

/-- Return from a handler (05 R117): the task's queue, shadow and loops are reinstated, and control passes to the
resume point; with SKIP the bundle there counts as committed. -/
def returnFromHandler (q : Seq) : Seq :=
  let q := { q with
    sq := List.replicate 16 {}, shadow := q.savedShadow, loops := q.savedLoops, savedShadow := none, savedLoops := [],
    pending := q.pending.filter (fun e => match e.dest with | .shadow _ => false | _ => true),
    sr := { q.sr with hstat := false } }
  let pc := bits q.sr.resume 0 11
  if anyBit q.sr.resume 11 1 then flowOn q pc else { q with pc := pc }

/-- The control slot's effect at commit. A LOOP whose first bundle is its last, off15 being a positive multiple of 2,048, has its own commit
evaluate the entry that it pushes (02 R68; log entry 130). -/
def flow (q : Seq) (x : BitVec 11) : Control → Seq
  | .none => flowOn q x
  | .transfer t => { q with pc := x + 1, shadow := some ⟨t, 3⟩, loops := (loopEnd x q.loops).2 }
  | .skipLoop t => { q with pc := t, loops := (loopEnd x q.loops).2 }
  | .enterLoop e => flowOn { q with loops := pushLoop e q.loops } x
  | .tret => returnFromHandler q

/-- Whether a control effect is a taken transfer in the sense of R66. -/
def Control.isTransfer : Control → Bool
  | .none => false
  | .enterLoop _ => false
  | _ => true

/-! ## Taking a bundle fault -/

/-- The cause recorded: the lowest slot's lowest cause (R15). -/
def recordedFault : List (Nat × Nat × BitVec 16) → Nat × Nat × BitVec 16
  | [] => (0, 0, 0)
  | [x] => x
  | x :: r =>
    let y := recordedFault r
    if y.1 < x.1 ∨ (y.1 = x.1 ∧ y.2.1 < x.2.1) then y else x

/-- sr.trapcause's word (R15). -/
def trapWord (f : Nat × Nat × BitVec 16) : Word :=
  BitVec.ofNat 64 f.2.1 ||| (BitVec.ofNat 64 f.1 <<< 8) ||| (f.2.2.setWidth 64 <<< 16)

/-- sr.faultmask's word (R15). -/
def faultMask (l : List (Nat × Nat × BitVec 16)) : Word := l.foldl (fun m f => m ||| (1 <<< f.1)) 0

/-- sr.faultmask and sr.trapcause as a faulting bundle writes them (R15). -/
def recordFault (q : Seq) (l : List (Nat × Nat × BitVec 16)) : Seq :=
  { q with sr := { q.sr with faultmask := faultMask l, trapcause := trapWord (recordedFault l) } }

/-- Taking a bundle fault (05 R114): cause and mask are written, the resume point is the faulting bundle, the shadow
and loops are set aside, the shadow queue is emptied, and the handler's bundle issues two clocks later. -/
def takeFault (q : Seq) (l : List (Nat × Nat × BitVec 16)) : Seq :=
  { recordFault q l with
    pc := bits q.sr.tvec 0 11, gap := 1, sq := List.replicate 16 {},
    savedShadow := q.shadow, savedLoops := q.loops, shadow := none, loops := [],
    sr := { (recordFault q l).sr with resume := q.pc.setWidth 64, hstat := true } }

/-! ## Fatal context errors -/

/-- The 32-byte record of R118. -/
def fatalRecord (q : Seq) (n cause slot : Nat) (bundle : BitVec 11) (detail : Word) : BitVec 256 :=
  BitVec.ofNat 256 (cause + 256 * slot + 2 ^ 16 * bundle.toNat + 2 ^ 32 * n + 2 ^ 41 * q.ctx.getD 0) |||
    (detail.setWidth 256 <<< 64) ||| (q.sr.sched.setWidth 256 <<< 128) ||| (q.sr.cutnext.setWidth 256 <<< 192)

/-- A debug step of a context ended by a fault (4) or a fatal error (5) (16 R315, R316). -/
def endDebugStep (x : Ctx) (status : Nat) : Ctx :=
  match x.stepLeft with
  | some _ => { x with stepLeft := some 0, stepStatus := Nat.max x.stepStatus status }
  | none => x

/-- Context `c` is stopped by a fatal error that is charged to sequencer `n`, which may hold no task of it any more: one record, and
the context is marked; its sequencers stop at the clock's end (05 R118). -/
def stopCharged (s : State) (c n cause slot : Nat) (bundle : BitVec 11) (detail : Word) : State :=
  let s := { s with fatals := s.fatals ++ [fatalRecord { getSeq s n with ctx := some c } n cause slot bundle detail] }
  modCtx s c (fun x => endDebugStep { x with life := Nat.max x.life 3 } 5)

/-- A fatal context error that an engine of sequencer `n` finds (05 R118): the sequencer still issues in this clock. -/
def chargeFatal (s : State) (n cause slot : Nat) (bundle : BitVec 11) (detail : Word) : State :=
  match (getSeq s n).ctx with
  | some c => stopCharged s c n cause slot bundle detail
  | none => { s with fatals := s.fatals ++ [fatalRecord (getSeq s n) n cause slot bundle detail] }

/-- A fatal context error that sequencer `n` itself finds, at a fetch, a bundle or the watchdog: it stops now, the others of the context
at the clock's end. -/
def stopContext (s : State) (n cause slot : Nat) (bundle : BitVec 11) (detail : Word) : State :=
  let s := chargeFatal s n cause slot bundle detail
  setSeq s n { getSeq s n with status := .stopped }

/-- A flit that passes a UCIe link ends its run of failed replays (22 R392: 8 times in a row). -/
def passLink (s : State) (l : Nat) : State :=
  let x := tget {} s.links l
  if x.run = 0 then s else { s with links := tset s.links l { x with run := 0 } }

/-! ## The bundle -/

/-- Sequencer `n` begins to issue the bundle at its program counter. -/
def openBundle (s : State) (n : Nat) : Bundle := { seq := n, start := getSeq s n, work := getSeq s n }

/-- QUIET's conditions (03 R85) on the state of its sequencer at commit. -/
def quietNow (q : Seq) : Bool :=
  q.mx.queue.isEmpty && q.mx.running.isEmpty && q.mx.routine.isNone && q.mx.fills.isEmpty &&
  q.net.queue.all (fun c => match c.op with | .lsend _ _ => false | .gld _ _ _ => false | _ => true) &&
  q.net.running.all (fun r => match r.cmd.op with | .lsend _ _ => false | .gld _ _ _ => false | _ => true)

/-- A QUIET at commit (03 R85, 05 R116), and the stop at a cut (16 R305). -/
def commitQuiet (q : Seq) (label : BitVec 16) (inHandler : Bool) : Seq :=
  if quietNow q && !inHandler then
    let c := q.sr.cutnext
    let q := { q with sr := { q.sr with cutnext := c + 1, cutlabel := label } }
    match q.hold with
    | some h => if h.toNat ≤ c.toNat then { q with status := .held } else q
    | none => q
  else
    { q with sr := { q.sr with cutmiss := if q.sr.cutmiss == BitVec.allOnes 32 then q.sr.cutmiss else q.sr.cutmiss + 1 } }

/-- Where END discards a result in flight, those of its own bundle with a bound of 1 among them (`fresh`), the destination holds
unspecified bits, poison clear (03 R84). -/
def discard (fr : Nat) (fresh : List Dest) (q : Seq) : Seq :=
  let own : List Pending := fresh.zipIdx.map (fun x => { dest := x.1, left := 64 + x.2 })
  let q := (q.pending ++ own).foldl (fun q e =>
    land q { e with value := { bits := Config.freeBits 64 fr (2000 + e.left) }, vec := freeLanes fr 9 e.lanes [],
                    mvec := Config.freeBits 256 fr (2100 + e.left), flags := 0 }) q
  { q with pending := [] }

/-- Whether lane values of a stream register are still to come. -/
def streamPending (z : Stream) : Bool := z.left != 0 || !z.olds.isEmpty

/-- The lanes of a stream register whose values are still to come (11 R225, R226). -/
def openLanes (z : Stream) : Mask :=
  (if z.left != 0 then z.pred else 0) ||| heldLanes z

/-- An open stream that ends with its task: the lanes it would have filled hold unspecified bits (03 R84); a complete one stands. -/
def endStream (fr k : Nat) (z : Stream) : Stream :=
  { z with value := freeLanes fr (20 + k) (openLanes z &&& ~~~z.cut) z.value, left := 0, olds := [], chain := 0, done := true }

/-- END at commit (03 R84): streams' flags retire, results in flight, open streams and attached VDECs end, control state is
dropped, that which a handler's entry set aside with it. -/
def commitEnd (fr : Nat) (fresh : List Dest) (q : Seq) : Seq :=
  let q := discard fr fresh (retireAll q)
  let q := (List.range 8).foldl (dropVdec fr) q
  { q with status := .ending, loops := [], shadow := none, savedLoops := [], savedShadow := none, leaving := [], z := (q.z.zipIdx).map (fun x => endStream fr x.2 x.1) }

/-- A bundle that commits (R16 to R18): stores perform in slot order, then control, QUIET, DRAIN and END. -/
def commitBundle (s : State) (b : Bundle) : State :=
  let s := performStores b.stores { s with events := s.events ++ b.errs }
  let q := flow { b.work with stallCount := 0, stallDetail := 0 } b.start.pc b.ctl
  let q := match b.quiet with
    | some l => commitQuiet q l b.start.sr.hstat
    | none => q
  let q := { q with drain := b.drains }
  let q := if b.ends then commitEnd s.free b.fresh q else q
  let s := setSeq s b.seq q
  match q.ctx with
  | some c => modCtx s c (fun x => if x.stepSeq = some b.seq then { x with stepIssued := true } else x)
  | none => s

/-- A bundle that stalls (R17): nothing takes effect, and the watchdog counts (05 R119). -/
def stallBundle (s : State) (b : Bundle) : State :=
  let c := b.stalls.headD (0, 0)
  modSeq s b.seq (fun q => { q with stallCount := q.stallCount + 1, stallSlot := c.1, stallDetail := c.2 })

/-- A bundle that faults (R15, R16, 05 R114, R115, 03 R87): BRK under break-enable halts for debug; inside a handler
or without one the context stops; otherwise the handler is entered. No effect of the bundle stands, an acquire of its slot 0
among them. -/
def faultBundle (s : State) (b : Bundle) (l : List (Nat × Nat × BitVec 16)) : State :=
  let q := getSeq s b.seq
  let brk : Bool := l.any (fun f => f.2.1 == 7)
  let en : Bool := match q.ctx.bind (getCtx s) with
    | some x => x.brken
    | none => false
  if brk && en then
    let s := setSeq s b.seq (recordFault q l)
    match q.ctx with
    | some c => modCtx s c (fun x =>
        endDebugStep { x with brkSeqs := x.brkSeqs ++ [b.seq] } 4)
    | none => s
  else
    let f := recordedFault l
    let s := setSeq s b.seq (recordFault q l)
    if q.sr.hstat then stopContext s b.seq 0x08 f.1 q.pc (trapWord f)
    else if !anyBit q.sr.tvec 15 1 then stopContext s b.seq 0x09 f.1 q.pc (trapWord f)
    else
      let s := setSeq s b.seq (takeFault q l)
      match q.ctx with
      | some c => modCtx s c (fun x =>
          if x.stepSeq = none ∨ x.stepSeq = some b.seq then endDebugStep x 4 else x)
      | none => s

/-- The back-edge's own branch-in-shadow fault, charged to slot 1 (02 R66, R69). -/
def backEdgeFault (b : Bundle) : List (Nat × Nat × BitVec 16) :=
  let due : Bool := match b.ctl with
    | .enterLoop _ => false
    | _ => backEdgeDue b.start.pc b.start.loops
  if due && (b.start.shadow.isSome || b.ctl.isTransfer) then [(1, 4, 0)] else []

/-- The end of a bundle: faults before stalls (R17), and fatal conditions only of a bundle that would issue (02 R45; log entry 75);
else it commits. -/
def closeBundle (s : State) (b : Bundle) : State :=
  let s := { s with bundle := none }
  let l := b.faults ++ backEdgeFault b
  if !l.isEmpty then faultBundle s b l
  else if !b.stalls.isEmpty then stallBundle s b
  else match b.fatals with
    | f :: _ => stopContext s b.seq f.2.1 f.1 b.start.pc f.2.2
    | [] => commitBundle s b

/-- One slot operation: its decode checks, then its effect on the bundle being issued; with no bundle open, the
operation is a bundle of its own of sequencer `cur`, in its home slot. -/
def slotEffect (i : Instr) (op : State → Bundle → Bundle) (s : State) (b : Bundle) : Bundle :=
  match issueCauses s.faccept b.start.sr.hstat i with
  | [] => op s b
  | c => c.foldl (fun b x => addFault b x 0) b

def runSlot (home : Nat) (i : Instr) (op : State → Bundle → Bundle) (s : State) : Out :=
  match s.bundle with
  | some b => .next { s with bundle := some (slotEffect i op s b), free := s.free + 1 }
  | none =>
    let s' := { s with free := s.free + 1 }
    .next (closeBundle s' (slotEffect i op s { openBundle s s.cur with slot := home }))

end Sys2Proof.Machine
end

