-- ==== Sys2Proof/Machine/Transfer.lean ====
section
/-! DEFINITION. The transfer slot (03 R88 to R93): latency 4, landing exactly there toward the vector side. -/

namespace Sys2Proof.Machine

/-- The 1 bit of one lane. -/
def laneBit (i : Nat) : Mask := 1#256 <<< i

/-- A poisoned source toward the vector side is consumed (03 R89); else the transfer enters the table. -/
def toVector (u : Bundle) (x : Scalar) (e : Pending) : Bundle :=
  if x.poison then addPoison u else mapWork u (fun q => addPending q e)

/-- XTOV (03 R90): broadcast, one lane, or a pair. -/
def execXtov (v s : BitVec 6) (l : BitVec 8) (m : BitVec 2) (st : State) : Out :=
  runSlot 3 (.xtov v s l m) (fun t u =>
    let x := opd t u 0 s
    let lo : Lane := bits x.bits 0 32
    let hi : Lane := bits x.bits 32 32
    let n := l.toNat
    let e : Pending := match m.toNat with
      | 0 => { dest := .vector v.toNat, lanes := allLanes, vec := List.replicate 256 lo, left := 4, exact := true }
      | 1 => { dest := .vector v.toNat, lanes := laneBit n, vec := List.replicate 256 lo, left := 4, exact := true }
      | _ => { dest := .vector v.toNat, lanes := laneBit n ||| laneBit (n + 1),
               vec := mapLanes (fun i _ => if i = n then lo else hi) [], left := 4, exact := true }
    toVector u x e) st

/-- XFROMV (03 R90): lanes read at issue; the result never carries poison. -/
def execXfromv (v d : BitVec 6) (l : BitVec 8) (m : BitVec 2) (st : State) : Out :=
  runSlot 3 (.xfromv v d l m) (fun t u =>
    let r := vectorOperand t.free u.start false 0 v
    let lo : Lane := at' r l.toNat 0
    let hi : Lane := at' r (l.toNat + 1) 0
    let w : Word := match m.toNat with
      | 0 => lo.signExtend 64
      | 1 => lo.setWidth 64
      | _ => lo.setWidth 64 ||| (hi.setWidth 64 <<< 32)
    setScalar u d 4 { bits := w }) st

/-- XAG (03 R91): one parameter of a generator; its landing resets the walk. -/
def execXag (g : BitVec 3) (p : BitVec 4) (s : BitVec 6) (st : State) : Out :=
  runSlot 3 (.xag g p s) (fun t u =>
    let x := opd t u 0 s
    toVector u x { dest := .param g.toNat p.toNat, value := { bits := x.bits }, left := 4, exact := true }) st

/-- The lanes of quarter `q` of a mask. -/
def quarterMask (q : BitVec 2) : Mask := (BitVec.allOnes 64).setWidth 256 <<< (64 * q.toNat)

/-- XMASK (03 R92): a quarter of a mask written or read. -/
def execXmask (m : BitVec 3) (x : BitVec 1) (q : BitVec 2) (s : BitVec 6) (st : State) : Out :=
  runSlot 3 (.xmask m x q s) (fun t u =>
    if x = 0 then
      let v := opd t u 0 s
      let w := toVector u v { dest := .mask m.toNat, lanes := quarterMask q,
                              mvec := v.bits.setWidth 256 <<< (64 * q.toNat), left := 4, exact := true }
      if v.poison then w else mapWork w (fun k => noteMask k m.toNat 4 (quarterMask q))
    else
      let w := maskRead t.free u.start 0 m.toNat
      setScalar u s 4 { bits := bits w (64 * q.toNat) 64 }) st

/-- The digits of a lane's key string (11 R224): w/2 + 1 for a stream type of width w. -/
def keyDigits (st : BitVec 4) : Nat :=
  match st.toNat with
  | 1 => 9 | 2 => 5 | 3 => 5 | 4 => 9 | 5 => 9 | _ => 17

/-- How many digits of a lane are committed (11 R240: bits [55:51] of its word). -/
def digitCount (p : Word) : Nat := fieldN p 51 5

/-- The committed digit count of the least advanced lane of a mask. -/
def leastDigits (z : Stream) (m : Mask) : Nat :=
  (List.range 256).foldl (fun c i => if m.getLsbD i then Nat.min c (digitCount (at' z.digits i 0)) else c) 255

/-- The status word of a stream (03 R93); an open one is frozen while a handler runs (11 R239), its lanes cut or not. -/
def streamStatus (z : Stream) (frozen : Bool) : Word :=
  if !z.valid then 0
  else
    let done : Bool := (openLanes z &&& ~~~z.cut) == 0
    let digits : Nat := if done then 255 else leastDigits z (~~~z.cut)
    1 ||| (if done then 2 else 0) ||| (if frozen && streamPending z then 4 else 0) ||| (if z.cut != 0 then 8 else 0) |||
      (BitVec.ofNat 64 digits <<< 8) ||| (z.op.setWidth 64 <<< 16)

/-- XSTS (03 R93): the stream's state at issue. -/
def execXsts (z e : BitVec 3) (d : BitVec 6) (st : State) : Out :=
  runSlot 3 (.xsts z e d) (fun _ u =>
    let r := at' u.start.z z.toNat {}
    let w : Word :=
      if e = 0 then streamStatus r u.start.sr.hstat else bits r.decided (64 * (e.toNat - 1)) 64
    setScalar u d 4 { bits := w }) st

end Sys2Proof.Machine
end

