-- ==== Sys2Proof/Machine/Special.lean ====
section
/-! DEFINITION. The special functions of 06 R136, correctly rounded. Division and roots are computed exactly with a
sticky bit. The transcendental functions are enclosed between two integers at a growing precision until both ends
round alike; their values are irrational wherever they are computed so, so that the enclosure is strict. -/

namespace Sys2Proof.Machine

/-! ## Algebraic functions -/

/-- A quotient of positive integers scaled by 2^e, with a sticky lowest bit. -/
def quotNum (neg : Bool) (a b : Nat) (e : Int) : Num :=
  let s := 96 + Nat.log2 b
  let q := a * 2 ^ s / b
  let r := a * 2 ^ s % b
  .fin neg (2 * q + (if r = 0 then 0 else 1)) (e - s - 1)

/-- Integer square root, one bit per step from bit `k` down. -/
def isqrtGo : Nat → Nat → Nat → Nat
  | 0, _, r => r
  | k + 1, n, r =>
    let t := r + 2 ^ k
    isqrtGo k n (if t * t ≤ n then t else r)

def isqrt (n : Nat) : Nat := isqrtGo (Nat.log2 n / 2 + 1) n 0

/-- √(m × 2^e) with a sticky lowest bit. -/
def sqrtNum (m : Nat) (e : Int) : Num :=
  let s : Nat := 200 + (e % 2).toNat
  let n := m * 2 ^ s
  let r := isqrt n
  .fin false (2 * r + (if r * r = n then 0 else 1)) ((e - s) / 2 - 1)

/-- 1/√(m × 2^e) with a sticky lowest bit. -/
def rsqrtNum (m : Nat) (e : Int) : Num :=
  let s : Nat := 200 + 2 * Nat.log2 m + (e % 2).toNat
  let n := 2 ^ s / m
  let r := isqrt n
  .fin false (2 * r + (if r * r = n && 2 ^ s % m = 0 then 0 else 1)) ((-e - s) / 2 - 1)

/-! ## Enclosures -/

/-- ln 2 lies strictly between this and the next integer, over 2^900. -/
def ln2N : Nat := 0xb17217f7d1cf79abc9e3b39803f2f6af40f343267298b62d8a0d175b8baafa2be7b876206debac98559552fb4afa1b10ed2eae35c138214427573b291169b8253e96ca16224ae8c51acbda11317c387eb9ea9bc3b136603b256fa0ec7657f74b72ce87b19d6548caf5dfa6bd383032486

/-- Σ y^k / k! in fixed point of precision `p`, rounded down term by term. -/
def expGo (p y : Nat) : Nat → Nat → Nat → Nat → Nat
  | 0, _, _, acc => acc
  | f + 1, k, t, acc => if t = 0 then acc else expGo p y f (k + 1) (t * y / (k * 2 ^ p)) (acc + t)

/-- e^y for 0 ≤ y < 1 given as y / 2^p (below the true argument by at most 4 units): an enclosure over 2^p. -/
def expEnc (p y : Nat) : Nat × Nat :=
  let a := expGo p y 400 1 (2 ^ p) 0
  (a, a + 2048)

/-- Σ u^(2k+1) / (2k+1) in fixed point, rounded down; `u2` is u². -/
def atanhGo (p u2 : Nat) : Nat → Nat → Nat → Nat → Nat
  | 0, _, _, acc => acc
  | f + 1, k, t, acc => if t = 0 then acc else atanhGo p u2 f (k + 2) (t * u2 / 2 ^ p) (acc + t / k)

/-- ln z for z = m / 2^k in [1, 2): an enclosure over 2^p. -/
def lnEnc (p m k : Nat) : Nat × Nat :=
  let u := (m - 2 ^ k) * 2 ^ p / (m + 2 ^ k)
  let a := 2 * atanhGo p (u * u / 2 ^ p) 400 1 u 0
  (a, a + 4096)

/-- An enclosed magnitude, its sign and its exponent: the value lies strictly between lo and hi times 2^e. -/
structure Enc where
  neg : Bool
  lo : Nat
  hi : Nat
  e : Int

/-- 2^x for x = n + a / 2^p with 0 < a < 2^p. -/
def exp2Enc (p : Nat) (n : Int) (a : Nat) : Enc :=
  let y := a * ln2N / 2 ^ 900
  let r := expEnc p y
  ⟨false, r.1, r.2, n - p⟩

/-- log2 of m × 2^e, not a power of two. -/
def log2Enc (p m : Nat) (e : Int) : Enc :=
  let k := Nat.log2 m
  let r := lnEnc p m k
  let x : Int := e + k
  let lo := r.1 * 2 ^ 900 / (ln2N + 1)
  let hi := r.2 * 2 ^ 900 / ln2N + 1
  if 0 ≤ x then ⟨false, x.toNat * 2 ^ p + lo, x.toNat * 2 ^ p + hi, -p⟩
  else ⟨true, (-x).toNat * 2 ^ p - hi, (-x).toNat * 2 ^ p - lo, -p⟩

/-- e^(−t) = v × 2^(−n) for t = a × 2^e > 0: n and an enclosure of v in (1/2, 1] over 2^p. -/
def expNeg (p a : Nat) (e : Int) : Nat × Nat × Nat :=
  let num := a * 2 ^ (e + 900).toNat
  let n := num / (ln2N + 1)
  let rlo := (num - n * (ln2N + 1)) * 2 ^ p / 2 ^ 900
  let r := expEnc p rlo
  (n, 2 ^ (2 * p) / (r.2 + 4 * n + 64), 2 ^ (2 * p) / r.1 + 1)

/-- tanh of a × 2^e > 0. -/
def tanhEnc (p : Nat) (neg : Bool) (a : Nat) (e : Int) : Enc :=
  let r := expNeg p a (e + 1)
  let wl := r.2.1 / 2 ^ r.1
  let wh := r.2.2 / 2 ^ r.1 + 1
  let one := 2 ^ p
  ⟨neg, (one - wh) * one / (one + wh), (one - wl) * one / (one + wl) + 1, -p⟩

/-- 1 / (1 + e^(−x)) for x of magnitude a × 2^e. -/
def sigmEnc (p : Nat) (neg : Bool) (a : Nat) (e : Int) : Enc :=
  let r := expNeg p a e
  let one := 2 ^ p
  let wl := r.2.1 / 2 ^ r.1
  let wh := r.2.2 / 2 ^ r.1 + 1
  if neg then ⟨false, r.2.1 * one / (one + wh), r.2.2 * one / (one + wl) + 1, -(r.1 : Int) - p⟩
  else ⟨false, one * one / (one + wh), one * one / (one + wl) + 1, -p⟩

/-- The rounding of an enclosed value at the first precision at which both ends agree. -/
def roundEnc (f : Fmt) (mode : Mode) (g : Nat → Enc) : List Nat → Nat × BitVec 6
  | [] => (0, 0)
  | p :: r =>
    let x := g p
    let a := roundTo f mode (.fin x.neg (2 * x.lo + 1) (x.e - 1))
    let b := roundTo f mode (.fin x.neg (2 * x.hi - 1) (x.e - 1))
    if a = b || r.isEmpty then a else roundEnc f mode g r

def precisions : List Nat := [192, 384, 768]

/-- A magnitude just below m × 2^e. -/
def justBelow (neg : Bool) (m : Nat) (e : Int) : Num := .fin neg (m * 2 ^ 300 - 1) (e - 300)

/-! ## The functions on finite nonzero inputs -/

def exp2Fin (f : Fmt) (mode : Mode) (neg : Bool) (m : Nat) (e : Int) : Nat × BitVec 6 :=
  if 12 ≤ (Nat.log2 m : Int) + e then roundTo f mode (.fin false 3 (if neg then -4000 else 4000))
  else
    let i := signedMant neg m
    if 0 ≤ e then roundTo f mode (.fin false 1 (i * 2 ^ e.toNat))
    else
      let d : Int := 2 ^ (-e).toNat
      let n := i / d
      let r := (i % d).toNat
      if r = 0 then roundTo f mode (.fin false 1 n)
      else roundEnc f mode (fun p => exp2Enc p n (r * 2 ^ (p - (-e).toNat))) precisions

def log2Fin (f : Fmt) (mode : Mode) (m : Nat) (e : Int) : Nat × BitVec 6 :=
  let k := Nat.log2 m
  if m = 2 ^ k then roundTo f mode (Num.ofInt (e + k)) else roundEnc f mode (fun p => log2Enc p m e) precisions

def tanhFin (f : Fmt) (mode : Mode) (neg : Bool) (m : Nat) (e : Int) : Nat × BitVec 6 :=
  let l : Int := (Nat.log2 m : Int) + e
  if l < -160 then roundTo f mode (justBelow neg m e)
  else if l < -32 then roundTo f mode (.fin neg (m * 2 ^ 64 - 1) (e - 64))
  else if 6 ≤ l then roundTo f mode (justBelow neg 1 0)
  else roundEnc f mode (fun p => tanhEnc p neg m e) precisions

def sigmFin (f : Fmt) (mode : Mode) (neg : Bool) (m : Nat) (e : Int) : Nat × BitVec 6 :=
  let l : Int := (Nat.log2 m : Int) + e
  if 12 ≤ l then roundTo f mode (if neg then .fin false 3 (-4000) else justBelow false 1 0)
  else roundEnc f mode (fun p => sigmEnc p neg m e) precisions

/-! ## R136 with its special inputs -/

/-- The functions of one operand, by their opcode. -/
inductive SpecialFn where
  | sqrt | rsq | rcp | exp2 | log2 | tanh | sigm
  deriving DecidableEq, Repr

/-- A NaN result as a code (R132). -/
def nanCode (f : Fmt) (ops : List Num) (gen : Nat) : Nat × BitVec 6 :=
  let r := nanResult ops (some gen)
  match r.1 with
  | .nan b => ((nanTo f b).1, r.2)
  | _ => (0, r.2)

/-- One special function of one decoded operand (R136). -/
def specialOf (fn : SpecialFn) (f : Fmt) (mode : Mode) (x : Num) : Nat × BitVec 6 :=
  match x with
  | .fin n m e =>
    if m = 0 then
      match fn with
      | .sqrt => roundTo f mode (.fin n 0 0)
      | .rsq => roundTo f mode (.inf n)
      | .rcp => roundTo f mode (.inf n)
      | .exp2 => roundTo f mode (.fin false 1 0)
      | .log2 => roundTo f mode (.inf true)
      | .tanh => roundTo f mode (.fin n 0 0)
      | .sigm => roundTo f mode (.fin false 1 (-1))
    else
      match fn with
      | .sqrt => if n then nanCode f [] 8 else roundTo f mode (sqrtNum m e)
      | .rsq => if n then nanCode f [] 8 else roundTo f mode (rsqrtNum m e)
      | .rcp => roundTo f mode (quotNum n 1 m (-e))
      | .exp2 => exp2Fin f mode n m e
      | .log2 => if n then nanCode f [] 8 else log2Fin f mode m e
      | .tanh => tanhFin f mode n m e
      | .sigm => sigmFin f mode n m e
  | .inf n =>
    match fn with
    | .sqrt => if n then nanCode f [] 8 else roundTo f mode (.inf false)
    | .rsq => if n then nanCode f [] 8 else roundTo f mode (.fin false 0 0)
    | .rcp => roundTo f mode (.fin n 0 0)
    | .exp2 => roundTo f mode (if n then .fin false 0 0 else .inf false)
    | .log2 => if n then nanCode f [] 8 else roundTo f mode (.inf false)
    | .tanh => roundTo f mode (.fin n 1 0)
    | .sigm => roundTo f mode (if n then .fin false 0 0 else .fin false 1 0)
  | x => nanCode f [x] 0

/-- VDIV of two decoded operands (R136). -/
def divideOf (f : Fmt) (mode : Mode) (x y : Num) : Nat × BitVec 6 :=
  match x, y with
  | .fin n m e, .fin n' m' e' =>
    if m' = 0 then (if m = 0 then nanCode f [] 8 else roundTo f mode (.inf (n != n')))
    else if m = 0 then roundTo f mode (.fin (n != n') 0 0)
    else roundTo f mode (quotNum (n != n') m m' (e - e'))
  | .fin n _ _, .inf n' => roundTo f mode (.fin (n != n') 0 0)
  | .inf n, .fin n' _ _ => roundTo f mode (.inf (n != n'))
  | .inf _, .inf _ => nanCode f [] 8
  | x, y => nanCode f [x, y] 0

end Sys2Proof.Machine
end

