-- ==== Sys2Proof/Machine/VectorOps.lean ====
section
/-! DEFINITION. The vector unit's shared operations: elements in lanes and predicates (07 R144 to R146), the result
of a vector operation and the start of a stream (07 R148, 11 R223 to R228), element arithmetic (07 R150 to R161),
reductions (07 R164 to R166) and generator walks with their loads and stores (07 R167 to R171). -/

namespace Sys2Proof.Machine

/-! ## Elements (R144) -/

/-- Lanes per element of a ty code. -/
def lanesPer (ty : Nat) : Nat := if ty = 8 then 2 else if ty = 9 then 4 else 1

/-- Width in bits of an element of a ty code. -/
def elemWidth (ty : Nat) : Nat := (tyEl ty).w

def isSigned (ty : Nat) : Bool := ty == 2 || ty == 4 || ty == 6 || ty == 8

/-- One lane of a one-lane element: the low bits, extended as R144 lays down. -/
def laneOf (ty x : Nat) : Lane :=
  match ty with
  | 2 => BitVec.ofInt 32 (sRead 8 x)
  | 3 => BitVec.ofNat 32 (x % 2 ^ 8)
  | 4 => BitVec.ofInt 32 (sRead 16 x)
  | 1 => BitVec.ofNat 32 (x % 2 ^ 16)
  | 5 => BitVec.ofNat 32 (x % 2 ^ 16)
  | _ => BitVec.ofNat 32 x

/-- An element's code from its lanes. -/
def codeOf (ty : Nat) (l : List Lane) : Nat :=
  (l.foldr (fun x a => x.toNat + 2 ^ 32 * a) 0) % 2 ^ elemWidth ty

def elemsGo (ty g : Nat) : Nat → VReg → List Nat
  | 0, _ => []
  | n + 1, v => codeOf ty ((v ++ List.replicate g 0).take g) :: elemsGo ty g n (v.drop g)

/-- The n(ty) element codes of a register. -/
def elems (ty : Nat) (v : VReg) : List Nat := elemsGo ty (lanesPer ty) (elemCount ty) v

def splitLanes : Nat → Nat → List Lane
  | 0, _ => []
  | g + 1, x => BitVec.ofNat 32 x :: splitLanes g (x / 2 ^ 32)

/-- The lanes of a list of element codes. -/
def unelems (ty : Nat) (l : List Nat) : VReg :=
  if lanesPer ty = 1 then l.map (laneOf ty) else l.flatMap (splitLanes (lanesPer ty))

def maskGo (f : Nat → Bool) : Nat → Nat → Nat
  | 0, _ => 0
  | k + 1, i => (if f i then 1 else 0) + 2 * maskGo f k (i + 1)

/-- The mask whose bit i is f i. -/
def maskOf (f : Nat → Bool) : Mask := BitVec.ofNat 256 (maskGo f 256 0)

/-- The lanes of the enabled elements among the first `n` (R145, R146): element k by bit g·k. -/
def enabledLanes (g n : Nat) (p : Mask) : Mask :=
  if g = 1 then (if n = 256 then p else p &&& maskOf (fun i => decide (i < n)))
  else maskOf (fun i => decide (i / g < n) && p.getLsbD (i / g * g))

/-! ## Results (01 R19, 05 R109, 11 R223 to R228) -/

/-- What a vector operation's record holds: opcode, ty, stream type, mode, fn, bound, δ (0: no stream class), and the codes a bit-mode
VPACK enables. -/
structure VInfo where
  op : BitVec 7
  ty : BitVec 4
  st : BitVec 4
  rm : BitVec 3 := 0
  fn : BitVec 6 := 0
  bound : Nat
  delta : Nat := 0
  codes : Mask := 0
  deriving DecidableEq, Repr

def isStream (c : BitVec 6) : Bool := decide (48 ≤ c.toNat) && decide (c.toNat ≤ 55)

/-- C of a stream in clocks from issue (R226): the bound, or two clocks past each open source stream, the one whose lanes
a source register still waits for (R225) included. -/
def streamBound (q : Seq) (bound : Nat) (srcs : List (BitVec 6)) : Nat :=
  srcs.foldl (fun c r =>
    if isStream r then
      let z := at' q.z (r.toNat - 48) {}
      let l := streamWait z
      if l = 0 then c else Nat.max c (l + 2)
    else c) bound

/-- A stream that a later producer replaces while it, or one that it replaced, is open: its lanes go on to their completion (11 R225,
R228). -/
def leave (q : Seq) (k : Nat) : Seq :=
  let z := at' q.z k {}
  if z.valid && streamPending z then { q with leaving := q.leaving ++ [(k, { z with vdec := none })] } else q

/-- The disabled lanes of a producer into `zk` and the clocks they wait (R225): all of them for an open earlier stream there, and
those that it holds for one earlier still. -/
def waitingLanes (old : Stream) (off : Mask) : List (Mask × Nat) :=
  ((off, old.left) :: old.olds.map (fun o => (o.1 &&& off, o.2))).filter (fun o => o.1 != 0 && o.2 != 0)

/-- The start of a stream in `zk` (R223 to R228): the earlier stream's flags retire, its VDEC is abandoned, and the disabled lanes keep
what zk held. Last, streams reading zk are broken, and with them the new one where it reads a broken one. `own`: zk is the addend of
VFMA or VFMS. The record holds the operands, and as the third what zk held (R240). Any producer that names zk as source a or b reads the
stream it replaces and does not break the source rule by it (log entry 127). -/
def startStream (fr : Nat) (q0 q : Seq) (k : Nat) (i : VInfo) (srcs : List (BitVec 6)) (own : Bool) (caps : List VReg)
    (lanes : Mask) (v : VReg) (fl : List (BitVec 6)) : Seq :=
  let q := abandonVdec fr (retireStream q k) k
  let q := leave q k
  let old := at' q0.z k {}
  let held := if old.valid || old.cut != 0 then old.value else []
  let all := if own then BitVec.ofNat 6 (48 + k) :: srcs else srcs
  let z : Stream := {
    valid := true, op := i.op, ty := i.ty, st := i.st, rm := i.rm, fn := i.fn,
    left := streamBound q0 i.bound all, chain := i.delta, srcs := srcs,
    captured := [at' caps 0 [], at' caps 1 [], held],
    value := mergeLanes lanes v held, laneFlags := fl, pred := lanes,
    olds := waitingLanes old (~~~lanes), own := own, codes := i.codes,
    preCut := srcs.map (fun c => if isStream c then (at' q0.z (c.toNat - 48) {}).cut else 0),
    born := q0.sr.sched, reads := srcs.map (fun c => if isStream c then (at' q0.z (c.toNat - 48) {}).born else 0), after := old.born }
  breakSource fr { q with z := q.z.set k z } (BitVec.ofNat 6 (48 + k))

/-- The result of a vector operation in register code `d`: a pending write, or a stream. -/
def vectorResult (s : State) (u : Bundle) (i : VInfo) (d : BitVec 6) (srcs : List (BitVec 6)) (own : Bool)
    (caps : List VReg) (lanes : Mask) (v : VReg) (fl : List (BitVec 6)) : Bundle :=
  mapWork u (fun q =>
    if isStream d then startStream s.free u.start q (d.toNat - 48) i srcs own caps lanes v fl
    else
      let q := breakSource s.free q d
      addPending q { dest := .vector d.toNat, lanes := lanes, vec := v, left := i.bound, flags := joinFlags lanes fl })

/-- A register read by a vector operation with stream delay `delta` and destination `d` (R148, R226). -/
def vread (s : State) (u : Bundle) (delta : Nat) (d : BitVec 6) (pos : Nat) (c : BitVec 6) : VReg :=
  vectorOperand s.free u.start (delta != 0 && isStream d) pos c

/-- Element results of type `ty` for the first elements, disabled ones too: lanes and flags by lane. -/
def fromResults (ty : Nat) (r : List (Nat × BitVec 6)) : VReg × List (BitVec 6) :=
  (unelems ty (r.map (·.1)), r.flatMap (fun x => List.replicate (lanesPer ty) x.2))

/-- An elementwise operation's effect: `n` elements of result type `ty`. -/
def elementwise (s : State) (u : Bundle) (i : VInfo) (ty n : Nat) (d : BitVec 6) (srcs : List (BitVec 6)) (own : Bool)
    (caps : List VReg) (m : BitVec 3) (r : List (Nat × BitVec 6)) : Bundle :=
  let p := predicate s.free u.start m
  let x := fromResults ty (r.take n)
  vectorResult s u i d srcs own caps (enabledLanes (lanesPer ty) n p) x.1 x.2

def zip2 {α : Type} (f : Nat → Nat → α) : List Nat → List Nat → List α
  | a :: r, b :: t => f a b :: zip2 f r t
  | _, _ => []

def zip3 {α : Type} (f : Nat → Nat → Nat → α) : List Nat → List Nat → List Nat → List α
  | a :: r, b :: t, c :: v => f a b c :: zip3 f r t v
  | _, _, _ => []

/-- A two-operand form whose source and result have the type ty. -/
def vec2 (i : VInfo) (f : Nat → Nat → Nat × BitVec 6) (d a b : BitVec 6) (m : BitVec 3) (s : State) (u : Bundle) : Bundle :=
  let ty := i.ty.toNat
  let x := vread s u i.delta d 0 a
  let y := vread s u i.delta d 1 b
  elementwise s u i ty (elemCount ty) d [a, b] false [x, y] m (zip2 f (elems ty x) (elems ty y))

/-- A one-operand form whose source and result have the type ty. -/
def vec1 (i : VInfo) (f : Nat → Nat × BitVec 6) (d a : BitVec 6) (m : BitVec 3) (s : State) (u : Bundle) : Bundle :=
  let ty := i.ty.toNat
  let x := vread s u i.delta d 0 a
  elementwise s u i ty (elemCount ty) d [a] false [x] m ((elems ty x).map f)

/-- A form whose d is addend and destination (VFMA, VFMS). -/
def vec3 (i : VInfo) (f : Nat → Nat → Nat → Nat × BitVec 6) (d a b : BitVec 6) (m : BitVec 3) (s : State) (u : Bundle) : Bundle :=
  let ty := i.ty.toNat
  let x := vread s u i.delta d 0 a
  let y := vread s u i.delta d 1 b
  let z := vread s u i.delta d 2 d
  elementwise s u i ty (elemCount ty) d [a, b] (isStream d) [x, y, z] m (zip3 f (elems ty x) (elems ty y) (elems ty z))

/-! ## Element arithmetic -/

def tyFmt (ty : Nat) : Fmt := if ty = 1 then fmtBf16 else fmtF32

/-- nan_result converted into a wide format (R132). -/
def nanElem (f : Fmt) (ops : List Num) (gen : Option Nat) : Nat × BitVec 6 :=
  let r := nanResult ops gen
  match r.1 with
  | .nan b => ((nanTo f b).1, r.2)
  | _ => (0, r.2)

def anyNan (l : List Num) : Bool := l.any Num.isNan

/-- The sum of R150 with its NaN case. -/
def addElem (f : Fmt) (mode : Mode) (ops : List Num) (x y : Num) : Nat × BitVec 6 :=
  if anyNan ops then nanElem f ops none
  else match addNum mode x y with
    | some r => roundTo f mode r
    | none => nanElem f ops (some 3)

def addCode (ty : Nat) (mode : Mode) (a b : Nat) : Nat × BitVec 6 :=
  let x := decodeFloat (tyFmt ty) a
  let y := decodeFloat (tyFmt ty) b
  addElem (tyFmt ty) mode [x, y] x y

def subCode (ty : Nat) (mode : Mode) (a b : Nat) : Nat × BitVec 6 :=
  let x := decodeFloat (tyFmt ty) a
  let y := decodeFloat (tyFmt ty) b
  addElem (tyFmt ty) mode [x, y] x y.neg

/-- The product of R150; an exact zero has the sign of its factors. -/
def mulCode (ty : Nat) (mode : Mode) (a b : Nat) : Nat × BitVec 6 :=
  let x := decodeFloat (tyFmt ty) a
  let y := decodeFloat (tyFmt ty) b
  if anyNan [x, y] then nanElem (tyFmt ty) [x, y] none
  else match mulNum x y with
    | some r => roundTo (tyFmt ty) mode r
    | none => nanElem (tyFmt ty) [x, y] (some 4)

/-- VFMA and, with the product negated, VFMS (R150): exact, then one rounding. -/
def fmaCode (ty : Nat) (mode : Mode) (negate : Bool) (a b d : Nat) : Nat × BitVec 6 :=
  let f := tyFmt ty
  let x := decodeFloat f a
  let y := decodeFloat f b
  let z := decodeFloat f d
  let ops := [x, y, z]
  match (if anyNan [x, y] then some (Num.fin false 0 0) else mulNum x y) with
  | none => nanElem f ops (some 4)
  | some p => addElem f mode ops (if negate then p.neg else p) z

/-- VMIN and VMAX (R151): exact; −0 below +0. -/
def minmaxCode (ty : Nat) (wantMax : Bool) (a b : Nat) : Nat × BitVec 6 :=
  let f := tyFmt ty
  let x := decodeFloat f a
  let y := decodeFloat f b
  if anyNan [x, y] then nanElem f [x, y] none
  else
    let key (c : Nat) : Nat := c / 2 ^ (elemWidth ty - 1)
    let lt : Bool := match cmpNum x y with
      | .lt => true
      | .gt => false
      | .eq => decide (key b < key a)
    (if lt == wantMax then b else a, 0)

/-- The sign operations of R152 on an element: integers modulo 2^w. -/
def absCode (ty a : Nat) : Nat × BitVec 6 :=
  let w := elemWidth ty
  if ty ≤ 1 then (a % 2 ^ (w - 1), 0) else (wrapN w (sRead w a).natAbs, 0)

def negCode (ty a : Nat) : Nat × BitVec 6 :=
  let w := elemWidth ty
  if ty ≤ 1 then ((a + 2 ^ (w - 1)) % 2 ^ w, 0) else (wrapN w (-(sRead w a)), 0)

def specialCode (fn : SpecialFn) (ty : Nat) (mode : Mode) (a : Nat) : Nat × BitVec 6 :=
  specialOf fn (tyFmt ty) mode (decodeFloat (tyFmt ty) a)

def divCode (ty : Nat) (mode : Mode) (a b : Nat) : Nat × BitVec 6 :=
  divideOf (tyFmt ty) mode (decodeFloat (tyFmt ty) a) (decodeFloat (tyFmt ty) b)

/-- The reading of an integer element by the letter of its type. -/
def readBy (ty a : Nat) : Int := if isSigned ty then sRead (elemWidth ty) a else a

/-- The integer forms of R153 modulo 2^w. -/
inductive IntOp where
  | add | sub | mul | mulh | min | max | and | or | xor | shl | shr | sar
  deriving DecidableEq, Repr

def intCode (o : IntOp) (ty a b : Nat) : Nat × BitVec 6 :=
  let w := elemWidth ty
  let x := readBy ty a
  let y := readBy ty b
  let c := b % w
  (match o with
   | .add => (a + b) % 2 ^ w
   | .sub => wrapN w ((a : Int) - b)
   | .mul => a * b % 2 ^ w
   | .mulh => wrapN w (x * y / (2 : Int) ^ w)
   | .min => if x ≤ y then a else b
   | .max => if x ≤ y then b else a
   | .and => a &&& b
   | .or => a ||| b
   | .xor => a ^^^ b
   | .shl => a * 2 ^ c % 2 ^ w
   | .shr => a / 2 ^ c
   | .sar => wrapN w (sRead w a / (2 : Int) ^ c), 0)

/-- The widened type of R154. -/
def widerTy (ty : Nat) : Nat :=
  match ty with
  | 2 => 4 | 3 => 5 | 4 => 6 | 5 => 7 | _ => 8

/-- The signed source type of VNARW (R155). -/
def narrowSrc (ty : Nat) : Nat := if ty ≤ 3 then 4 else if ty ≤ 5 then 6 else 8

def widenCode (mul : Bool) (ty a b : Nat) : Nat × BitVec 6 :=
  let r := if mul then readBy ty a * readBy ty b else readBy ty a + readBy ty b
  (wrapN (elemWidth (widerTy ty)) r, 0)

/-- VNARW (R155): the source over 2^c converted into ty. -/
def narrowCode (ty : Nat) (mode : Mode) (a b : Nat) : Nat × BitVec 6 :=
  let w := elemWidth (narrowSrc ty)
  let x := sRead w a
  toIntFmt (isSigned ty) (elemWidth ty) mode (.fin (decide (x < 0)) x.natAbs (-((b % 64 : Nat) : Int)))

/-- VCMP's truth value and flag (R156). -/
def cmpCode (cc ty a b : Nat) : Bool × BitVec 6 :=
  if ty ≤ 1 then
    let x := decodeFloat (tyFmt ty) a
    let y := decodeFloat (tyFmt ty) b
    (compareNum cc x y, sigFlag [x, y])
  else (ccHolds cc (compare (readBy ty a) (readBy ty b)), 0)

/-- The ty code of an sty code (R23). -/
def styTy (s : BitVec 3) : Nat :=
  match s.toNat with
  | 0 => 0 | 1 => 1 | 2 => 4 | 3 => 5 | 4 => 6 | 5 => 7 | 6 => 8 | _ => 9

/-- VCVT (R159). -/
def cvtCode (src dst : Nat) (mode : Mode) (a : Nat) : Nat × BitVec 6 := convertTo (tyEl dst) mode (decodeEl (tyEl src) a)

/-- VSCALE (R160); `sc` is the scale of the element's first lane of b. -/
def scaleCode (ty : Nat) (mode : Mode) (a : Nat) (sc : BitVec 24) : Nat × BitVec 6 :=
  let f := tyFmt ty
  let x := decodeFloat f a
  let sig := sigFlag [x]
  let special : Option Nat := match x with
    | .nan b => if nanCause b = 6 then some 6 else if nanCause b = 7 then some 7 else none
    | _ => none
  match special with
  | some c => ((nanElem f [] (some c)).1, sig)
  | none => match readScale sc with
    | .nan => let r := nanElem f [] (some 2); (r.1, r.2 ||| sig)
    | .zero => match x with
      | .nan _ => nanElem f [x] none
      | .inf _ => nanElem f [] (some 4)
      | .fin n _ _ => roundTo f mode (.fin n 0 0)
      | _ => (0, 0)
    | .val m e => match x with
      | .nan _ => nanElem f [x] none
      | .fin n k q => roundTo f mode (.fin n (k * m) (q + e))
      | x => roundTo f mode x

/-- The stored format of VPACK and VUNPK's fn (R161). -/
def packEl (f : BitVec 6) : ElFmt := descEl (presetDesc (fieldN f 0 4))

/-- An element encoded into a preset (R161); a signalling NaN operand sets invalid (R122). -/
def packCode (f : BitVec 6) (ty : Nat) (mode : Mode) (a : Nat) : Nat × BitVec 6 := convertTo (packEl f) mode (decodeEl (tyEl ty) a)

/-- A code decoded into FP32, BF16 or I32 (R161): exact, a NaN code giving nan(0x1), whose sign is 0 (06 R131; log entry 38). -/
def unpackCode (f : BitVec 6) (ty : Nat) (c : Nat) : Nat × BitVec 6 :=
  convertTo (tyEl ty) 1 (match decodeEl (packEl f) c with
    | .nan _ => Num.nanOf 1
    | x => x)

/-! ## Reductions (R164 to R166) -/

/-- The identity of an empty segment (R164). -/
def redIdentity (o ty : Nat) : Nat :=
  let w := elemWidth ty
  match o with
  | 1 => if ty ≤ 1 then infCode (tyFmt ty) true else if isSigned ty then 2 ^ (w - 1) else 0
  | 2 => if ty ≤ 1 then infCode (tyFmt ty) false else if isSigned ty then 2 ^ (w - 1) - 1 else 2 ^ w - 1
  | 3 => 2 ^ w - 1
  | _ => 0

/-- The combining step op(p, q) (R164). -/
def redStep (o ty : Nat) (mode : Mode) (p q : Nat) : Nat × BitVec 6 :=
  match o with
  | 0 => if ty ≤ 1 then addCode ty mode p q else ((p + q) % 2 ^ elemWidth ty, 0)
  | 1 => if ty ≤ 1 then minmaxCode ty true p q else intCode .max ty p q
  | 2 => if ty ≤ 1 then minmaxCode ty false p q else intCode .min ty p q
  | 3 => (p &&& q, 0)
  | 4 => (p ||| q, 0)
  | _ => (p ^^^ q, 0)

/-- One level of the tree: neighbours paired, a lone member passed up (R165). -/
def redLevel (o ty : Nat) (mode : Mode) : List (Option Nat) → List (Option Nat) × BitVec 6
  | some p :: some q :: r =>
    let x := redStep o ty mode p q
    let t := redLevel o ty mode r
    (some x.1 :: t.1, x.2 ||| t.2)
  | p :: q :: r =>
    let t := redLevel o ty mode r
    ((if p.isSome then p else q) :: t.1, t.2)
  | [p] => ([p], 0)
  | [] => ([], 0)

/-- The balanced tree of one segment, `k` levels deep. -/
def redTree (o ty : Nat) (mode : Mode) : Nat → List (Option Nat) → BitVec 6 → Option Nat × BitVec 6
  | 0, l, fl => ((l.headD none), fl)
  | k + 1, l, fl =>
    let x := redLevel o ty mode l
    redTree o ty mode k x.1 (fl ||| x.2)

/-- The running values of one segment (R166). -/
def scanGo (o ty : Nat) (mode : Mode) : Option Nat → List (Option Nat) → List Nat × BitVec 6
  | _, [] => ([], 0)
  | none, none :: r =>
    let t := scanGo o ty mode none r
    (redIdentity o ty :: t.1, t.2)
  | none, some x :: r =>
    let t := scanGo o ty mode (some x) r
    (x :: t.1, t.2)
  | some v, none :: r =>
    let t := scanGo o ty mode (some v) r
    (v :: t.1, t.2)
  | some v, some x :: r =>
    let y := redStep o ty mode v x
    let t := scanGo o ty mode (some y.1) r
    (y.1 :: t.1, y.2 ||| t.2)

/-- The elements a mask lets contribute: none where disabled. -/
def contributions (ty : Nat) (p : Mask) (v : VReg) : List (Option Nat) :=
  let g := lanesPer ty
  let rec go : Nat → List Nat → List (Option Nat)
    | _, [] => []
    | k, x :: r => (if p.getLsbD (g * k) then some x else none) :: go (k + 1) r
  go 0 (elems ty v)

def segmentsOf {α : Type} (n : Nat) : Nat → List α → List (List α)
  | 0, _ => []
  | k + 1, l => l.take n :: segmentsOf n k (l.drop n)

/-! ## Generators (R167, R168) -/

/-- A level's count: 0 is 65,536 (03 R91). -/
def genCount (g : Gen) (l : Nat) : Nat := let c := (at' g.count l 0).toNat; if c = 0 then 65536 else c

/-- The address of the present position. -/
def genAddr (g : Gen) : Int :=
  (g.base.toNat : Int) + (at' g.idx 0 0 : Nat) * (at' g.stride 0 0).toInt + (at' g.idx 1 0 : Nat) * (at' g.stride 1 0).toInt +
    (at' g.idx 2 0 : Nat) * (at' g.stride 2 0).toInt + (at' g.idx 3 0 : Nat) * (at' g.stride 3 0).toInt

/-- The next position: level 0 fastest, and after the last the first again. -/
def genNext (g : Gen) : Gen :=
  let rec go : List Nat → Nat → List Nat
    | [], _ => []
    | i :: r, l => if i + 1 < genCount g l then (i + 1) :: r else 0 :: go r (l + 1)
  { g with idx := go g.idx 0 }

/-- `n` addresses popped in order. -/
def genPop : Nat → Gen → List Int × Gen
  | 0, g => ([], g)
  | n + 1, g =>
    let r := genPop n (genNext g)
    (genAddr g :: r.1, r.2)

def genEsz (g : Gen) : Nat := 2 ^ fieldN g.ctl 1 2
def genInE (g : Gen) : Bool := anyBit g.ctl 0 1

/-- The bounds of a generator's space (R168). -/
def genBounds (q : Seq) (g : Gen) : Int × Int :=
  if genInE g then (0, 0x40000)
  else (q.sr.winBase.toNat, (q.sr.winBase.toNat : Int) + q.sr.winSize.toNat)

def alignDown (a : Int) (esz : Nat) : Int := a - a % (esz : Int)

/-- The place read for a lane address, held within the bounds (R168). -/
def clampRead (b : Int × Int) (esz : Nat) (a : Int) : Nat :=
  let a := alignDown a esz
  if a < b.1 then b.1.toNat else if b.2 ≤ a then (b.2 - esz).toNat else a.toNat

/-- The place stored for a lane address, none out of bounds (R168). -/
def clampStore (b : Int × Int) (esz : Nat) (a : Int) : Option Nat :=
  let a := alignDown a esz
  if a < b.1 || b.2 ≤ a then none else some a.toNat

/-- The lane bytes of a type (R169). -/
def laneBytes (ty : Nat) : Nat := if ty = 2 ∨ ty = 3 then 1 else if ty = 1 ∨ ty = 4 ∨ ty = 5 then 2 else 4

/-- A generator's place in memory. -/
def genPlace (n : Nat) (g : Gen) (a : Nat) : Nat := if genInE g then placeE n a else placeP n a

/-- A lane that carries damaged bytes (R171). -/
def damagedLane (ty : Nat) : Lane :=
  match ty with
  | 0 => 0x7FD80000
  | 1 => 0x7FD8
  | 8 => 0x80000000
  | 9 => 0x80000000
  | t => laneOf t (markerOf (tyEl t))

/-- One lane of a load: its bits, and whether its bytes are damaged (R169, R171). -/
def loadLane (s : State) (n : Nat) (q : Seq) (g : Gen) (ty : Nat) (a : Int) : Lane × Bool :=
  let esz := genEsz g
  let p := genPlace n g (clampRead (genBounds q g) esz a)
  (laneOf ty (readNat s p esz % 2 ^ (8 * laneBytes ty)), poisoned s p esz)

def loadLanes (s : State) (n : Nat) (q : Seq) (g : Gen) (ty : Nat) (m : Mask) : Nat → List Int → List (Lane × Bool)
  | _, [] => []
  | i, a :: r => (if m.getLsbD i then loadLane s n q g ty a else (0, false)) :: loadLanes s n q g ty m (i + 1) r

/-- Damage spread over the lanes of its element (R171). -/
def spreadDamage (ty : Nat) : List (Lane × Bool) → VReg
  | [] => []
  | x :: r =>
    if lanesPer ty = 1 then (if x.2 then damagedLane ty else x.1) :: spreadDamage ty r
    else x.1 :: spreadDamage ty r

def spreadWide (g : Nat) : Nat → List (Lane × Bool) → VReg
  | 0, _ => []
  | k + 1, l =>
    let e := l.take g
    (if e.any (·.2) then List.replicate e.length 0x80000000 else e.map (·.1)) ++ spreadWide g k (l.drop g)

/-- A vector load from given lane addresses (R169 to R171), with one error record for each damaged lane (log entry 91). -/
def loadVector (s : State) (u : Bundle) (g : Gen) (ty : Nat) (v : BitVec 6) (m : BitVec 3) (addrs : List Int) : Bundle :=
  let p := predicate s.free u.start m
  let lanes := enabledLanes (lanesPer ty) (elemCount ty) p
  let r := loadLanes s u.seq u.start g ty lanes 0 addrs
  let vec := if lanesPer ty = 1 then spreadDamage ty r else spreadWide (lanesPer ty) (elemCount ty) r
  let bad := (r.filter (·.2)).length
  let errs := List.replicate bad (damage u.seq (if genInE g then 3 else 2) 1)
  let i : VInfo := { op := 0x3C, ty := BitVec.ofNat 4 ty, st := BitVec.ofNat 4 ty, bound := 6 }
  vectorResult s { u with errs := u.errs ++ errs } i v [] false [] lanes vec []

def storeLanes (b : Int × Int) (n : Nat) (g : Gen) (ty : Nat) (m : Mask) : Nat → List Int → VReg → List StoreOp
  | i, a :: r, x :: t =>
    let rest := storeLanes b n g ty m (i + 1) r t
    if m.getLsbD i then
      match clampStore b (genEsz g) a with
      | some p => ⟨genPlace n g p, leBytes (genEsz g) (x.toNat % 2 ^ (8 * laneBytes ty))⟩ :: rest
      | none => rest
    else rest
  | _, _, _ => []

/-- A vector store to given lane addresses, in ascending lane order (R169, R170). -/
def storeVector (s : State) (u : Bundle) (g : Gen) (ty : Nat) (v : BitVec 6) (m : BitVec 3) (addrs : List Int) : Bundle :=
  let p := predicate s.free u.start m
  let lanes := enabledLanes (lanesPer ty) (elemCount ty) p
  let x := mapLanes (fun _ l => l) (vectorOperand s.free u.start false 0 v)
  { u with stores := u.stores ++ storeLanes (genBounds u.start g) u.seq g ty lanes 0 addrs x }

/-- The lane addresses of VLDX and VSTX (R170). -/
def indexedAddrs (g : Gen) (x : VReg) : List Int := mapLanes (fun _ l => (g.base.toNat : Int) + l.toInt) x

end Sys2Proof.Machine
end

