-- ==== Sys2Proof/Machine/Digits.lean ====
section
/-! DEFINITION. Keys, digit strings and early decisions of a stream's lanes (11 R223, R224, R231), and a stream's clock. How many
digits a lane commits in a clock, which of two fitting digits it takes, and whether a lane that is decided lands at once the
manual leaves open: free choices (log entry 76). -/

namespace Sys2Proof.Machine

/-! ## Keys (R223) -/

/-- The key of a lane's bits under stream type `st`. -/
def keyOf (st : Nat) (x : Lane) : Int :=
  let w := elemWidth st
  let c := x.toNat % 2 ^ w
  if st ≤ 1 then (if c < 2 ^ (w - 1) then (c : Int) else -((c - 2 ^ (w - 1) : Nat) : Int))
  else if isSigned st then sRead w c else c

/-- A code with a given key. -/
def codeOfKey (st : Nat) (k : Int) : Nat :=
  let w := elemWidth st
  if st ≤ 1 then (if 0 ≤ k then k.toNat else 2 ^ (w - 1) + (-k).toNat) else wrapN w k

/-- The least and the greatest key of a stream type. -/
def keyRange (st : Nat) : Int × Int :=
  let w := elemWidth st
  if st ≤ 1 then (1 - 2 ^ (w - 1), 2 ^ (w - 1) - 1)
  else if isSigned st then (-2 ^ (w - 1), 2 ^ (w - 1) - 1) else (0, 2 ^ w - 1)

/-! ## Digit strings (R224), in the words of a stream record (R240) -/

/-- What the D − c digits after the first c can still add or take away. -/
def digitReach (d c : Nat) : Int := (2 * ((4 : Int) ^ (d - c) - 1)) / 3

/-- Digit d(i+1) of a lane's word. -/
def digitAt (p : Word) (i : Nat) : Int := (bits p (3 * i) 3).toInt

/-- What is left of a key after the first `c` digits of a word. -/
def keyRest (d : Nat) (p : Word) : Nat → Int → Int
  | 0, k => k
  | c + 1, k => keyRest d p c k - digitAt p c * 4 ^ (d - 1 - c)

/-- Whether a word is a committed string of a lane with key `k` (R224): digits −2..+2, at most D of them, within reach. -/
def stringFits (d : Nat) (k : Int) (p : Word) : Bool :=
  let c := digitCount p
  decide (c ≤ d) && (List.range c).all (fun i => decide (-2 ≤ digitAt p i) && decide (digitAt p i ≤ 2)) &&
    decide ((keyRest d p c k).natAbs ≤ (digitReach d c).toNat)

/-- One of the digits after which the rest stays within reach. -/
def pickDigit (choice : Nat) (r u reach : Int) : Int :=
  let l := [(-2 : Int), -1, 0, 1, 2].filter (fun d => decide ((r - d * u).natAbs ≤ reach.toNat))
  l.getD (choice % l.length) 0

/-- `n` more digits after the first `c`. -/
def extendString (d : Nat) (f : Word) : Nat → Nat → Int → Word → Word
  | 0, c, _, p => putBits p 51 (BitVec.ofNat 5 c)
  | n + 1, c, r, p =>
    let u : Int := 4 ^ (d - 1 - c)
    let x := pickDigit (fieldN f (5 + 3 * c) 3) r u (digitReach d (c + 1))
    extendString d f n (c + 1) (r - x * u) (putBits p (3 * c) (BitVec.ofInt 3 x))

/-- A lane's string one clock further: all D digits where the lane is complete, else any number of further digits short of that. A
string that cannot be the lane's is discarded (R241). -/
def commitLane (d : Nat) (f : Word) (complete : Bool) (k : Int) (p : Word) : Word :=
  let p := if stringFits d k p then p else 0
  let c := digitCount p
  let n := if complete then d - c else if c + 1 < d then fieldN f 0 5 % (d - c) else 0
  extendString d f n c (keyRest d p c k) p

def commitGo (st d fr pos : Nat) (still stop : Mask) : Nat → Nat → VReg → List Word → List Word
  | 0, _, _, _ => []
  | n + 1, i, v, l =>
    (if stop.getLsbD i then l.headD 0
     else commitLane d (Config.freeBits 64 fr (pos + i)) (!still.getLsbD i) (keyOf st (v.headD 0)) (l.headD 0)) ::
      commitGo st d fr pos still stop n (i + 1) v.tail l.tail

/-- The digits a stream's uncut lanes commit in a clock. -/
def commitDigits (fr pos : Nat) (z : Stream) : Stream :=
  if !z.valid then z
  else { z with digits := commitGo z.st.toNat (keyDigits z.st) fr pos (openLanes z) z.cut 256 0 z.value z.digits }

/-- The committed digits of the lanes of a mask together. -/
def countDigits (m : Mask) (l : List Word) : Nat :=
  let rec go : Nat → List Word → Nat
    | _, [] => 0
    | i, p :: r => (if m.getLsbD i then digitCount p else 0) + go (i + 1) r
  go 0 l

/-! ## Decided lanes (R231) -/

/-- Whether every value that a lane's string still allows compares alike with the threshold: VCMP changes only at the threshold's key
and at the ends of the infinities, so the keys next to those and the ends of what is allowed stand for all of them. -/
def laneDecided (cc st d : Nat) (p : Word) (thr : Lane) : Bool :=
  let c := digitCount p
  let at0 := -(keyRest d p c 0)
  let r := keyRange st
  let lo := max r.1 (at0 - digitReach d c)
  let hi := min r.2 (at0 + digitReach d c)
  let kt := keyOf st thr
  let inf : Int := if st ≤ 1 then infCode (tyFmt st) false else 0
  let ks := ([lo, hi, kt - 1, kt, kt + 1, -inf - 1, -inf, inf, inf + 1]).filter (fun k => decide (lo ≤ k) && decide (k ≤ hi))
  let val (k : Int) : Bool := (cmpCode cc st (codeOfKey st k) (codeOf st [thr])).1
  ks.all (fun k => val k == val lo)

def decidedGo (cc st d : Nat) (m : Mask) : Nat → Nat → VReg → List Word → Nat
  | 0, _, _, _ => 0
  | n + 1, i, thr, l =>
    (if m.getLsbD i && laneDecided cc st d (l.headD 0) (thr.headD 0) then 1 else 0) + 2 * decidedGo cc st d m n (i + 1) thr.tail l.tail

/-- The lanes that the VDEC of a stream decides in a clock ahead of the deadline. A lane decided only at completion counts as decided
when its bit lands, at the deadline (log entry 96). -/
def decidesNow (fr pos : Nat) (z : Stream) (d : Vdec) : Mask :=
  if !z.valid || z.left == 0 then 0
  else
    let m := notLanded z d &&& ~~~z.cut &&& Config.freeBits 256 fr pos
    if m == 0 then 0 else BitVec.ofNat 256 (decidedGo d.cc.toNat z.st.toNat (keyDigits z.st) m 256 0 d.thr z.digits)

/-! ## A stream's clock (R226, R231, R242) -/

def countLanes (m : Mask) : Nat := popCount 256 m.toNat
where
  popCount : Nat → Nat → Nat
    | 0, _ => 0
    | k + 1, x => x % 2 + popCount k (x / 2)

/-- One of the five stream counters advanced (R242). -/
def bumpCounter (q : Seq) (i k : Nat) : Seq :=
  { q with counters := q.counters.set i (at' q.counters i 0 + BitVec.ofNat 64 k) }

/-- A stream one clock further: C, δ and the deadline. -/
def tickStream (z : Stream) : Stream :=
  { z with left := z.left - 1, chain := z.chain - 1, olds := (z.olds.map (fun o => (o.1, o.2 - 1))).filter (fun o => o.2 != 0), vdec := z.vdec.map (fun d => { d with left := d.left - 1 }) }

/-- Whether a stream register is open (11 R242). -/
def streamOpen (z : Stream) : Bool := z.valid && z.left != 0

/-- The early decisions of a stream land in its VDEC's mask (R231). -/
def landEarly (fr pos : Nat) (q : Seq) (z : Stream) : Seq × Stream :=
  match z.vdec with
  | none => (q, z)
  | some d =>
    let m := decidesNow fr pos z d
    let z := { z with decided := z.decided ||| m }
    let e := { d with ready := d.pe && notLanded z d == 0 && (Config.freeBits 1 fr (pos + 1)).getLsbD 0 }
    (bumpCounter (if m == 0 then q else prevail q d.md.toNat m d d.bits) 2 (countLanes m), { z with vdec := some e })

/-- Stream register `k` one clock further: its digits, its early decisions, and at C the flags of a stream that has retired (R228). -/
def tickRegister (fr pos : Nat) (q : Seq) (k : Nat) : Seq :=
  let z0 := at' q.z k {}
  if !streamPending z0 && z0.vdec.isNone then q
  else
    let z := tickStream z0
    let z := if streamPending z0 then commitDigits fr pos z else z
    let q := if z0.left = 1 && z.retired then orFpstat q (streamFlags z) else q
    let q := bumpCounter q 0 (countDigits (z.pred &&& ~~~z.cut) z.digits - countDigits (z.pred &&& ~~~z.cut) z0.digits)
    let r := landEarly fr (pos + 300) q z
    { r.1 with z := r.1.z.set k r.2 }

/-- The streams that were replaced while open, one clock further: at C their flags land (R228), and once no lane of theirs waits they are
gone. -/
def tickLeaving (q : Seq) : Seq :=
  let q' := (q.leaving.filter (fun x => x.2.left == 1)).foldl (fun q x => orFpstat q (streamFlags x.2)) q
  { q' with leaving := (q.leaving.map (fun x => (x.1, tickStream x.2))).filter (fun x => streamPending x.2) }

/-- All streams of sequencer `n` one clock further. -/
def tickStreams (fr n : Nat) (q : Seq) : Seq :=
  let q := if q.z.any streamOpen || !q.leaving.isEmpty then bumpCounter q 4 1 else q
  let q := { q with maskOpen := (q.maskOpen.map (fun g => { g with left := g.left - 1 })).filter (fun g => g.left != 0) }
  tickLeaving ((List.range 8).foldl (fun q k => tickRegister fr (2 ^ 20 * (n + 1) + 1024 * k) q k) q)

/-! ## What lands in a clock -/

/-- Exact transfers break open streams where they land (R227, 03 R88). -/
def breakLanding (fr : Nat) (q : Seq) : Seq :=
  q.pending.foldl (fun q e =>
    if e.left = 0 && e.exact then
      match e.dest with
      | .vector r => breakSource fr q (BitVec.ofNat 6 r)
      | _ => q
    else q) q

/-- Stream register `k` complete (R226); the digits its cut lanes never had count as skipped (R242). -/
def completeStream (q : Seq) (k : Nat) : Seq :=
  let z := at' q.z k {}
  let m := z.cut &&& z.pred
  bumpCounter { q with z := q.z.set k { z with done := true } } 1 (keyDigits z.st * countLanes m - countDigits m z.digits)

/-- The in-scope bits of the VDEC attached to stream register `k` land where no later write has, an earlier one never lands after
them, and its flag is posted (R231, 03 R88, log entry 13). Ahead of the deadline they stay unspecified to reads until an acquire contains the
post. -/
def landVdec (clock : Nat) (q : Seq) (k : Nat) (d : Vdec) : Seq :=
  let z := at' q.z k {}
  let m := d.scope &&& ~~~d.lost
  let q := prevail { q with z := q.z.set k { z with vdec := none, decided := d.scope } } d.md.toNat m d d.bits
  let q := if d.left = 0 ∨ m == 0 then q
    else { q with maskOpen := q.maskOpen ++ [{ md := d.md.toNat, flag := d.flag.toNat, lanes := m, clock := clock, left := d.left }] }
  if d.pe then { q with fInc := q.fInc.set d.flag.toNat (at' q.fInc d.flag.toNat 0 + 1) } else q

/-- Whether a VDEC lands in this clock. -/
def vdecDue (d : Vdec) : Bool := d.left == 0 || d.ready

/-- Everything that lands in a clock: results, completions, decisions. -/
def settleSeq (fr clock : Nat) (q : Seq) : Seq :=
  let q := landDue (breakLanding fr q)
  (List.range 8).foldl (fun q k =>
    let z := at' q.z k {}
    let q := if z.valid && z.left == 0 && !z.done then completeStream q k else q
    match z.vdec with
    | some d => if vdecDue d then landVdec clock q k d else q
    | none => q) q

end Sys2Proof.Machine
end

