-- ==== Sys2Proof/Machine/Commands.lean ====
section
/-! DEFINITION. Engine commands entering their queues (01 R17, R18, R20, R28; 08 R173, R174; 12 R243, R244; 13 R264,
R265, R270). Each takes a snapshot of its engine's staging registers as they stood before its bundle; what it does
then is the engine's own step. -/

namespace Sys2Proof.Machine

/-- The command as it enters its queue: staging snapshot, rounding mode, bundle and clock (R18, R28). -/
def snapshot (s : State) (u : Bundle) (i : Instr) (stage : List Word) : Command :=
  { op := i, stage := stage, vmode := u.start.sr.vmode, bundle := u.start.pc, clock := s.clock, serial := s.free }

/-- A matrix command: its queue holds 8 (R20). -/
def enterMatrix (i : Instr) (s : State) (u : Bundle) : Bundle :=
  if 8 ≤ u.start.mx.queue.length then addStall u 0
  else mapWork u (fun q => { q with mx := { q.mx with queue := q.mx.queue ++ [snapshot s u i u.start.mp] } })

/-- A copy command: its queue holds 16 (R20). -/
def enterCopy (i : Instr) (s : State) (u : Bundle) : Bundle :=
  if 16 ≤ u.start.cpy.queue.length then addStall u 0
  else mapWork u (fun q => { q with cpy := { q.cpy with queue := q.cpy.queue ++ [snapshot s u i u.start.cp] } })

/-- A network command: its queue holds 16 (R20). -/
def enterNet (i : Instr) (s : State) (u : Bundle) : Bundle :=
  if 16 ≤ u.start.net.queue.length then addStall u 0
  else mapWork u (fun q => { q with net := { q.net with queue := q.net.queue ++ [snapshot s u i u.start.np] } })

/-! ## LSEND's slot (13 R270) -/

def getLode (s : State) (c : Nat) : Lode := tget {} s.lodes c
def setLode (s : State) (c : Nat) (l : Lode) : State := { s with lodes := tset s.lodes c l }

def insertEntry (e : LodeEntry) : List LodeEntry → List LodeEntry
  | [] => [e]
  | x :: r => if e.cycle < x.cycle then e :: x :: r else x :: insertEntry e r

/-- The entries naming a port, in ascending CYCLE. -/
def portEntries (t : LodeTable) (port : Nat) : List LodeEntry :=
  (t.entries.filter (fun e => e.port == port)).foldl (fun l e => insertEntry e l) []

def isLsend : Instr → Bool
  | .lsend _ _ => true
  | _ => false

/-- The entry that the k-th LSEND of a port is matched with. -/
def matchedEntry (l : Lode) (port k : Nat) : Option LodeEntry :=
  match l.table with
  | some t => let es := portEntries t port; es[k % es.length]?
  | none => none

/-- Whether an LSEND of sequencer `n` may issue in this clock: its matched entry occurs in exactly two clocks, within
the running table's periods. -/
def lsendReady (s : State) (n : Nat) (q : Seq) : Bool :=
  let l := getLode s (n / 16)
  let k := at' l.counts (n % 16) 0 + (q.net.queue.filter (fun c => isLsend c.op)).length
  match l.table, matchedEntry l (n % 16) k with
  | some t, some e =>
    let x := s.clock + 2
    decide (l.origin ≤ x) && (x - l.origin) % t.period == e.cycle &&
      (match l.waiting with
       | some w => decide (x < w.2)
       | none => true)
  | _, _ => false

/-- LSEND (13 R270): the 64 lanes are read at issue; the bundle stalls until two clocks before its slot. -/
def execLsend (v : BitVec 6) (q : BitVec 2) (s : State) : Out :=
  runSlot 7 (.lsend v q) (fun s u =>
    if 16 ≤ u.start.net.queue.length then addStall u 0
    else if !lsendReady s u.seq u.start then addStall u 0
    else
      let x := mapLanes (fun _ l => l) (vectorOperand s.free u.start false 0 v)
      let c := { snapshot s u (.lsend v q) u.start.np with lanes := (x.drop (64 * q.toNat)).take 64 }
      mapWork u (fun w => { w with net := { w.net with queue := w.net.queue ++ [c] } })) s

/-- MCALL enters its queue (08 R191). -/
def execMcall (c : BitVec 5) (p : BitVec 1) (r : BitVec 5) (l : BitVec 2) (st : State) : Out :=
  runSlot 5 (.mcall c p r l) (enterMatrix (.mcall c p r l)) st

/-- MLATCH enters its queue (08 R177). -/
def execMlatch (c : BitVec 5) (p : BitVec 1) (l : BitVec 2) (t : BitVec 1) (st : State) : Out :=
  runSlot 5 (.mlatch c p l t) (enterMatrix (.mlatch c p l t)) st

/-- MEDGE enters its queue (08 R183). -/
def execMedge (c : BitVec 5) (p : BitVec 1) (st : State) : Out :=
  runSlot 5 (.medge c p) (enterMatrix (.medge c p)) st

/-- MFLUSH enters its queue (08 R186). -/
def execMflush (c : BitVec 5) (p : BitVec 1) (st : State) : Out :=
  runSlot 5 (.mflush c p) (enterMatrix (.mflush c p)) st

/-- MSTEP enters its queue (08 R188). -/
def execMstep (c : BitVec 5) (p : BitVec 1) (i : BitVec 8) (n : BitVec 3) (st : State) : Out :=
  runSlot 5 (.mstep c p i n) (enterMatrix (.mstep c p i n)) st

/-- MROUT enters its queue (08 R188). -/
def execMrout (c : BitVec 5) (p : BitVec 1) (e : BitVec 5) (s : BitVec 8) (st : State) : Out :=
  runSlot 5 (.mrout c p e s) (enterMatrix (.mrout c p e s)) st

/-- MSTAT enters its queue (08 R198). -/
def execMstat (c : BitVec 5) (p : BitVec 1) (st : State) : Out :=
  runSlot 5 (.mstat c p) (enterMatrix (.mstat c p)) st

/-- MDEC enters its queue (11 R235). -/
def execMdec (c : BitVec 5) (p : BitVec 1) (k : BitVec 3) (st : State) : Out :=
  runSlot 5 (.mdec c p k) (enterMatrix (.mdec c p k)) st

/-- MCUT enters its queue (11 R237). -/
def execMcut (c : BitVec 5) (p : BitVec 1) (a : BitVec 1) (st : State) : Out :=
  runSlot 5 (.mcut c p a) (enterMatrix (.mcut c p a)) st

/-- CPY enters its queue (12 R249). -/
def execCpy (c : BitVec 5) (p : BitVec 1) (r : BitVec 3) (s : BitVec 3) (f : BitVec 1) (st : State) : Out :=
  runSlot 6 (.cpy c p r s f) (enterCopy (.cpy c p r s f)) st

/-- CPYS enters its queue (12 R249). -/
def execCpys (c : BitVec 5) (p : BitVec 1) (r : BitVec 3) (s : BitVec 3) (f : BitVec 1) (st : State) : Out :=
  runSlot 6 (.cpys c p r s f) (enterCopy (.cpys c p r s f)) st

/-- CPYG enters its queue (12 R249). -/
def execCpyg (c : BitVec 5) (p : BitVec 1) (r : BitVec 3) (s : BitVec 3) (f : BitVec 1) (st : State) : Out :=
  runSlot 6 (.cpyg c p r s f) (enterCopy (.cpyg c p r s f)) st

/-- CPYT enters its queue (12 R249). -/
def execCpyt (c : BitVec 5) (p : BitVec 1) (r : BitVec 3) (s : BitVec 3) (f : BitVec 1) (st : State) : Out :=
  runSlot 6 (.cpyt c p r s f) (enterCopy (.cpyt c p r s f)) st

/-- CPYX enters its queue (12 R252). -/
def execCpyx (c : BitVec 5) (p : BitVec 1) (r : BitVec 3) (s : BitVec 3) (f : BitVec 1) (st : State) : Out :=
  runSlot 6 (.cpyx c p r s f) (enterCopy (.cpyx c p r s f)) st

/-- CPYF enters its queue (12 R249). -/
def execCpyf (c : BitVec 5) (p : BitVec 1) (r : BitVec 3) (s : BitVec 3) (f : BitVec 1) (st : State) : Out :=
  runSlot 6 (.cpyf c p r s f) (enterCopy (.cpyf c p r s f)) st

/-- CPYW enters its queue (12 R250). -/
def execCpyw (c : BitVec 5) (p : BitVec 1) (r : BitVec 3) (s : BitVec 3) (f : BitVec 1) (st : State) : Out :=
  runSlot 6 (.cpyw c p r s f) (enterCopy (.cpyw c p r s f)) st

/-- CPYQ enters its queue (12 R251). -/
def execCpyq (c : BitVec 5) (p : BitVec 1) (r : BitVec 3) (s : BitVec 3) (f : BitVec 1) (st : State) : Out :=
  runSlot 6 (.cpyq c p r s f) (enterCopy (.cpyq c p r s f)) st

/-- LSCHED enters its queue (13 R267). -/
def execLsched (c : BitVec 5) (p : BitVec 1) (st : State) : Out :=
  runSlot 7 (.lsched c p) (enterNet (.lsched c p)) st

/-- GLD enters its queue (13 R272). -/
def execGld (c : BitVec 5) (p : BitVec 1) (g : BitVec 6) (st : State) : Out :=
  runSlot 7 (.gld c p g) (enterNet (.gld c p g)) st

/-- GDEF enters its queue (13 R271). -/
def execGdef (c : BitVec 5) (p : BitVec 1) (st : State) : Out :=
  runSlot 7 (.gdef c p) (enterNet (.gdef c p)) st

/-- FPOST enters its queue (13 R277). -/
def execFpost (c : BitVec 5) (p : BitVec 1) (o : BitVec 3) (s : BitVec 3) (st : State) : Out :=
  runSlot 7 (.fpost c p o s) (enterNet (.fpost c p o s)) st

/-- NAMO enters its queue (13 R278). -/
def execNamo (c : BitVec 5) (p : BitVec 1) (o : BitVec 3) (s : BitVec 3) (k : BitVec 4) (w : BitVec 1) (st : State) : Out :=
  runSlot 7 (.namo c p o s k w) (enterNet (.namo c p o s k w)) st

/-- NCAS enters its queue (13 R278). -/
def execNcas (c : BitVec 5) (p : BitVec 1) (o : BitVec 3) (s : BitVec 3) (f : BitVec 3) (w : BitVec 1) (st : State) : Out :=
  runSlot 7 (.ncas c p o s f w) (enterNet (.ncas c p o s f w)) st

/-- PGMAP enters its queue (13 R282). -/
def execPgmap (c : BitVec 5) (p : BitVec 1) (st : State) : Out :=
  runSlot 7 (.pgmap c p) (enterNet (.pgmap c p)) st

/-- PGDONE enters its queue (13 R283). -/
def execPgdone (c : BitVec 5) (p : BitVec 1) (st : State) : Out :=
  runSlot 7 (.pgdone c p) (enterNet (.pgdone c p)) st

end Sys2Proof.Machine
end

