-- ==== Sys2Proof/WellFormed.lean ====
section
/-! DEFINITION. Well-formedness of an instruction: no decode check of 01_long_word R14 that reads its fields alone
refuses it (Machine/Checks.lean lists them), and a micro-step's field values are those of 08 R189. Features, the
handler state and collisions with the other slots of a bundle are judged at issue. -/

namespace Sys2Proof

/-- Whether every field of an instruction holds a value the manual permits. -/
def wellFormed (i : Instr) : Bool := (Machine.slotCauses i).isEmpty

end Sys2Proof
end

