-- ==== Sys2Proof/Decode.lean ====
section
/-! DEFINITION. Decoding and encoding of slot words (01_long_word R12, R13, R24 to R33) and micro-step words
(08 R189). Decoding is total: an unassigned opcode, an opcode in a slot that may not hold it and a nonzero
reserved bit yield no instruction; the value checks of R14 stand in Machine/Checks.lean. -/

namespace Sys2Proof
open Sys2Proof.Machine

/-- The instruction where the word's reserved bits are zero. -/
def keep (ok : Bool) (i : Instr) : Option Instr := if ok then some i else none

/-- Bits [lo+len-1 : lo] of a word are zero. -/
def zeros {n : Nat} (w : BitVec n) (lo len : Nat) : Bool := bits w lo len == 0

/-- One word under the sync-slot map (R29). -/
def decodeSync (w : BitVec 32) : Option Instr :=
  match (bits w 27 5).toNat with
  | 0x00 => keep (zeros w 0 27) .nop
  | 0x01 => keep (zeros w 16 3) (.wait (bits w 22 5) (bits w 19 3) (bits w 0 16))
  | 0x02 => keep (zeros w 16 3) (.waitc (bits w 22 5) (bits w 19 3) (bits w 0 16))
  | 0x03 => keep (true) (.post (bits w 22 5) (bits w 19 3) (bits w 16 3) (bits w 0 16))
  | 0x04 => keep (zeros w 0 22) (.clrf (bits w 22 5))
  | 0x05 => keep (zeros w 16 11) (.quiet (bits w 0 16))
  | 0x06 => keep (zeros w 6 21) (.segb (bits w 0 6))
  | 0x07 => keep (zeros w 16 11) (.brk (bits w 0 16))
  | 0x08 => keep (zeros w 16 11) (.trapi (bits w 0 16))
  | 0x09 => keep (zeros w 19 8 && zeros w 0 16) (.drain (bits w 16 3))
  | 0x0A => keep (zeros w 0 27) .endOp
  | _ => none

/-- One word under the scalar map (R30), before the permitted slots. -/
def decodeScalar (w : BitVec 32) : Option Instr :=
  match (bits w 25 7).toNat with
  | 0x00 => keep (zeros w 0 25) .nop
  | 0x01 => keep (zeros w 0 7) (.add (bits w 19 6) (bits w 13 6) (bits w 7 6))
  | 0x02 => keep (zeros w 0 7) (.sub (bits w 19 6) (bits w 13 6) (bits w 7 6))
  | 0x03 => keep (zeros w 0 7) (.and (bits w 19 6) (bits w 13 6) (bits w 7 6))
  | 0x04 => keep (zeros w 0 7) (.or (bits w 19 6) (bits w 13 6) (bits w 7 6))
  | 0x05 => keep (zeros w 0 7) (.xor (bits w 19 6) (bits w 13 6) (bits w 7 6))
  | 0x06 => keep (zeros w 0 7) (.andn (bits w 19 6) (bits w 13 6) (bits w 7 6))
  | 0x07 => keep (zeros w 0 7) (.shl (bits w 19 6) (bits w 13 6) (bits w 7 6))
  | 0x08 => keep (zeros w 0 7) (.shr (bits w 19 6) (bits w 13 6) (bits w 7 6))
  | 0x09 => keep (zeros w 0 7) (.sar (bits w 19 6) (bits w 13 6) (bits w 7 6))
  | 0x0A => keep (zeros w 0 7) (.rotl (bits w 19 6) (bits w 13 6) (bits w 7 6))
  | 0x0B => keep (zeros w 0 7) (.min (bits w 19 6) (bits w 13 6) (bits w 7 6))
  | 0x0C => keep (zeros w 0 7) (.max (bits w 19 6) (bits w 13 6) (bits w 7 6))
  | 0x0D => keep (zeros w 0 7) (.minu (bits w 19 6) (bits w 13 6) (bits w 7 6))
  | 0x0E => keep (zeros w 0 7) (.maxu (bits w 19 6) (bits w 13 6) (bits w 7 6))
  | 0x0F => keep (zeros w 0 13) (.mov (bits w 19 6) (bits w 13 6))
  | 0x10 => keep (zeros w 0 7) (.mul (bits w 19 6) (bits w 13 6) (bits w 7 6))
  | 0x11 => keep (zeros w 0 7) (.mulh (bits w 19 6) (bits w 13 6) (bits w 7 6))
  | 0x12 => keep (zeros w 0 7) (.mulhu (bits w 19 6) (bits w 13 6) (bits w 7 6))
  | 0x13 => keep (zeros w 0 7) (.div (bits w 19 6) (bits w 13 6) (bits w 7 6))
  | 0x14 => keep (zeros w 0 7) (.divu (bits w 19 6) (bits w 13 6) (bits w 7 6))
  | 0x15 => keep (zeros w 0 7) (.rem (bits w 19 6) (bits w 13 6) (bits w 7 6))
  | 0x16 => keep (zeros w 0 7) (.remu (bits w 19 6) (bits w 13 6) (bits w 7 6))
  | 0x17 => keep (zeros w 6 1) (.sel (bits w 19 6) (bits w 13 6) (bits w 7 6) (bits w 0 6))
  | 0x18 => keep (zeros w 0 13) (.clz (bits w 19 6) (bits w 13 6))
  | 0x19 => keep (zeros w 0 13) (.ctz (bits w 19 6) (bits w 13 6))
  | 0x1A => keep (zeros w 0 13) (.popc (bits w 19 6) (bits w 13 6))
  | 0x1B => keep (zeros w 0 7) (.bext (bits w 19 6) (bits w 13 6) (bits w 7 6))
  | 0x1C => keep (zeros w 6 1) (.bins (bits w 19 6) (bits w 13 6) (bits w 7 6) (bits w 0 6))
  | 0x1D => keep (zeros w 6 7) (.sext (bits w 19 6) (bits w 13 6) (bits w 0 6))
  | 0x1E => keep (zeros w 6 7) (.zext (bits w 19 6) (bits w 13 6) (bits w 0 6))
  | 0x20 => keep (zeros w 0 7) (.ceq (bits w 19 6) (bits w 13 6) (bits w 7 6))
  | 0x21 => keep (zeros w 0 7) (.cne (bits w 19 6) (bits w 13 6) (bits w 7 6))
  | 0x22 => keep (zeros w 0 7) (.clt (bits w 19 6) (bits w 13 6) (bits w 7 6))
  | 0x23 => keep (zeros w 0 7) (.cltu (bits w 19 6) (bits w 13 6) (bits w 7 6))
  | 0x24 => keep (zeros w 0 7) (.cle (bits w 19 6) (bits w 13 6) (bits w 7 6))
  | 0x25 => keep (zeros w 0 7) (.cleu (bits w 19 6) (bits w 13 6) (bits w 7 6))
  | 0x28 => keep (true) (.addi (bits w 19 6) (bits w 13 6) (bits w 0 13))
  | 0x29 => keep (true) (.andi (bits w 19 6) (bits w 13 6) (bits w 0 13))
  | 0x2A => keep (true) (.ori (bits w 19 6) (bits w 13 6) (bits w 0 13))
  | 0x2B => keep (true) (.xori (bits w 19 6) (bits w 13 6) (bits w 0 13))
  | 0x2C => keep (zeros w 6 7) (.shli (bits w 19 6) (bits w 13 6) (bits w 0 6))
  | 0x2D => keep (zeros w 6 7) (.shri (bits w 19 6) (bits w 13 6) (bits w 0 6))
  | 0x2E => keep (zeros w 6 7) (.sari (bits w 19 6) (bits w 13 6) (bits w 0 6))
  | 0x2F => keep (true) (.ceqi (bits w 19 6) (bits w 13 6) (bits w 0 13))
  | 0x30 => keep (true) (.clti (bits w 19 6) (bits w 13 6) (bits w 0 13))
  | 0x31 => keep (true) (.cltui (bits w 19 6) (bits w 13 6) (bits w 0 13))
  | 0x32 => keep (true) (.lui (bits w 19 6) (bits w 0 19))
  | 0x33 => keep (true) (.movi (bits w 19 6) (bits w 0 19))
  | 0x38 => keep (zeros w 0 13) (.stg (bits w 19 6) (bits w 13 6))
  | 0x39 => keep (zeros w 0 1) (.stgi (bits w 19 6) (bits w 17 2) (bits w 1 16))
  | 0x3A => keep (zeros w 12 7) (.srd (bits w 19 6) (bits w 0 12))
  | 0x3B => keep (zeros w 19 6 && zeros w 12 1) (.swr (bits w 13 6) (bits w 0 12))
  | 0x40 => keep (true) (.ldI8 (bits w 19 6) (bits w 13 6) (bits w 0 13))
  | 0x41 => keep (true) (.ldN8 (bits w 19 6) (bits w 13 6) (bits w 0 13))
  | 0x42 => keep (true) (.ldI16 (bits w 19 6) (bits w 13 6) (bits w 0 13))
  | 0x43 => keep (true) (.ldN16 (bits w 19 6) (bits w 13 6) (bits w 0 13))
  | 0x44 => keep (true) (.ldI32 (bits w 19 6) (bits w 13 6) (bits w 0 13))
  | 0x45 => keep (true) (.ldN32 (bits w 19 6) (bits w 13 6) (bits w 0 13))
  | 0x46 => keep (true) (.ldI64 (bits w 19 6) (bits w 13 6) (bits w 0 13))
  | 0x48 => keep (true) (.ldsI8 (bits w 19 6) (bits w 13 6) (bits w 0 13))
  | 0x49 => keep (true) (.ldsN8 (bits w 19 6) (bits w 13 6) (bits w 0 13))
  | 0x4A => keep (true) (.ldsI16 (bits w 19 6) (bits w 13 6) (bits w 0 13))
  | 0x4B => keep (true) (.ldsN16 (bits w 19 6) (bits w 13 6) (bits w 0 13))
  | 0x4C => keep (true) (.ldsI32 (bits w 19 6) (bits w 13 6) (bits w 0 13))
  | 0x4D => keep (true) (.ldsN32 (bits w 19 6) (bits w 13 6) (bits w 0 13))
  | 0x4E => keep (true) (.ldsI64 (bits w 19 6) (bits w 13 6) (bits w 0 13))
  | 0x50 => keep (true) (.ldaI32 (bits w 19 6) (bits w 13 6) (bits w 0 13))
  | 0x51 => keep (true) (.ldaN32 (bits w 19 6) (bits w 13 6) (bits w 0 13))
  | 0x52 => keep (true) (.ldaI64 (bits w 19 6) (bits w 13 6) (bits w 0 13))
  | 0x54 => keep (true) (.stI8 (bits w 19 6) (bits w 13 6) (bits w 0 13))
  | 0x55 => keep (true) (.stI16 (bits w 19 6) (bits w 13 6) (bits w 0 13))
  | 0x56 => keep (true) (.stI32 (bits w 19 6) (bits w 13 6) (bits w 0 13))
  | 0x57 => keep (true) (.stI64 (bits w 19 6) (bits w 13 6) (bits w 0 13))
  | 0x58 => keep (true) (.stlI32 (bits w 19 6) (bits w 13 6) (bits w 0 13))
  | 0x59 => keep (true) (.stlI64 (bits w 19 6) (bits w 13 6) (bits w 0 13))
  | 0x5A => keep (true) (.amoI32 (bits w 19 6) (bits w 13 6) (bits w 7 6) (bits w 3 4) (bits w 0 3))
  | 0x5B => keep (true) (.amoI64 (bits w 19 6) (bits w 13 6) (bits w 7 6) (bits w 3 4) (bits w 0 3))
  | 0x5C => keep (true) (.casI32 (bits w 19 6) (bits w 13 6) (bits w 7 6) (bits w 1 6) (bits w 0 1))
  | 0x5D => keep (true) (.casI64 (bits w 19 6) (bits w 13 6) (bits w 7 6) (bits w 1 6) (bits w 0 1))
  | 0x60 => keep (true) (.br (bits w 21 4) (bits w 15 6) (bits w 0 15))
  | 0x61 => keep (zeros w 15 10) (.jmp (bits w 0 15))
  | 0x62 => keep (zeros w 19 6 && zeros w 0 13) (.jmpi (bits w 13 6))
  | 0x63 => keep (zeros w 15 10) (.call (bits w 0 15))
  | 0x64 => keep (zeros w 0 25) .ret
  | 0x65 => keep (zeros w 21 4) (.loop (bits w 15 6) (bits w 0 15))
  | 0x66 => keep (zeros w 21 4) (.chk (bits w 15 6) (bits w 0 15))
  | 0x67 => keep (zeros w 0 25) .tret
  | _ => none

/-- One word under the transfer-slot map (R31). -/
def decodeTransfer (w : BitVec 32) : Option Instr :=
  match (bits w 28 4).toNat with
  | 0x00 => keep (zeros w 0 28) .nop
  | 0x01 => keep (zeros w 0 6) (.xtov (bits w 22 6) (bits w 16 6) (bits w 8 8) (bits w 6 2))
  | 0x02 => keep (zeros w 0 6) (.xfromv (bits w 22 6) (bits w 16 6) (bits w 8 8) (bits w 6 2))
  | 0x03 => keep (zeros w 0 15) (.xag (bits w 25 3) (bits w 21 4) (bits w 15 6))
  | 0x04 => keep (zeros w 0 16) (.xmask (bits w 25 3) (bits w 24 1) (bits w 22 2) (bits w 16 6))
  | 0x05 => keep (zeros w 0 16) (.xsts (bits w 25 3) (bits w 22 3) (bits w 16 6))
  | _ => none

/-- One word under the vector-slot map (R32). -/
def decodeVector (w : BitVec 32) : Option Instr :=
  match (bits w 25 7).toNat with
  | 0x00 => keep (zeros w 0 25) .nop
  | 0x01 => keep (true) (.vadd (bits w 19 6) (bits w 13 6) (bits w 7 6) (bits w 4 3) (bits w 0 4))
  | 0x02 => keep (true) (.vsub (bits w 19 6) (bits w 13 6) (bits w 7 6) (bits w 4 3) (bits w 0 4))
  | 0x03 => keep (true) (.vmul (bits w 19 6) (bits w 13 6) (bits w 7 6) (bits w 4 3) (bits w 0 4))
  | 0x04 => keep (true) (.vfma (bits w 19 6) (bits w 13 6) (bits w 7 6) (bits w 4 3) (bits w 0 4))
  | 0x05 => keep (true) (.vfms (bits w 19 6) (bits w 13 6) (bits w 7 6) (bits w 4 3) (bits w 0 4))
  | 0x06 => keep (true) (.vmin (bits w 19 6) (bits w 13 6) (bits w 7 6) (bits w 4 3) (bits w 0 4))
  | 0x07 => keep (true) (.vmax (bits w 19 6) (bits w 13 6) (bits w 7 6) (bits w 4 3) (bits w 0 4))
  | 0x08 => keep (zeros w 7 6) (.vabs (bits w 19 6) (bits w 13 6) (bits w 4 3) (bits w 0 4))
  | 0x09 => keep (zeros w 7 6) (.vneg (bits w 19 6) (bits w 13 6) (bits w 4 3) (bits w 0 4))
  | 0x0A => keep (true) (.vdiv (bits w 19 6) (bits w 13 6) (bits w 7 6) (bits w 4 3) (bits w 0 4))
  | 0x0B => keep (zeros w 7 3) (.vsqrt (bits w 19 6) (bits w 13 6) (bits w 10 3) (bits w 4 3) (bits w 0 4))
  | 0x0C => keep (zeros w 7 3) (.vrsq (bits w 19 6) (bits w 13 6) (bits w 10 3) (bits w 4 3) (bits w 0 4))
  | 0x0D => keep (zeros w 7 3) (.vrcp (bits w 19 6) (bits w 13 6) (bits w 10 3) (bits w 4 3) (bits w 0 4))
  | 0x0E => keep (zeros w 7 3) (.vexp2 (bits w 19 6) (bits w 13 6) (bits w 10 3) (bits w 4 3) (bits w 0 4))
  | 0x0F => keep (zeros w 7 3) (.vlog2 (bits w 19 6) (bits w 13 6) (bits w 10 3) (bits w 4 3) (bits w 0 4))
  | 0x10 => keep (zeros w 7 3) (.vtanh (bits w 19 6) (bits w 13 6) (bits w 10 3) (bits w 4 3) (bits w 0 4))
  | 0x11 => keep (zeros w 7 3) (.vsigm (bits w 19 6) (bits w 13 6) (bits w 10 3) (bits w 4 3) (bits w 0 4))
  | 0x18 => keep (true) (.viadd (bits w 19 6) (bits w 13 6) (bits w 7 6) (bits w 4 3) (bits w 0 4))
  | 0x19 => keep (true) (.visub (bits w 19 6) (bits w 13 6) (bits w 7 6) (bits w 4 3) (bits w 0 4))
  | 0x1A => keep (true) (.vimul (bits w 19 6) (bits w 13 6) (bits w 7 6) (bits w 4 3) (bits w 0 4))
  | 0x1B => keep (true) (.vimulh (bits w 19 6) (bits w 13 6) (bits w 7 6) (bits w 4 3) (bits w 0 4))
  | 0x1C => keep (true) (.vimin (bits w 19 6) (bits w 13 6) (bits w 7 6) (bits w 4 3) (bits w 0 4))
  | 0x1D => keep (true) (.vimax (bits w 19 6) (bits w 13 6) (bits w 7 6) (bits w 4 3) (bits w 0 4))
  | 0x1E => keep (true) (.vand (bits w 19 6) (bits w 13 6) (bits w 7 6) (bits w 4 3) (bits w 0 4))
  | 0x1F => keep (true) (.vor (bits w 19 6) (bits w 13 6) (bits w 7 6) (bits w 4 3) (bits w 0 4))
  | 0x20 => keep (true) (.vxor (bits w 19 6) (bits w 13 6) (bits w 7 6) (bits w 4 3) (bits w 0 4))
  | 0x21 => keep (true) (.vshl (bits w 19 6) (bits w 13 6) (bits w 7 6) (bits w 4 3) (bits w 0 4))
  | 0x22 => keep (true) (.vshr (bits w 19 6) (bits w 13 6) (bits w 7 6) (bits w 4 3) (bits w 0 4))
  | 0x23 => keep (true) (.vsar (bits w 19 6) (bits w 13 6) (bits w 7 6) (bits w 4 3) (bits w 0 4))
  | 0x24 => keep (true) (.vwadd (bits w 19 6) (bits w 13 6) (bits w 7 6) (bits w 4 3) (bits w 0 4))
  | 0x25 => keep (true) (.vwmul (bits w 19 6) (bits w 13 6) (bits w 7 6) (bits w 4 3) (bits w 0 4))
  | 0x26 => keep (true) (.vnarw (bits w 19 6) (bits w 13 6) (bits w 7 6) (bits w 4 3) (bits w 0 4))
  | 0x28 => keep (true) (.vcmp (bits w 22 3) (bits w 19 3) (bits w 13 6) (bits w 7 6) (bits w 4 3) (bits w 0 4))
  | 0x29 => keep (true) (.vsel (bits w 19 6) (bits w 13 6) (bits w 7 6) (bits w 4 3) (bits w 0 4))
  | 0x2A => keep (zeros w 0 12) (.vmop (bits w 22 3) (bits w 19 3) (bits w 16 3) (bits w 12 4))
  | 0x2C => keep (true) (.vcvt (bits w 19 6) (bits w 13 6) (bits w 10 3) (bits w 7 3) (bits w 4 3) (bits w 0 4))
  | 0x2D => keep (true) (.vscale (bits w 19 6) (bits w 13 6) (bits w 7 6) (bits w 4 3) (bits w 0 4))
  | 0x2E => keep (true) (.vpack (bits w 19 6) (bits w 13 6) (bits w 7 6) (bits w 4 3) (bits w 0 4))
  | 0x2F => keep (true) (.vunpk (bits w 19 6) (bits w 13 6) (bits w 7 6) (bits w 4 3) (bits w 0 4))
  | 0x30 => keep (zeros w 7 6) (.vmov (bits w 19 6) (bits w 13 6) (bits w 4 3) (bits w 0 4))
  | 0x31 => keep (true) (.vperm (bits w 19 6) (bits w 13 6) (bits w 7 6) (bits w 4 3) (bits w 0 4))
  | 0x32 => keep (zeros w 0 4) (.vslide (bits w 19 6) (bits w 13 6) (bits w 5 8) (bits w 4 1))
  | 0x33 => keep (true) (.vzip (bits w 19 6) (bits w 13 6) (bits w 7 6) (bits w 4 3) (bits w 0 4))
  | 0x34 => keep (true) (.vuzp (bits w 19 6) (bits w 13 6) (bits w 7 6) (bits w 4 3) (bits w 0 4))
  | 0x38 => keep (true) (.vred (bits w 19 6) (bits w 13 6) (bits w 7 6) (bits w 4 3) (bits w 0 4))
  | 0x39 => keep (true) (.vscan (bits w 19 6) (bits w 13 6) (bits w 7 6) (bits w 4 3) (bits w 0 4))
  | 0x3C => keep (zeros w 7 9) (.vld (bits w 19 6) (bits w 16 3) (bits w 4 3) (bits w 0 4))
  | 0x3D => keep (zeros w 7 9) (.vst (bits w 19 6) (bits w 16 3) (bits w 4 3) (bits w 0 4))
  | 0x3E => keep (zeros w 13 3) (.vldx (bits w 19 6) (bits w 16 3) (bits w 7 6) (bits w 4 3) (bits w 0 4))
  | 0x3F => keep (zeros w 13 3) (.vstx (bits w 19 6) (bits w 16 3) (bits w 7 6) (bits w 4 3) (bits w 0 4))
  | 0x40 => keep (zeros w 0 1) (.vdec (bits w 22 3) (bits w 19 3) (bits w 16 3) (bits w 10 6) (bits w 7 3) (bits w 6 1) (bits w 1 5))
  | 0x41 => keep (zeros w 22 3 && zeros w 7 6 && zeros w 0 4) (.vcut (bits w 19 3) (bits w 13 6) (bits w 4 3))
  | _ => none

/-- One word under the matrix column of R33. -/
def decodeMatrix (w : BitVec 32) : Option Instr :=
  match (bits w 27 5).toNat with
  | 0x00 => keep (zeros w 0 27) .nop
  | 0x01 => keep (zeros w 0 14) (.mcall (bits w 22 5) (bits w 21 1) (bits w 16 5) (bits w 14 2))
  | 0x02 => keep (zeros w 0 18) (.mlatch (bits w 22 5) (bits w 21 1) (bits w 19 2) (bits w 18 1))
  | 0x03 => keep (zeros w 0 21) (.medge (bits w 22 5) (bits w 21 1))
  | 0x04 => keep (zeros w 0 21) (.mflush (bits w 22 5) (bits w 21 1))
  | 0x05 => keep (zeros w 0 10) (.mstep (bits w 22 5) (bits w 21 1) (bits w 13 8) (bits w 10 3))
  | 0x06 => keep (zeros w 0 8) (.mrout (bits w 22 5) (bits w 21 1) (bits w 16 5) (bits w 8 8))
  | 0x07 => keep (zeros w 0 21) (.mstat (bits w 22 5) (bits w 21 1))
  | 0x08 => keep (zeros w 0 18) (.mdec (bits w 22 5) (bits w 21 1) (bits w 18 3))
  | 0x09 => keep (zeros w 0 20) (.mcut (bits w 22 5) (bits w 21 1) (bits w 20 1))
  | _ => none

/-- One word under the copy column of R33. -/
def decodeCopy (w : BitVec 32) : Option Instr :=
  match (bits w 27 5).toNat with
  | 0x00 => keep (zeros w 0 27) .nop
  | 0x01 => keep (zeros w 0 14) (.cpy (bits w 22 5) (bits w 21 1) (bits w 18 3) (bits w 15 3) (bits w 14 1))
  | 0x02 => keep (zeros w 0 14) (.cpys (bits w 22 5) (bits w 21 1) (bits w 18 3) (bits w 15 3) (bits w 14 1))
  | 0x03 => keep (zeros w 0 14) (.cpyg (bits w 22 5) (bits w 21 1) (bits w 18 3) (bits w 15 3) (bits w 14 1))
  | 0x04 => keep (zeros w 0 14) (.cpyt (bits w 22 5) (bits w 21 1) (bits w 18 3) (bits w 15 3) (bits w 14 1))
  | 0x05 => keep (zeros w 0 14) (.cpyx (bits w 22 5) (bits w 21 1) (bits w 18 3) (bits w 15 3) (bits w 14 1))
  | 0x06 => keep (zeros w 0 14) (.cpyf (bits w 22 5) (bits w 21 1) (bits w 18 3) (bits w 15 3) (bits w 14 1))
  | 0x07 => keep (zeros w 0 14) (.cpyw (bits w 22 5) (bits w 21 1) (bits w 18 3) (bits w 15 3) (bits w 14 1))
  | 0x08 => keep (zeros w 0 14) (.cpyq (bits w 22 5) (bits w 21 1) (bits w 18 3) (bits w 15 3) (bits w 14 1))
  | _ => none

/-- One word under the network column of R33. -/
def decodeNetwork (w : BitVec 32) : Option Instr :=
  match (bits w 27 5).toNat with
  | 0x00 => keep (zeros w 0 27) .nop
  | 0x01 => keep (zeros w 0 19) (.lsend (bits w 21 6) (bits w 19 2))
  | 0x02 => keep (zeros w 0 21) (.lsched (bits w 22 5) (bits w 21 1))
  | 0x03 => keep (zeros w 0 15) (.gld (bits w 22 5) (bits w 21 1) (bits w 15 6))
  | 0x04 => keep (zeros w 0 21) (.gdef (bits w 22 5) (bits w 21 1))
  | 0x05 => keep (zeros w 0 15) (.fpost (bits w 22 5) (bits w 21 1) (bits w 18 3) (bits w 15 3))
  | 0x06 => keep (zeros w 0 10) (.namo (bits w 22 5) (bits w 21 1) (bits w 18 3) (bits w 15 3) (bits w 11 4) (bits w 10 1))
  | 0x07 => keep (zeros w 0 11) (.ncas (bits w 22 5) (bits w 21 1) (bits w 18 3) (bits w 15 3) (bits w 12 3) (bits w 11 1))
  | 0x08 => keep (zeros w 0 21) (.pgmap (bits w 22 5) (bits w 21 1))
  | 0x09 => keep (zeros w 0 21) (.pgdone (bits w 22 5) (bits w 21 1))
  | _ => none

/-- The slots that may hold an operation (R30 to R33); a micro-step or a step of another agent stands in none. -/
def slotsOf : Instr → List Nat
  | .nop => [0, 1, 2, 3, 4, 5, 6, 7]
  | .wait _ _ _ => [0]
  | .waitc _ _ _ => [0]
  | .post _ _ _ _ => [0]
  | .clrf _ => [0]
  | .quiet _ => [0]
  | .segb _ => [0]
  | .brk _ => [0]
  | .trapi _ => [0]
  | .drain _ => [0]
  | .endOp => [0]
  | .add _ _ _ => [1, 2]
  | .sub _ _ _ => [1, 2]
  | .and _ _ _ => [1, 2]
  | .or _ _ _ => [1, 2]
  | .xor _ _ _ => [1, 2]
  | .andn _ _ _ => [1, 2]
  | .shl _ _ _ => [1, 2]
  | .shr _ _ _ => [1, 2]
  | .sar _ _ _ => [1, 2]
  | .rotl _ _ _ => [1, 2]
  | .min _ _ _ => [1, 2]
  | .max _ _ _ => [1, 2]
  | .minu _ _ _ => [1, 2]
  | .maxu _ _ _ => [1, 2]
  | .mov _ _ => [1, 2]
  | .mul _ _ _ => [1, 2]
  | .mulh _ _ _ => [1, 2]
  | .mulhu _ _ _ => [1, 2]
  | .div _ _ _ => [2]
  | .divu _ _ _ => [2]
  | .rem _ _ _ => [2]
  | .remu _ _ _ => [2]
  | .sel _ _ _ _ => [1, 2]
  | .clz _ _ => [1, 2]
  | .ctz _ _ => [1, 2]
  | .popc _ _ => [1, 2]
  | .bext _ _ _ => [1, 2]
  | .bins _ _ _ _ => [1, 2]
  | .sext _ _ _ => [1, 2]
  | .zext _ _ _ => [1, 2]
  | .ceq _ _ _ => [1, 2]
  | .cne _ _ _ => [1, 2]
  | .clt _ _ _ => [1, 2]
  | .cltu _ _ _ => [1, 2]
  | .cle _ _ _ => [1, 2]
  | .cleu _ _ _ => [1, 2]
  | .addi _ _ _ => [1, 2]
  | .andi _ _ _ => [1, 2]
  | .ori _ _ _ => [1, 2]
  | .xori _ _ _ => [1, 2]
  | .shli _ _ _ => [1, 2]
  | .shri _ _ _ => [1, 2]
  | .sari _ _ _ => [1, 2]
  | .ceqi _ _ _ => [1, 2]
  | .clti _ _ _ => [1, 2]
  | .cltui _ _ _ => [1, 2]
  | .lui _ _ => [1, 2]
  | .movi _ _ => [1, 2]
  | .stg _ _ => [1, 2]
  | .stgi _ _ _ => [1, 2]
  | .srd _ _ => [2]
  | .swr _ _ => [2]
  | .ldI8 _ _ _ => [2]
  | .ldN8 _ _ _ => [2]
  | .ldI16 _ _ _ => [2]
  | .ldN16 _ _ _ => [2]
  | .ldI32 _ _ _ => [2]
  | .ldN32 _ _ _ => [2]
  | .ldI64 _ _ _ => [2]
  | .ldsI8 _ _ _ => [2]
  | .ldsN8 _ _ _ => [2]
  | .ldsI16 _ _ _ => [2]
  | .ldsN16 _ _ _ => [2]
  | .ldsI32 _ _ _ => [2]
  | .ldsN32 _ _ _ => [2]
  | .ldsI64 _ _ _ => [2]
  | .ldaI32 _ _ _ => [2]
  | .ldaN32 _ _ _ => [2]
  | .ldaI64 _ _ _ => [2]
  | .stI8 _ _ _ => [2]
  | .stI16 _ _ _ => [2]
  | .stI32 _ _ _ => [2]
  | .stI64 _ _ _ => [2]
  | .stlI32 _ _ _ => [2]
  | .stlI64 _ _ _ => [2]
  | .amoI32 _ _ _ _ _ => [2]
  | .amoI64 _ _ _ _ _ => [2]
  | .casI32 _ _ _ _ _ => [2]
  | .casI64 _ _ _ _ _ => [2]
  | .br _ _ _ => [1]
  | .jmp _ => [1]
  | .jmpi _ => [1]
  | .call _ => [1]
  | .ret => [1]
  | .loop _ _ => [1]
  | .chk _ _ => [1]
  | .tret => [1]
  | .xtov _ _ _ _ => [3]
  | .xfromv _ _ _ _ => [3]
  | .xag _ _ _ => [3]
  | .xmask _ _ _ _ => [3]
  | .xsts _ _ _ => [3]
  | .vadd _ _ _ _ _ => [4]
  | .vsub _ _ _ _ _ => [4]
  | .vmul _ _ _ _ _ => [4]
  | .vfma _ _ _ _ _ => [4]
  | .vfms _ _ _ _ _ => [4]
  | .vmin _ _ _ _ _ => [4]
  | .vmax _ _ _ _ _ => [4]
  | .vabs _ _ _ _ => [4]
  | .vneg _ _ _ _ => [4]
  | .vdiv _ _ _ _ _ => [4]
  | .vsqrt _ _ _ _ _ => [4]
  | .vrsq _ _ _ _ _ => [4]
  | .vrcp _ _ _ _ _ => [4]
  | .vexp2 _ _ _ _ _ => [4]
  | .vlog2 _ _ _ _ _ => [4]
  | .vtanh _ _ _ _ _ => [4]
  | .vsigm _ _ _ _ _ => [4]
  | .viadd _ _ _ _ _ => [4]
  | .visub _ _ _ _ _ => [4]
  | .vimul _ _ _ _ _ => [4]
  | .vimulh _ _ _ _ _ => [4]
  | .vimin _ _ _ _ _ => [4]
  | .vimax _ _ _ _ _ => [4]
  | .vand _ _ _ _ _ => [4]
  | .vor _ _ _ _ _ => [4]
  | .vxor _ _ _ _ _ => [4]
  | .vshl _ _ _ _ _ => [4]
  | .vshr _ _ _ _ _ => [4]
  | .vsar _ _ _ _ _ => [4]
  | .vwadd _ _ _ _ _ => [4]
  | .vwmul _ _ _ _ _ => [4]
  | .vnarw _ _ _ _ _ => [4]
  | .vcmp _ _ _ _ _ _ => [4]
  | .vsel _ _ _ _ _ => [4]
  | .vmop _ _ _ _ => [4]
  | .vcvt _ _ _ _ _ _ => [4]
  | .vscale _ _ _ _ _ => [4]
  | .vpack _ _ _ _ _ => [4]
  | .vunpk _ _ _ _ _ => [4]
  | .vmov _ _ _ _ => [4]
  | .vperm _ _ _ _ _ => [4]
  | .vslide _ _ _ _ => [4]
  | .vzip _ _ _ _ _ => [4]
  | .vuzp _ _ _ _ _ => [4]
  | .vred _ _ _ _ _ => [4]
  | .vscan _ _ _ _ _ => [4]
  | .vld _ _ _ _ => [4]
  | .vst _ _ _ _ => [4]
  | .vldx _ _ _ _ _ => [4]
  | .vstx _ _ _ _ _ => [4]
  | .vdec _ _ _ _ _ _ _ => [4]
  | .vcut _ _ _ => [4]
  | .mcall _ _ _ _ => [5]
  | .mlatch _ _ _ _ => [5]
  | .medge _ _ => [5]
  | .mflush _ _ => [5]
  | .mstep _ _ _ _ => [5]
  | .mrout _ _ _ _ => [5]
  | .mstat _ _ => [5]
  | .mdec _ _ _ => [5]
  | .mcut _ _ _ => [5]
  | .cpy _ _ _ _ _ => [6]
  | .cpys _ _ _ _ _ => [6]
  | .cpyg _ _ _ _ _ => [6]
  | .cpyt _ _ _ _ _ => [6]
  | .cpyx _ _ _ _ _ => [6]
  | .cpyf _ _ _ _ _ => [6]
  | .cpyw _ _ _ _ _ => [6]
  | .cpyq _ _ _ _ _ => [6]
  | .lsend _ _ => [7]
  | .lsched _ _ => [7]
  | .gld _ _ _ => [7]
  | .gdef _ _ => [7]
  | .fpost _ _ _ _ => [7]
  | .namo _ _ _ _ _ _ => [7]
  | .ncas _ _ _ _ _ _ => [7]
  | .pgmap _ _ => [7]
  | .pgdone _ _ => [7]
  | .stepEnd => []
  | .stepHead _ => []
  | .stepJoin _ => []
  | .stepAdd _ => []
  | .stepPass _ => []
  | .stepTail _ _ => []
  | .stepFill _ _ _ _ _ _ => []
  | .stepSwap _ => []
  | .stepFeed _ _ _ _ _ _ _ => []
  | .stepRepeat _ _ _ _ => []
  | .stepSync _ _ => []
  | .pendingWriteLanding _ => []
  | .streamCompletion _ _ => []
  | .vdecDecision _ _ => []
  | .watchdogExpiry _ => []
  | .segmentLanding _ => []
  | .taskCompletion _ => []
  | .matrixCommandStart _ => []
  | .fillComplete _ => []
  | .matrixCommandComplete _ => []
  | .bedRowEntry _ => []
  | .linkRowArrival _ => []
  | .rowDelivery _ => []
  | .mcallComplete _ => []
  | .lodeSwitch _ => []
  | .lodeInjection _ => []
  | .lodeDelivery _ => []
  | .copyStart _ => []
  | .retryPermit _ _ => []
  | .copyComplete _ => []
  | .networkCommandStart _ => []
  | .networkCommandComplete _ => []
  | .flagPostArrival _ => []
  | .fabricAtomic _ => []
  | .requestTranslate _ => []
  | .notify _ _ => []
  | .queuePoll _ => []
  | .launch _ => []
  | .barrier _ => []
  | .signalSet _ => []
  | .tilePlacement _ => []
  | .signalDecrement _ => []
  | .queueEnable _ => []
  | .queueDisable _ => []
  | .qctlReset _ _ => []
  | .lock => []
  | .registerWrite _ _ _ => []
  | .create => []
  | .free _ => []
  | .reserve _ => []
  | .reserveRelease _ => []
  | .alloc _ => []
  | .allocRelease _ => []
  | .tarea _ => []
  | .install _ => []
  | .image _ => []
  | .imageUnreg _ => []
  | .pager _ => []
  | .preempt _ => []
  | .quantumExpiry _ => []
  | .arm _ => []
  | .target _ => []
  | .release _ => []
  | .contextSaved _ => []
  | .resume _ => []
  | .halt => []
  | .run => []
  | .cstep => []
  | .bstep _ => []
  | .debugStepEnd _ => []
  | .read _ => []
  | .write _ => []
  | .brken => []
  | .quiesce _ => []
  | .linkstop _ => []
  | .linkstopDone _ => []
  | .writeback _ => []
  | .writebackDone _ => []
  | .drctlReset _ => []
  | .resetDone _ => []
  | .drctlRetrain _ => []
  | .trained _ _ => []
  | .admitCmd _ => []
  | .admitDone _ _ => []
  | .head => []
  | .seal => []
  | .scrub _ _ => []
  | .retire _ => []
  | .thresholdRetirement _ => []
  | .linkFailed _ => []
  | .portDown _ => []
  | .enable _ => []
  | .disable _ => []
  | .pctlRetrain _ => []
  | .cxlPortFailure _ => []
  | .clockStep _ _ => []
  | .thermalTrip _ => []
  | .measuredStart _ => []
  | .getMeasurements => []
  | .periodBoundary _ => []
  | .linkReplay _ _ _ => []
  | .portTrainingDone _ => []
  | .portDegraded _ => []
  | .cxlPortTrained _ _ => []
  | .firmwarePush _ => []

/-- The word of slot `k` (R12) by the slot's map, refused where the slot may not hold the opcode. -/
def decodeSlot (k : Nat) (w : BitVec 32) : Option Instr :=
  let r := match k with
    | 0 => decodeSync w
    | 1 => decodeScalar w
    | 2 => decodeScalar w
    | 3 => decodeTransfer w
    | 4 => decodeVector w
    | 5 => decodeMatrix w
    | 6 => decodeCopy w
    | 7 => decodeNetwork w
    | _ => none
  match r with
  | some i => if (slotsOf i).contains k then some i else none
  | none => none

/-- A micro-step word (08 R189). -/
def decodeStep (w : BitVec 64) : Option Instr :=
  match (bits w 60 4).toNat with
  | 0 => keep (zeros w 0 60) .stepEnd
  | 1 => keep (zeros w 0 52) (.stepHead (bits w 52 8))
  | 2 => keep (zeros w 0 52) (.stepJoin (bits w 52 8))
  | 3 => keep (zeros w 0 52) (.stepAdd (bits w 52 8))
  | 4 => keep (zeros w 0 52) (.stepPass (bits w 52 8))
  | 5 => keep (zeros w 0 50) (.stepTail (bits w 52 8) (bits w 50 2))
  | 6 => keep (zeros w 0 37) (.stepFill (bits w 52 8) (bits w 50 2) (bits w 49 1) (bits w 48 1) (bits w 45 3) (bits w 37 8))
  | 7 => keep (zeros w 0 52) (.stepSwap (bits w 52 8))
  | 8 =>
    if bits w 51 1 = 1#1 then
      keep (zeros w 0 22 && zeros w 42 5)
        (.stepFeed (bits w 52 8) 1#1 (bits w 47 4) 0#8 (bits w 39 3) (bits w 23 16) (bits w 22 1))
    else
      keep (zeros w 0 22)
        (.stepFeed (bits w 52 8) 0#1 (bits w 47 4) (bits w 39 8) 0#3 (bits w 23 16) (bits w 22 1))
  | 9 => keep (zeros w 0 24 && zeros w 52 8) (.stepRepeat (bits w 36 16) (bits w 28 8) (bits w 27 1) (bits w 24 3))
  | 10 => keep (zeros w 0 46 && zeros w 52 8) (.stepSync (bits w 51 1) (bits w 46 5))
  | _ => none

/-- A field placed with its lowest bit at `lo` in a word of `n` bits. -/
def field (n lo : Nat) {w : Nat} (x : BitVec w) : BitVec n := x.setWidth n <<< lo

/-- The instruction's operation word (R24 to R33): opcode and fields in their places; zero where it has none. -/
def encodeSlot : Instr → BitVec 32
  | .nop => 0#32
  | .wait f o t => field 32 27 0x01#5 ||| field 32 22 f ||| field 32 19 o ||| field 32 0 t
  | .waitc f o t => field 32 27 0x02#5 ||| field 32 22 f ||| field 32 19 o ||| field 32 0 t
  | .post f o s n => field 32 27 0x03#5 ||| field 32 22 f ||| field 32 19 o ||| field 32 16 s ||| field 32 0 n
  | .clrf f => field 32 27 0x04#5 ||| field 32 22 f
  | .quiet l => field 32 27 0x05#5 ||| field 32 0 l
  | .segb s => field 32 27 0x06#5 ||| field 32 0 s
  | .brk c => field 32 27 0x07#5 ||| field 32 0 c
  | .trapi c => field 32 27 0x08#5 ||| field 32 0 c
  | .drain s => field 32 27 0x09#5 ||| field 32 16 s
  | .endOp => field 32 27 0x0A#5
  | .add d a b => field 32 25 0x01#7 ||| field 32 19 d ||| field 32 13 a ||| field 32 7 b
  | .sub d a b => field 32 25 0x02#7 ||| field 32 19 d ||| field 32 13 a ||| field 32 7 b
  | .and d a b => field 32 25 0x03#7 ||| field 32 19 d ||| field 32 13 a ||| field 32 7 b
  | .or d a b => field 32 25 0x04#7 ||| field 32 19 d ||| field 32 13 a ||| field 32 7 b
  | .xor d a b => field 32 25 0x05#7 ||| field 32 19 d ||| field 32 13 a ||| field 32 7 b
  | .andn d a b => field 32 25 0x06#7 ||| field 32 19 d ||| field 32 13 a ||| field 32 7 b
  | .shl d a b => field 32 25 0x07#7 ||| field 32 19 d ||| field 32 13 a ||| field 32 7 b
  | .shr d a b => field 32 25 0x08#7 ||| field 32 19 d ||| field 32 13 a ||| field 32 7 b
  | .sar d a b => field 32 25 0x09#7 ||| field 32 19 d ||| field 32 13 a ||| field 32 7 b
  | .rotl d a b => field 32 25 0x0A#7 ||| field 32 19 d ||| field 32 13 a ||| field 32 7 b
  | .min d a b => field 32 25 0x0B#7 ||| field 32 19 d ||| field 32 13 a ||| field 32 7 b
  | .max d a b => field 32 25 0x0C#7 ||| field 32 19 d ||| field 32 13 a ||| field 32 7 b
  | .minu d a b => field 32 25 0x0D#7 ||| field 32 19 d ||| field 32 13 a ||| field 32 7 b
  | .maxu d a b => field 32 25 0x0E#7 ||| field 32 19 d ||| field 32 13 a ||| field 32 7 b
  | .mov d a => field 32 25 0x0F#7 ||| field 32 19 d ||| field 32 13 a
  | .mul d a b => field 32 25 0x10#7 ||| field 32 19 d ||| field 32 13 a ||| field 32 7 b
  | .mulh d a b => field 32 25 0x11#7 ||| field 32 19 d ||| field 32 13 a ||| field 32 7 b
  | .mulhu d a b => field 32 25 0x12#7 ||| field 32 19 d ||| field 32 13 a ||| field 32 7 b
  | .div d a b => field 32 25 0x13#7 ||| field 32 19 d ||| field 32 13 a ||| field 32 7 b
  | .divu d a b => field 32 25 0x14#7 ||| field 32 19 d ||| field 32 13 a ||| field 32 7 b
  | .rem d a b => field 32 25 0x15#7 ||| field 32 19 d ||| field 32 13 a ||| field 32 7 b
  | .remu d a b => field 32 25 0x16#7 ||| field 32 19 d ||| field 32 13 a ||| field 32 7 b
  | .sel d a b c => field 32 25 0x17#7 ||| field 32 19 d ||| field 32 13 a ||| field 32 7 b ||| field 32 0 c
  | .clz d a => field 32 25 0x18#7 ||| field 32 19 d ||| field 32 13 a
  | .ctz d a => field 32 25 0x19#7 ||| field 32 19 d ||| field 32 13 a
  | .popc d a => field 32 25 0x1A#7 ||| field 32 19 d ||| field 32 13 a
  | .bext d a b => field 32 25 0x1B#7 ||| field 32 19 d ||| field 32 13 a ||| field 32 7 b
  | .bins d a b c => field 32 25 0x1C#7 ||| field 32 19 d ||| field 32 13 a ||| field 32 7 b ||| field 32 0 c
  | .sext d a n => field 32 25 0x1D#7 ||| field 32 19 d ||| field 32 13 a ||| field 32 0 n
  | .zext d a n => field 32 25 0x1E#7 ||| field 32 19 d ||| field 32 13 a ||| field 32 0 n
  | .ceq d a b => field 32 25 0x20#7 ||| field 32 19 d ||| field 32 13 a ||| field 32 7 b
  | .cne d a b => field 32 25 0x21#7 ||| field 32 19 d ||| field 32 13 a ||| field 32 7 b
  | .clt d a b => field 32 25 0x22#7 ||| field 32 19 d ||| field 32 13 a ||| field 32 7 b
  | .cltu d a b => field 32 25 0x23#7 ||| field 32 19 d ||| field 32 13 a ||| field 32 7 b
  | .cle d a b => field 32 25 0x24#7 ||| field 32 19 d ||| field 32 13 a ||| field 32 7 b
  | .cleu d a b => field 32 25 0x25#7 ||| field 32 19 d ||| field 32 13 a ||| field 32 7 b
  | .addi d a i => field 32 25 0x28#7 ||| field 32 19 d ||| field 32 13 a ||| field 32 0 i
  | .andi d a i => field 32 25 0x29#7 ||| field 32 19 d ||| field 32 13 a ||| field 32 0 i
  | .ori d a i => field 32 25 0x2A#7 ||| field 32 19 d ||| field 32 13 a ||| field 32 0 i
  | .xori d a i => field 32 25 0x2B#7 ||| field 32 19 d ||| field 32 13 a ||| field 32 0 i
  | .shli d a n => field 32 25 0x2C#7 ||| field 32 19 d ||| field 32 13 a ||| field 32 0 n
  | .shri d a n => field 32 25 0x2D#7 ||| field 32 19 d ||| field 32 13 a ||| field 32 0 n
  | .sari d a n => field 32 25 0x2E#7 ||| field 32 19 d ||| field 32 13 a ||| field 32 0 n
  | .ceqi d a i => field 32 25 0x2F#7 ||| field 32 19 d ||| field 32 13 a ||| field 32 0 i
  | .clti d a i => field 32 25 0x30#7 ||| field 32 19 d ||| field 32 13 a ||| field 32 0 i
  | .cltui d a i => field 32 25 0x31#7 ||| field 32 19 d ||| field 32 13 a ||| field 32 0 i
  | .lui d i => field 32 25 0x32#7 ||| field 32 19 d ||| field 32 0 i
  | .movi d i => field 32 25 0x33#7 ||| field 32 19 d ||| field 32 0 i
  | .stg s a => field 32 25 0x38#7 ||| field 32 19 s ||| field 32 13 a
  | .stgi s q i => field 32 25 0x39#7 ||| field 32 19 s ||| field 32 17 q ||| field 32 1 i
  | .srd d r => field 32 25 0x3A#7 ||| field 32 19 d ||| field 32 0 r
  | .swr a r => field 32 25 0x3B#7 ||| field 32 13 a ||| field 32 0 r
  | .ldI8 d b o => field 32 25 0x40#7 ||| field 32 19 d ||| field 32 13 b ||| field 32 0 o
  | .ldN8 d b o => field 32 25 0x41#7 ||| field 32 19 d ||| field 32 13 b ||| field 32 0 o
  | .ldI16 d b o => field 32 25 0x42#7 ||| field 32 19 d ||| field 32 13 b ||| field 32 0 o
  | .ldN16 d b o => field 32 25 0x43#7 ||| field 32 19 d ||| field 32 13 b ||| field 32 0 o
  | .ldI32 d b o => field 32 25 0x44#7 ||| field 32 19 d ||| field 32 13 b ||| field 32 0 o
  | .ldN32 d b o => field 32 25 0x45#7 ||| field 32 19 d ||| field 32 13 b ||| field 32 0 o
  | .ldI64 d b o => field 32 25 0x46#7 ||| field 32 19 d ||| field 32 13 b ||| field 32 0 o
  | .ldsI8 d b o => field 32 25 0x48#7 ||| field 32 19 d ||| field 32 13 b ||| field 32 0 o
  | .ldsN8 d b o => field 32 25 0x49#7 ||| field 32 19 d ||| field 32 13 b ||| field 32 0 o
  | .ldsI16 d b o => field 32 25 0x4A#7 ||| field 32 19 d ||| field 32 13 b ||| field 32 0 o
  | .ldsN16 d b o => field 32 25 0x4B#7 ||| field 32 19 d ||| field 32 13 b ||| field 32 0 o
  | .ldsI32 d b o => field 32 25 0x4C#7 ||| field 32 19 d ||| field 32 13 b ||| field 32 0 o
  | .ldsN32 d b o => field 32 25 0x4D#7 ||| field 32 19 d ||| field 32 13 b ||| field 32 0 o
  | .ldsI64 d b o => field 32 25 0x4E#7 ||| field 32 19 d ||| field 32 13 b ||| field 32 0 o
  | .ldaI32 d b o => field 32 25 0x50#7 ||| field 32 19 d ||| field 32 13 b ||| field 32 0 o
  | .ldaN32 d b o => field 32 25 0x51#7 ||| field 32 19 d ||| field 32 13 b ||| field 32 0 o
  | .ldaI64 d b o => field 32 25 0x52#7 ||| field 32 19 d ||| field 32 13 b ||| field 32 0 o
  | .stI8 d b o => field 32 25 0x54#7 ||| field 32 19 d ||| field 32 13 b ||| field 32 0 o
  | .stI16 d b o => field 32 25 0x55#7 ||| field 32 19 d ||| field 32 13 b ||| field 32 0 o
  | .stI32 d b o => field 32 25 0x56#7 ||| field 32 19 d ||| field 32 13 b ||| field 32 0 o
  | .stI64 d b o => field 32 25 0x57#7 ||| field 32 19 d ||| field 32 13 b ||| field 32 0 o
  | .stlI32 d b o => field 32 25 0x58#7 ||| field 32 19 d ||| field 32 13 b ||| field 32 0 o
  | .stlI64 d b o => field 32 25 0x59#7 ||| field 32 19 d ||| field 32 13 b ||| field 32 0 o
  | .amoI32 d a b k o => field 32 25 0x5A#7 ||| field 32 19 d ||| field 32 13 a ||| field 32 7 b ||| field 32 3 k ||| field 32 0 o
  | .amoI64 d a b k o => field 32 25 0x5B#7 ||| field 32 19 d ||| field 32 13 a ||| field 32 7 b ||| field 32 3 k ||| field 32 0 o
  | .casI32 d a b c x => field 32 25 0x5C#7 ||| field 32 19 d ||| field 32 13 a ||| field 32 7 b ||| field 32 1 c ||| field 32 0 x
  | .casI64 d a b c x => field 32 25 0x5D#7 ||| field 32 19 d ||| field 32 13 a ||| field 32 7 b ||| field 32 1 c ||| field 32 0 x
  | .br c a o => field 32 25 0x60#7 ||| field 32 21 c ||| field 32 15 a ||| field 32 0 o
  | .jmp o => field 32 25 0x61#7 ||| field 32 0 o
  | .jmpi a => field 32 25 0x62#7 ||| field 32 13 a
  | .call o => field 32 25 0x63#7 ||| field 32 0 o
  | .ret => field 32 25 0x64#7
  | .loop a o => field 32 25 0x65#7 ||| field 32 15 a ||| field 32 0 o
  | .chk a o => field 32 25 0x66#7 ||| field 32 15 a ||| field 32 0 o
  | .tret => field 32 25 0x67#7
  | .xtov v s l m => field 32 28 0x01#4 ||| field 32 22 v ||| field 32 16 s ||| field 32 8 l ||| field 32 6 m
  | .xfromv v d l m => field 32 28 0x02#4 ||| field 32 22 v ||| field 32 16 d ||| field 32 8 l ||| field 32 6 m
  | .xag g p s => field 32 28 0x03#4 ||| field 32 25 g ||| field 32 21 p ||| field 32 15 s
  | .xmask m x q s => field 32 28 0x04#4 ||| field 32 25 m ||| field 32 24 x ||| field 32 22 q ||| field 32 16 s
  | .xsts z e d => field 32 28 0x05#4 ||| field 32 25 z ||| field 32 22 e ||| field 32 16 d
  | .vadd d a b m t => field 32 25 0x01#7 ||| field 32 19 d ||| field 32 13 a ||| field 32 7 b ||| field 32 4 m ||| field 32 0 t
  | .vsub d a b m t => field 32 25 0x02#7 ||| field 32 19 d ||| field 32 13 a ||| field 32 7 b ||| field 32 4 m ||| field 32 0 t
  | .vmul d a b m t => field 32 25 0x03#7 ||| field 32 19 d ||| field 32 13 a ||| field 32 7 b ||| field 32 4 m ||| field 32 0 t
  | .vfma d a b m t => field 32 25 0x04#7 ||| field 32 19 d ||| field 32 13 a ||| field 32 7 b ||| field 32 4 m ||| field 32 0 t
  | .vfms d a b m t => field 32 25 0x05#7 ||| field 32 19 d ||| field 32 13 a ||| field 32 7 b ||| field 32 4 m ||| field 32 0 t
  | .vmin d a b m t => field 32 25 0x06#7 ||| field 32 19 d ||| field 32 13 a ||| field 32 7 b ||| field 32 4 m ||| field 32 0 t
  | .vmax d a b m t => field 32 25 0x07#7 ||| field 32 19 d ||| field 32 13 a ||| field 32 7 b ||| field 32 4 m ||| field 32 0 t
  | .vabs d a m t => field 32 25 0x08#7 ||| field 32 19 d ||| field 32 13 a ||| field 32 4 m ||| field 32 0 t
  | .vneg d a m t => field 32 25 0x09#7 ||| field 32 19 d ||| field 32 13 a ||| field 32 4 m ||| field 32 0 t
  | .vdiv d a b m t => field 32 25 0x0A#7 ||| field 32 19 d ||| field 32 13 a ||| field 32 7 b ||| field 32 4 m ||| field 32 0 t
  | .vsqrt d a r m t => field 32 25 0x0B#7 ||| field 32 19 d ||| field 32 13 a ||| field 32 10 r ||| field 32 4 m ||| field 32 0 t
  | .vrsq d a r m t => field 32 25 0x0C#7 ||| field 32 19 d ||| field 32 13 a ||| field 32 10 r ||| field 32 4 m ||| field 32 0 t
  | .vrcp d a r m t => field 32 25 0x0D#7 ||| field 32 19 d ||| field 32 13 a ||| field 32 10 r ||| field 32 4 m ||| field 32 0 t
  | .vexp2 d a r m t => field 32 25 0x0E#7 ||| field 32 19 d ||| field 32 13 a ||| field 32 10 r ||| field 32 4 m ||| field 32 0 t
  | .vlog2 d a r m t => field 32 25 0x0F#7 ||| field 32 19 d ||| field 32 13 a ||| field 32 10 r ||| field 32 4 m ||| field 32 0 t
  | .vtanh d a r m t => field 32 25 0x10#7 ||| field 32 19 d ||| field 32 13 a ||| field 32 10 r ||| field 32 4 m ||| field 32 0 t
  | .vsigm d a r m t => field 32 25 0x11#7 ||| field 32 19 d ||| field 32 13 a ||| field 32 10 r ||| field 32 4 m ||| field 32 0 t
  | .viadd d a b m t => field 32 25 0x18#7 ||| field 32 19 d ||| field 32 13 a ||| field 32 7 b ||| field 32 4 m ||| field 32 0 t
  | .visub d a b m t => field 32 25 0x19#7 ||| field 32 19 d ||| field 32 13 a ||| field 32 7 b ||| field 32 4 m ||| field 32 0 t
  | .vimul d a b m t => field 32 25 0x1A#7 ||| field 32 19 d ||| field 32 13 a ||| field 32 7 b ||| field 32 4 m ||| field 32 0 t
  | .vimulh d a b m t => field 32 25 0x1B#7 ||| field 32 19 d ||| field 32 13 a ||| field 32 7 b ||| field 32 4 m ||| field 32 0 t
  | .vimin d a b m t => field 32 25 0x1C#7 ||| field 32 19 d ||| field 32 13 a ||| field 32 7 b ||| field 32 4 m ||| field 32 0 t
  | .vimax d a b m t => field 32 25 0x1D#7 ||| field 32 19 d ||| field 32 13 a ||| field 32 7 b ||| field 32 4 m ||| field 32 0 t
  | .vand d a b m t => field 32 25 0x1E#7 ||| field 32 19 d ||| field 32 13 a ||| field 32 7 b ||| field 32 4 m ||| field 32 0 t
  | .vor d a b m t => field 32 25 0x1F#7 ||| field 32 19 d ||| field 32 13 a ||| field 32 7 b ||| field 32 4 m ||| field 32 0 t
  | .vxor d a b m t => field 32 25 0x20#7 ||| field 32 19 d ||| field 32 13 a ||| field 32 7 b ||| field 32 4 m ||| field 32 0 t
  | .vshl d a b m t => field 32 25 0x21#7 ||| field 32 19 d ||| field 32 13 a ||| field 32 7 b ||| field 32 4 m ||| field 32 0 t
  | .vshr d a b m t => field 32 25 0x22#7 ||| field 32 19 d ||| field 32 13 a ||| field 32 7 b ||| field 32 4 m ||| field 32 0 t
  | .vsar d a b m t => field 32 25 0x23#7 ||| field 32 19 d ||| field 32 13 a ||| field 32 7 b ||| field 32 4 m ||| field 32 0 t
  | .vwadd d a b m t => field 32 25 0x24#7 ||| field 32 19 d ||| field 32 13 a ||| field 32 7 b ||| field 32 4 m ||| field 32 0 t
  | .vwmul d a b m t => field 32 25 0x25#7 ||| field 32 19 d ||| field 32 13 a ||| field 32 7 b ||| field 32 4 m ||| field 32 0 t
  | .vnarw d a b m t => field 32 25 0x26#7 ||| field 32 19 d ||| field 32 13 a ||| field 32 7 b ||| field 32 4 m ||| field 32 0 t
  | .vcmp c d a b m t => field 32 25 0x28#7 ||| field 32 22 c ||| field 32 19 d ||| field 32 13 a ||| field 32 7 b ||| field 32 4 m ||| field 32 0 t
  | .vsel d a b s t => field 32 25 0x29#7 ||| field 32 19 d ||| field 32 13 a ||| field 32 7 b ||| field 32 4 s ||| field 32 0 t
  | .vmop d a b f => field 32 25 0x2A#7 ||| field 32 22 d ||| field 32 19 a ||| field 32 16 b ||| field 32 12 f
  | .vcvt d a s r m t => field 32 25 0x2C#7 ||| field 32 19 d ||| field 32 13 a ||| field 32 10 s ||| field 32 7 r ||| field 32 4 m ||| field 32 0 t
  | .vscale d a b m t => field 32 25 0x2D#7 ||| field 32 19 d ||| field 32 13 a ||| field 32 7 b ||| field 32 4 m ||| field 32 0 t
  | .vpack d a f m t => field 32 25 0x2E#7 ||| field 32 19 d ||| field 32 13 a ||| field 32 7 f ||| field 32 4 m ||| field 32 0 t
  | .vunpk d a f m t => field 32 25 0x2F#7 ||| field 32 19 d ||| field 32 13 a ||| field 32 7 f ||| field 32 4 m ||| field 32 0 t
  | .vmov d a m t => field 32 25 0x30#7 ||| field 32 19 d ||| field 32 13 a ||| field 32 4 m ||| field 32 0 t
  | .vperm d a b m t => field 32 25 0x31#7 ||| field 32 19 d ||| field 32 13 a ||| field 32 7 b ||| field 32 4 m ||| field 32 0 t
  | .vslide d a n x => field 32 25 0x32#7 ||| field 32 19 d ||| field 32 13 a ||| field 32 5 n ||| field 32 4 x
  | .vzip d a b m t => field 32 25 0x33#7 ||| field 32 19 d ||| field 32 13 a ||| field 32 7 b ||| field 32 4 m ||| field 32 0 t
  | .vuzp d a b m t => field 32 25 0x34#7 ||| field 32 19 d ||| field 32 13 a ||| field 32 7 b ||| field 32 4 m ||| field 32 0 t
  | .vred d a f m t => field 32 25 0x38#7 ||| field 32 19 d ||| field 32 13 a ||| field 32 7 f ||| field 32 4 m ||| field 32 0 t
  | .vscan d a f m t => field 32 25 0x39#7 ||| field 32 19 d ||| field 32 13 a ||| field 32 7 f ||| field 32 4 m ||| field 32 0 t
  | .vld v g m t => field 32 25 0x3C#7 ||| field 32 19 v ||| field 32 16 g ||| field 32 4 m ||| field 32 0 t
  | .vst v g m t => field 32 25 0x3D#7 ||| field 32 19 v ||| field 32 16 g ||| field 32 4 m ||| field 32 0 t
  | .vldx v g b m t => field 32 25 0x3E#7 ||| field 32 19 v ||| field 32 16 g ||| field 32 7 b ||| field 32 4 m ||| field 32 0 t
  | .vstx v g b m t => field 32 25 0x3F#7 ||| field 32 19 v ||| field 32 16 g ||| field 32 7 b ||| field 32 4 m ||| field 32 0 t
  | .vdec d c z b m p f => field 32 25 0x40#7 ||| field 32 22 d ||| field 32 19 c ||| field 32 16 z ||| field 32 10 b ||| field 32 7 m ||| field 32 6 p ||| field 32 1 f
  | .vcut z f m => field 32 25 0x41#7 ||| field 32 19 z ||| field 32 13 f ||| field 32 4 m
  | .mcall c p r l => field 32 27 0x01#5 ||| field 32 22 c ||| field 32 21 p ||| field 32 16 r ||| field 32 14 l
  | .mlatch c p l t => field 32 27 0x02#5 ||| field 32 22 c ||| field 32 21 p ||| field 32 19 l ||| field 32 18 t
  | .medge c p => field 32 27 0x03#5 ||| field 32 22 c ||| field 32 21 p
  | .mflush c p => field 32 27 0x04#5 ||| field 32 22 c ||| field 32 21 p
  | .mstep c p i n => field 32 27 0x05#5 ||| field 32 22 c ||| field 32 21 p ||| field 32 13 i ||| field 32 10 n
  | .mrout c p e s => field 32 27 0x06#5 ||| field 32 22 c ||| field 32 21 p ||| field 32 16 e ||| field 32 8 s
  | .mstat c p => field 32 27 0x07#5 ||| field 32 22 c ||| field 32 21 p
  | .mdec c p k => field 32 27 0x08#5 ||| field 32 22 c ||| field 32 21 p ||| field 32 18 k
  | .mcut c p a => field 32 27 0x09#5 ||| field 32 22 c ||| field 32 21 p ||| field 32 20 a
  | .cpy c p r s f => field 32 27 0x01#5 ||| field 32 22 c ||| field 32 21 p ||| field 32 18 r ||| field 32 15 s ||| field 32 14 f
  | .cpys c p r s f => field 32 27 0x02#5 ||| field 32 22 c ||| field 32 21 p ||| field 32 18 r ||| field 32 15 s ||| field 32 14 f
  | .cpyg c p r s f => field 32 27 0x03#5 ||| field 32 22 c ||| field 32 21 p ||| field 32 18 r ||| field 32 15 s ||| field 32 14 f
  | .cpyt c p r s f => field 32 27 0x04#5 ||| field 32 22 c ||| field 32 21 p ||| field 32 18 r ||| field 32 15 s ||| field 32 14 f
  | .cpyx c p r s f => field 32 27 0x05#5 ||| field 32 22 c ||| field 32 21 p ||| field 32 18 r ||| field 32 15 s ||| field 32 14 f
  | .cpyf c p r s f => field 32 27 0x06#5 ||| field 32 22 c ||| field 32 21 p ||| field 32 18 r ||| field 32 15 s ||| field 32 14 f
  | .cpyw c p r s f => field 32 27 0x07#5 ||| field 32 22 c ||| field 32 21 p ||| field 32 18 r ||| field 32 15 s ||| field 32 14 f
  | .cpyq c p r s f => field 32 27 0x08#5 ||| field 32 22 c ||| field 32 21 p ||| field 32 18 r ||| field 32 15 s ||| field 32 14 f
  | .lsend v q => field 32 27 0x01#5 ||| field 32 21 v ||| field 32 19 q
  | .lsched c p => field 32 27 0x02#5 ||| field 32 22 c ||| field 32 21 p
  | .gld c p g => field 32 27 0x03#5 ||| field 32 22 c ||| field 32 21 p ||| field 32 15 g
  | .gdef c p => field 32 27 0x04#5 ||| field 32 22 c ||| field 32 21 p
  | .fpost c p o s => field 32 27 0x05#5 ||| field 32 22 c ||| field 32 21 p ||| field 32 18 o ||| field 32 15 s
  | .namo c p o s k w => field 32 27 0x06#5 ||| field 32 22 c ||| field 32 21 p ||| field 32 18 o ||| field 32 15 s ||| field 32 11 k ||| field 32 10 w
  | .ncas c p o s f w => field 32 27 0x07#5 ||| field 32 22 c ||| field 32 21 p ||| field 32 18 o ||| field 32 15 s ||| field 32 12 f ||| field 32 11 w
  | .pgmap c p => field 32 27 0x08#5 ||| field 32 22 c ||| field 32 21 p
  | .pgdone c p => field 32 27 0x09#5 ||| field 32 22 c ||| field 32 21 p
  | .stepEnd => 0#32
  | .stepHead _ => 0#32
  | .stepJoin _ => 0#32
  | .stepAdd _ => 0#32
  | .stepPass _ => 0#32
  | .stepTail _ _ => 0#32
  | .stepFill _ _ _ _ _ _ => 0#32
  | .stepSwap _ => 0#32
  | .stepFeed _ _ _ _ _ _ _ => 0#32
  | .stepRepeat _ _ _ _ => 0#32
  | .stepSync _ _ => 0#32
  | .pendingWriteLanding _ => 0#32
  | .streamCompletion _ _ => 0#32
  | .vdecDecision _ _ => 0#32
  | .watchdogExpiry _ => 0#32
  | .segmentLanding _ => 0#32
  | .taskCompletion _ => 0#32
  | .matrixCommandStart _ => 0#32
  | .fillComplete _ => 0#32
  | .matrixCommandComplete _ => 0#32
  | .bedRowEntry _ => 0#32
  | .linkRowArrival _ => 0#32
  | .rowDelivery _ => 0#32
  | .mcallComplete _ => 0#32
  | .lodeSwitch _ => 0#32
  | .lodeInjection _ => 0#32
  | .lodeDelivery _ => 0#32
  | .copyStart _ => 0#32
  | .retryPermit _ _ => 0#32
  | .copyComplete _ => 0#32
  | .networkCommandStart _ => 0#32
  | .networkCommandComplete _ => 0#32
  | .flagPostArrival _ => 0#32
  | .fabricAtomic _ => 0#32
  | .requestTranslate _ => 0#32
  | .notify _ _ => 0#32
  | .queuePoll _ => 0#32
  | .launch _ => 0#32
  | .barrier _ => 0#32
  | .signalSet _ => 0#32
  | .tilePlacement _ => 0#32
  | .signalDecrement _ => 0#32
  | .queueEnable _ => 0#32
  | .queueDisable _ => 0#32
  | .qctlReset _ _ => 0#32
  | .lock => 0#32
  | .registerWrite _ _ _ => 0#32
  | .create => 0#32
  | .free _ => 0#32
  | .reserve _ => 0#32
  | .reserveRelease _ => 0#32
  | .alloc _ => 0#32
  | .allocRelease _ => 0#32
  | .tarea _ => 0#32
  | .install _ => 0#32
  | .image _ => 0#32
  | .imageUnreg _ => 0#32
  | .pager _ => 0#32
  | .preempt _ => 0#32
  | .quantumExpiry _ => 0#32
  | .arm _ => 0#32
  | .target _ => 0#32
  | .release _ => 0#32
  | .contextSaved _ => 0#32
  | .resume _ => 0#32
  | .halt => 0#32
  | .run => 0#32
  | .cstep => 0#32
  | .bstep _ => 0#32
  | .debugStepEnd _ => 0#32
  | .read _ => 0#32
  | .write _ => 0#32
  | .brken => 0#32
  | .quiesce _ => 0#32
  | .linkstop _ => 0#32
  | .linkstopDone _ => 0#32
  | .writeback _ => 0#32
  | .writebackDone _ => 0#32
  | .drctlReset _ => 0#32
  | .resetDone _ => 0#32
  | .drctlRetrain _ => 0#32
  | .trained _ _ => 0#32
  | .admitCmd _ => 0#32
  | .admitDone _ _ => 0#32
  | .head => 0#32
  | .seal => 0#32
  | .scrub _ _ => 0#32
  | .retire _ => 0#32
  | .thresholdRetirement _ => 0#32
  | .linkFailed _ => 0#32
  | .portDown _ => 0#32
  | .enable _ => 0#32
  | .disable _ => 0#32
  | .pctlRetrain _ => 0#32
  | .cxlPortFailure _ => 0#32
  | .clockStep _ _ => 0#32
  | .thermalTrip _ => 0#32
  | .measuredStart _ => 0#32
  | .getMeasurements => 0#32
  | .periodBoundary _ => 0#32
  | .linkReplay _ _ _ => 0#32
  | .portTrainingDone _ => 0#32
  | .portDegraded _ => 0#32
  | .cxlPortTrained _ _ => 0#32
  | .firmwarePush _ => 0#32

/-- The micro-step's word (08 R189): KIND and fields in their places; zero where it has none. -/
def encodeStep : Instr → BitVec 64
  | .stepEnd => 0#64
  | .stepHead s => field 64 60 1#4 ||| field 64 52 s
  | .stepJoin s => field 64 60 2#4 ||| field 64 52 s
  | .stepAdd s => field 64 60 3#4 ||| field 64 52 s
  | .stepPass s => field 64 60 4#4 ||| field 64 52 s
  | .stepTail s i => field 64 60 5#4 ||| field 64 52 s ||| field 64 50 i
  | .stepFill s l t r p a =>
    field 64 60 6#4 ||| field 64 52 s ||| field 64 50 l ||| field 64 49 t ||| field 64 48 r ||| field 64 45 p ||| field 64 37 a
  | .stepSwap s => field 64 60 7#4 ||| field 64 52 s
  | .stepFeed s src af ent ag n scl =>
    field 64 60 8#4 ||| field 64 52 s ||| field 64 51 src ||| field 64 47 af |||
      (if src = 1#1 then field 64 39 ag else field 64 39 ent) ||| field 64 23 n ||| field 64 22 scl
  | .stepRepeat n l c k => field 64 60 9#4 ||| field 64 36 n ||| field 64 28 l ||| field 64 27 c ||| field 64 24 k
  | .stepSync m f => field 64 60 10#4 ||| field 64 51 m ||| field 64 46 f
  | _ => 0#64

/-- Whether an instruction is a micro-step. -/
def isStep : Instr → Bool
  | .stepEnd => true
  | .stepHead _ => true
  | .stepJoin _ => true
  | .stepAdd _ => true
  | .stepPass _ => true
  | .stepTail _ _ => true
  | .stepFill _ _ _ _ _ _ => true
  | .stepSwap _ => true
  | .stepFeed _ _ _ _ _ _ _ => true
  | .stepRepeat _ _ _ _ => true
  | .stepSync _ _ => true
  | _ => false

/-- The words of an instruction, lowest first: one for a slot operation, two for a micro-step, none for a step of
another agent. -/
def encode (i : Instr) : List (BitVec 32) :=
  if isStep i then [bits (encodeStep i) 0 32, bits (encodeStep i) 32 32]
  else if slotsOf i = [] then [] else [encodeSlot i]

/-- The order in which a bare 32-bit word is read as a slot's word where nothing names the slot: the opcode table
gives a word no slot, and one word can be an operation in several slots (log entry 15). -/
def slotOrder : List Nat := [1, 2, 0, 3, 4, 5, 6, 7]

def firstSlot (w : BitVec 32) (p : Instr → Bool) : List Nat → Option (Nat × Instr)
  | [] => none
  | k :: r => match decodeSlot k w with
    | some i => if p i then some (k, i) else firstSlot w p r
    | none => firstSlot w p r

/-- The slot and operation a bare word is read as: the first slot in which it is well formed, else the first in
which it decodes. -/
def bareWord (w : BitVec 32) : Option (Nat × Instr) :=
  match firstSlot w wellFormed slotOrder with
  | some r => some r
  | none => firstSlot w (fun _ => true) slotOrder

/-- The instruction read from an instruction's bits numbered as the opcode table numbers them: 32 bits are one slot
word, 64 a micro-step word. -/
def decodeTableWord (nbits w : Nat) : Option Instr :=
  if nbits ≤ 32 then (bareWord (BitVec.ofNat 32 w)).map (·.2) else decodeStep (BitVec.ofNat 64 w)

end Sys2Proof
end

