-- ==== Sys2Proof/Machine/Windows.lean ====
section
/-! DEFINITION. The window (06 R137 to R142): contributions, merging and conversion. -/

namespace Sys2Proof.Machine

/-- The rank of a NaN cause; 0 is lowest (06 R138). The codes 9 to 15, which only a stored WSTAT can hold and R138 does not rank, stand
below its causes in the order of their numbers (log entry 99). -/
def causeRank (c : Nat) : Nat :=
  match c with
  | 6 => 15 | 7 => 14 | 1 => 13 | 2 => 12 | 3 => 11 | 4 => 10 | 8 => 9 | 5 => 8 | _ => c - 8

/-- best of R138. -/
def bestCause (a b : BitVec 4) : BitVec 4 := if causeRank a.toNat < causeRank b.toNat then b else a

/-- The cause a NaN operand supplies (R138): a field of 0 or 9..15 counts as 1. -/
def suppliedCause (b : BitVec 32) : Nat := let c := nanCause b; if c = 0 ∨ 9 ≤ c then 1 else c

/-- The cap of COUNT (R137). -/
def countCap : Nat := 2 ^ 34 + 1

/-- trunc(p / 2^ew) of a finite product (R138). -/
def truncShift (n : Bool) (m : Nat) (e ew : Int) : Int :=
  let d := e - ew
  signedMant n (if 0 ≤ d then m * 2 ^ d.toNat else m / 2 ^ (-d).toNat)

/-- One contribution counted, with OVF where COUNT passes 2^34. -/
def countOne (w : Win) : Win :=
  let c := min (w.count + 1) countCap
  { w with count := c, ovf := w.ovf || decide (2 ^ 34 < c) }

/-- A NaN contribution of a cause. -/
def addNan (w : Win) (c : Nat) : Win := { w with nanf := true, ncause := bestCause w.ncause (BitVec.ofNat 4 c) }

/-- The finite, infinite and zero-times-infinity cases of window_add. -/
def addExact (ew : Int) (w : Win) (p : Num) : Win :=
  match p with
  | .nan b => addNan w (suppliedCause b)
  | .zti => { w with zinf := true }
  | .pruned => w
  | .inf n => if n then { w with ninf := true } else { w with pinf := true }
  | .fin n m e =>
    if m = 0 then w
    else if ew + 92 ≤ (Nat.log2 m : Int) + e then { w with ovf := true }
    else { w with sum := w.sum + BitVec.ofInt 128 (truncShift n m e ew) }

/-- window_add of one number: a bias (R138). -/
def winAdd (ew : Int) (w : Win) (p : Num) : Win := addExact ew (countOne w) p

/-- The contribution of one bed product (R138, R143, R130). -/
def winProduct (ew : Int) (w : Win) (x y : Num) : Win :=
  let w := countOne w
  match x, y with
  | _, .pruned => w
  | .nan a, .nan b => addNan (addNan w (suppliedCause a)) (suppliedCause b)
  | .nan a, _ => addNan w (suppliedCause a)
  | _, .nan b => addNan w (suppliedCause b)
  | .zti, _ => addExact ew w .zti
  | _, .zti => addExact ew w .zti
  | x, y => addExact ew w ((mulNum x y).getD .zti)

/-- window_merge (R139). -/
def winMerge (a b : Win) : Win :=
  let c := min (a.count + b.count) countCap
  { sum := a.sum + b.sum, count := c, ovf := a.ovf || b.ovf || decide (2 ^ 34 < c), pinf := a.pinf || b.pinf,
    ninf := a.ninf || b.ninf, zinf := a.zinf || b.zinf, nanf := a.nanf || b.nanf, ncause := bestCause a.ncause b.ncause }

/-- WSTAT (R137). -/
def wstatOf (w : Win) : Nat :=
  w.count + (if w.ovf then 2 ^ 35 else 0) + (if w.pinf then 2 ^ 36 else 0) + (if w.ninf then 2 ^ 37 else 0) +
    (if w.zinf then 2 ^ 38 else 0) + (if w.nanf then 2 ^ 39 else 0) + 2 ^ 40 * w.ncause.toNat

/-- A window read back from SUM and WSTAT; its NCAUSE may be any code (log entry 99). -/
def winOfWords (sum : BitVec 128) (st : Word) : Win :=
  { sum := sum, count := fieldN st 0 35, ovf := anyBit st 35 1, pinf := anyBit st 36 1, ninf := anyBit st 37 1,
    zinf := anyBit st 38 1, nanf := anyBit st 39 1, ncause := bits st 40 4 }

/-- A generated NaN of the conversion: flags of its cause and of its conversion into the format (R142, R134). -/
def winNan (f : ElFmt) (mode : Mode) (cause : Nat) (fl : BitVec 6) : Nat × BitVec 6 :=
  let r := convertTo f mode (Num.nanOf cause)
  (r.1, r.2 ||| fl)

/-- window_out (R142): the code in format `f`, and the sr.fpstat bits. -/
def windowOut (ew : Int) (w : Win) (f : ElFmt) (mode : Mode) (cs : Option (BitVec 24)) : Nat × BitVec 6 :=
  let sc : ScaleVal := match cs with
    | some c => readScale c
    | none => .val 1 0
  if w.nanf then winNan f mode w.ncause.toNat 0
  else if sc == .nan then winNan f mode 2 fInvalid
  else if w.pinf && w.ninf then winNan f mode 3 fInvalid
  else if w.zinf || ((w.pinf || w.ninf) && sc == .zero) then winNan f mode 4 fInvalid
  else if w.pinf then convertTo f mode (.inf false)
  else if w.ninf then convertTo f mode (.inf true)
  else if w.ovf then winNan f mode 5 fWindow
  else
    let i := w.sum.toInt
    match sc with
    | .val m e =>
      if i = 0 then convertTo f mode (.fin (mode == 3) 0 0)
      else convertTo f mode (.fin (decide (i < 0)) (i.natAbs * m) (ew + e))
    | _ => convertTo f mode (.fin (mode == 3) 0 0)

/-- 64 empty windows. -/
def emptyWins : List Win := List.replicate 64 {}

end Sys2Proof.Machine
end

