-- ==== Sys2Proof/Machine/Fills.lean ====
section
/-! DEFINITION. Sites and latch fills: numbering of sites (00 R9), error policy (05 R118, 20 R362), reading packed
elements (06 R126), the fill descriptor and expansion (08 R178 to R182) and its clocks (15 R295, R297, R298). A fill
reads W-space when it starts, one of the readings that 08 R175 allows (log entry 17). -/

namespace Sys2Proof.Machine

/-! ## Numbers of sites -/

/-- Site j of sequencer n's segment, as die × 1024 + 32 × die row + die column (R9, 08 R172). -/
def siteOf (n j : Nat) : Nat :=
  let c := n % 128 / 16
  (n / 128) * 1024 + 32 * (16 * (c / 4) + n % 16) + 8 * (c % 4) + j

/-- The sequencer that owns a site, and its number j there. -/
def siteOwner (x : Nat) : Nat × Nat :=
  let r := x % 1024 / 32
  let col := x % 32
  ((x / 1024) * 128 + (4 * (r / 16) + col / 8) * 16 + r % 16, col % 8)

/-- A site's package number, 64 × package row + package column (R9). -/
def packageSite (x : Nat) : Nat :=
  let d := x / 1024
  64 * (32 * (d / 2) + x % 1024 / 32) + 32 * (d % 2) + x % 32

/-- The site of a package number. -/
def siteOfPackage (p : Nat) : Nat :=
  let r := p / 64
  let c := p % 64
  (2 * (r / 32) + c / 32) * 1024 + 32 * (r % 32) + c % 32

/-- The sites j of a SITES mask, ascending. -/
def sitesIn (m : BitVec 8) : List Nat := (List.range 8).filter (fun j => m.getLsbD j)

/-! ## Error policy -/

/-- Whether engine errors of sequencer state `q` escalate (20 R362, R343). -/
def escalates (s : State) (q : Seq) : Bool :=
  (match q.ctx.bind (getCtx s) with
   | some x => x.esc
   | none => false) ||
  (match q.launch with
   | some id => s.launches.any (fun l => l.id == id && l.esc)
   | none => false)

/-- An engine error of sequencer `n` (05 R118, 08 R198, 12 R261): nothing, or the fatal error 0x0A under the policy. -/
def engineError (s : State) (n slot : Nat) (bundle : BitVec 11) : State :=
  if escalates s (getSeq s n) then chargeFatal s n 0x0A slot bundle 0 else s

/-! ## Packed elements -/

/-- `w` ≤ 8 bits, or 16 at an even byte, or whole bytes, from bit `b` of a byte string upward (06 R126). -/
def packedCode (byte : Nat → Nat) (w b : Nat) : Nat :=
  if w % 8 = 0 then leNat ((List.range (w / 8)).map (fun i => BitVec.ofNat 8 (byte (b / 8 + i))))
  else (byte (b / 8) + 256 * byte (b / 8 + 1)) / 2 ^ (b % 8) % 2 ^ w

/-- The bytes that `w` bits from bit `b` touch. -/
def packedBytes (w b : Nat) : List Nat := (List.range ((b + w - 1) / 8 - b / 8 + 1)).map (fun i => b / 8 + i)

/-- An element read under its format (06 R125, R130, R402): its number, and whether damage shows in it. -/
def readElement (f : ElFmt) (code : Nat) (scale : Option (BitVec 24 × Bool)) (bad : Bool) : Num × Bool :=
  match scale with
  | some (sc, dmg) => (scaledEl f code sc dmg bad, dmg || bad)
  | none =>
    if bad then
      match f.kind with
      | .int _ => (decodeEl f (markerOf f), true)
      | _ => (Num.nanOf 6, true)
    else (decodeEl f code, false)

/-- A scale entry of one byte (E8M0) or three (SC24) as SC24 (06 R129). -/
def scaleEntry (sck x : Nat) : BitVec 24 := if sck = 1 then BitVec.ofNat 24 (x * 2 ^ 16) else BitVec.ofNat 24 x

/-! ## The fill descriptor -/

def fdEB (d : Word) : Nat := fieldN d 0 5
def fdERow (d : Word) : Nat := fieldN d 5 12
def fdSB (d : Word) : Nat := fieldN d 17 5
def fdSRow (d : Word) : Nat := fieldN d 22 12
def fdSOff (d : Word) : Nat := fieldN d 34 7
def fdSP (d : Word) : Nat := fieldN d 41 2
def fdSites (d : Word) : BitVec 8 := bits d 48 8
/-- Reserved bits of the descriptor (R178). -/
def fdReserved (d : Word) : Bool := anyBit d 43 5 || anyBit d 56 8

/-- A fill at one site: descriptor, how many positions it is advanced (R193), transposition and element format. -/
structure FillPlan where
  site : Nat
  eb : Nat
  erow : Nat
  sb : Nat
  srow : Nat
  soff : Nat
  sp : Nat
  trans : Bool
  fmt : ElFmt
  deriving DecidableEq, Repr

/-- The plan of a descriptor advanced by `k` positions, element and scale rows alike (R178, R193). -/
def planOf (st : Site) (site : Nat) (d : Word) (k : Nat) (t : Bool) : FillPlan :=
  let e := 32 * fdERow d + fdEB d + k
  let c := 32 * fdSRow d + fdSB d + k
  { site := site, eb := e % 32, erow := e / 32, sb := c % 32, srow := c / 32, soff := fdSOff d, sp := fdSP d, trans := t,
    fmt := regEl (at' st.bank (e % 32) 0x000B0000) }

def elemBytes (p : FillPlan) : Nat := (if p.sp = 0 then 512 else 256) * p.fmt.w
def metaBytes (p : FillPlan) : Nat := if p.sp = 1 then 512 else if p.sp = 2 then 768 else 0
def elemRows (p : FillPlan) : Nat := ceilDiv (elemBytes p + metaBytes p) 2048
def scaleBytes (p : FillPlan) : Nat := if p.fmt.blk = 0 then 0 else 64 * (64 / p.fmt.blk) * p.fmt.sck

/-- A latchable format (R179). -/
def latchable (f : ElFmt) : Bool :=
  match f.kind with
  | .float g => (f.w == 16 || (!g.wide && decide (f.w ≤ 8))) && f.blk != 16
  | .int _ => decide (f.w ≤ 8) && f.blk != 16
  | _ => false

/-- Whether a site refuses a fill (R179). -/
def fillRefused (d : Word) (p : FillPlan) : Bool :=
  fdReserved d || p.sp == 3 || !latchable p.fmt || decide (3072 ≤ p.erow) || decide (3072 ≤ p.srow) ||
  (p.fmt.blk != 0 && decide (2048 < 16 * p.soff + scaleBytes p))

/-- Port clocks (R181): 128 bytes a clock, each part rounded up. -/
def portClocks (p : FillPlan) : Nat := ceilDiv (elemBytes p) 128 + ceilDiv (metaBytes p) 128 + ceilDiv (scaleBytes p) 128

/-- Whether the scale row is one of the element rows (R182). -/
def scaleShared (p : FillPlan) : Bool := p.srow == p.erow && decide ((p.sb + 32 - p.eb) % 32 < elemRows p)

/-- The openings of a fill that starts at clock `s` (R182, R297). -/
def fillOpens (p : FillPlan) (s : Nat) : List (Nat × Nat) :=
  (List.range (elemRows p)).map (fun i => ((p.eb + i) % 32, s + i)) ++
    (if p.fmt.blk = 0 ∨ scaleShared p then [] else [(p.sb, s + elemRows p)])

/-- The openings of a site as a new fill adds its own in order: those that happen, earlier fills whose opening of a bank is now the second
with that opening, and the bank at which the new fill's own is (R182). -/
structure Openings where
  pool : List (Nat × Nat)
  lost : List (Fill × Nat × Nat) := []
  stop : Option Nat := none
  deriving DecidableEq, Repr

/-- Whether opening `q` comes less than 48 clocks after opening `p` of its bank; of two in one clock the fill started later has the
second (log entry 43). -/
def opensSoon (p q : Nat × Nat) : Bool := p.1 == q.1 && decide (p.2 ≤ q.2) && decide (q.2 < p.2 + 48)

/-- An earlier fill fails at its opening `p`: that one and those after it do not happen. -/
def loseFill (w : Openings) (f : Fill) (p : Nat × Nat) : Openings :=
  { w with lost := w.lost.filter (fun x => x.1 != f) ++ [(f, p)], pool := w.pool.filter (fun o => !(f.opens.contains o && decide (p.2 ≤ o.2))) }

/-- The new fill's next opening. -/
def openOne (fills : List Fill) (w : Openings) (o : Nat × Nat) : Openings :=
  if w.stop.isSome then w
  else if w.pool.any (fun p => opensSoon p o) then { w with stop := some o.1 }
  else
    let w := fills.foldl (fun w f => match f.opens.find? (fun p => w.pool.contains p && opensSoon o p) with
      | some p => loseFill w f p
      | none => w) w
    { w with pool := w.pool ++ [o] }

/-- All of them, in order; `old` are the openings of the site, `fills` the fills under way there. -/
def openAll (old : List (Nat × Nat)) (fills : List Fill) (new : List (Nat × Nat)) : Openings := new.foldl (openOne fills) { pool := old }

/-! ## Expansion -/

/-- Byte `i` of the element area and metadata (R179). -/
def areaPlace (p : FillPlan) (i : Nat) : Nat := placeW p.site (2048 * (32 * p.erow + (p.eb + i / 2048) % 32) + i % 2048)

/-- Byte `i` of the scale array. -/
def scalePlace (p : FillPlan) (i : Nat) : Nat := placeW p.site (2048 * (32 * p.srow + p.sb) + 16 * p.soff + i)

/-- Entry `i` of the scale array and whether its bytes are damaged (R179). -/
def scaleAt (s : State) (p : FillPlan) (i : Nat) : BitVec 24 × Bool :=
  let a := scalePlace p (i * p.fmt.sck)
  (scaleEntry p.fmt.sck (readNat s a p.fmt.sck), poisoned s a p.fmt.sck)

/-- The scale of element (k, n) and whether its bytes are damaged (R179). -/
def fillScale (s : State) (p : FillPlan) (k n : Nat) : Option (BitVec 24 × Bool) :=
  if p.fmt.blk = 0 then none else some (scaleAt s p (n * (64 / p.fmt.blk) + k / p.fmt.blk))

/-- The scale entries that the latch holds: 64/BLK for each column (15 R298). -/
def fillScales (s : State) (p : FillPlan) : List (BitVec 24 × Bool) :=
  if p.fmt.blk = 0 then [] else (List.range (64 * (64 / p.fmt.blk))).map (scaleAt s p)

/-- Packed element `i` of the area, as element (k, n). -/
def fillElement (s : State) (p : FillPlan) (i k n : Nat) : Num × Bool :=
  let w := p.fmt.w
  let code := packedCode (fun x => (memGet s.mem (areaPlace p x)).toNat) w (i * w)
  let bad := (packedBytes w (i * w)).any (fun x => poisoned s (areaPlace p x) 1)
  readElement p.fmt code (fillScale s p k n) bad

/-- The sparse group of 2:4 or 4:8: its depth, kept slots and metadata width (R179). -/
def groupDepth (p : FillPlan) : Nat := if p.sp = 1 then 4 else 8

/-- The area index of kept slot `k'` of column n. -/
def slotIndex (p : FillPlan) (k' n : Nat) : Nat := if p.trans then 32 * n + k' else 64 * k' + n

/-- The metadata of entry c: its position, and whether its bytes are damaged. -/
def slotMeta (s : State) (p : FillPlan) (c : Nat) : Nat × Bool :=
  let w := if p.sp = 1 then 2 else 3
  let b := 8 * elemBytes p + c * w
  (packedCode (fun x => (memGet s.mem (areaPlace p x)).toNat) w b,
   (packedBytes w b).any (fun x => poisoned s (areaPlace p x) 1))

def ascending : List Nat → Bool
  | a :: b :: r => decide (a < b) && ascending (b :: r)
  | _ => true

/-- Element (k, n) of a sparse tile: its number, damage, and whether its group's metadata is out of order. Where the
metadata's own bytes are damaged the manual gives the group no value: free bits read as FP32 (log entry 1). A group whose metadata
is out of order is nan(0x1) throughout, its damaged scales and elements too, and counts no POISON (log entry 77). A pruned position is +0 whatever its block's scale (log entry 101). -/
def sparseElement (s : State) (p : FillPlan) (k n : Nat) : Num × Bool × Bool :=
  let g := groupDepth p
  let slots := (List.range (g / 2)).map (fun j => (k / g) * (g / 2) + j)
  let m := slots.map (fun k' => slotMeta s p (slotIndex p k' n))
  if m.any (·.2) then (decodeFloat fmtF32 (Config.freeBits 32 s.free (64 * k + n)).toNat, false, false)
  else if !ascending (m.map (·.1)) then (Num.nanOf 1, false, true)
  else
    match (slots.zip (m.map (·.1))).find? (fun x => x.2 == k % g) with
    | some (k', _) =>
      let r := fillElement s p (slotIndex p k' n) k n
      (r.1, r.2, false)
    | none => (.pruned, false, false)

/-- Every element of the latch, element (k, n) at 64k + n (R179, R180). -/
def expand (s : State) (p : FillPlan) : List (Num × Bool × Bool) :=
  (List.range 4096).map (fun i =>
    let k := i / 64
    let n := i % 64
    if p.sp = 0 then
      let r := fillElement s p (if p.trans then 64 * n + k else i) k n
      (r.1, r.2, false)
    else sparseElement s p k n)

/-- The damaged 8-byte words among bytes [0, n) of an area, with the index of the first byte of each (R180). -/
def damagedWords (s : State) (pl : Nat → Nat) (n : Nat) : List (Nat × Nat) :=
  (((List.range n).map (fun i => (pl i / 8, i))).filter (fun x => s.poison.contains x.1)).foldl
    (fun l x => if l.any (fun y => y.1 == x.1) then l else l ++ [x]) []

/-- The records of a fill's damaged words, each due when the transfer first reads it (15 R298, 22 R383); the scales follow
elements and metadata through the port, and a word read for both has one record (R180). -/
def fillDamage (s : State) (p : FillPlan) (start : Nat) : List PeatEvent :=
  let ev (bank clock : Nat) : PeatEvent :=
    { die := p.site / 1024, unit := 1, loc := p.site % 1024, bank := bank, kind := 0x02, syn := 3, count := 1, due := clock }
  let area := damagedWords s (areaPlace p) (elemBytes p + metaBytes p)
  area.map (fun x => ev ((p.eb + x.2 / 2048) % 32) (start + x.2 / 128)) ++
  ((damagedWords s (scalePlace p) (scaleBytes p)).filter (fun x => area.all (fun y => y.1 != x.1))).map (fun x =>
    ev p.sb (start + ceilDiv (elemBytes p) 128 + ceilDiv (metaBytes p) 128 + x.2 / 128))

/-! ## Starting and completing a fill -/

def modMx (s : State) (n : Nat) (f : Matrix → Matrix) : State := modSeq s n (fun q => { q with mx := f q.mx })

/-- An ERR bit of the matrix engine, escalated where the policy says so (R198). -/
def matrixError (s : State) (n bit : Nat) (bundle : BitVec 11) : State :=
  engineError (modMx s n (fun m => { m with err := m.err ||| (1 <<< bit) })) n 5 bundle

/-- Whether the command `owner` is in progress. -/
def ownerRuns (m : Matrix) (owner : Nat) : Bool :=
  m.running.any (fun r => r.cmd.serial == owner) || (match m.routine with
    | some r => r.serial == owner
    | none => false)

/-- A command that ends in a fault: it neither completes nor posts (05 R118 item 2). -/
def dropOwner (m : Matrix) (owner : Nat) : Matrix :=
  { m with running := m.running.filter (fun r => r.cmd.serial != owner),
           routine := match m.routine with
             | some r => if r.serial = owner then none else some r
             | none => none }

/-- A bank conflict at a site (R182): the fatal error 0x05, and the command of the second opening ends in a fault. -/
def bankConflict (s : State) (n site bank owner : Nat) (bundle : BitVec 11) : State :=
  modMx (chargeFatal s n 0x05 5 bundle (BitVec.ofNat 64 (packageSite site + 2 ^ 16 * bank))) n (dropOwner · owner)

/-- A fill under way whose opening `p` does not happen: it reads no further word, its latch keeps its value, and its command ends. -/
def failFill (s : State) (n site : Nat) (f : Fill) (p : Nat × Nat) : State :=
  let mine (e : PeatEvent) : Bool :=
    e.unit == 1 && e.die * 1024 + e.loc == site && decide (f.readAt ≤ e.due) && decide (e.due < f.doneAt) && decide (s.clock ≤ e.due)
  let s := bankConflict { s with events := s.events.filter (fun e => !mine e) } n site p.1 f.owner f.bundle
  modMx s n (fun m => { m with fills := m.fills.erase f })

/-- The openings of a fill of site `j` of sequencer `n`, now. -/
def openingsOf (s : State) (n j : Nat) (p : FillPlan) : Openings :=
  openAll (getSite s (siteOf n j)).opens ((getSeq s n).mx.fills.filter (fun f => f.site == j)) (fillOpens p s.clock)

/-- A fill of site j starts (R179 to R182, R297): refused with ERR.FMT, stopped by a bank conflict, or under way; an earlier fill that
would open a bank too soon after it fails. After a conflict at an earlier site of the command nothing further starts. A retired site answers
with an error reply, and the command ends in a fault (22 R391, log entry 79). -/
def startFill (s : State) (n j latch : Nat) (d : Word) (k : Nat) (t : Bool) (owner : Nat) (routine : Bool) (idx : Nat)
    (bundle : BitVec 11) : State :=
  let site := siteOf n j
  let st := getSite s site
  let p := planOf st site d k t
  if !ownerRuns (getSeq s n).mx owner then s
  else if st.retired then modMx s n (dropOwner · owner)
  else if fillRefused d p then matrixError s n 0 bundle
  else
    let w := openingsOf s n j p
    let st := { st with opens := w.pool.filter (fun o => decide (s.clock < o.2 + 48)) }
    let s := w.lost.foldl (fun s x => failFill s n site x.1 x.2) (setSite s site st)
    match w.stop with
    | some b => bankConflict s n site b owner bundle
    | none =>
      let start := Nat.max (s.clock + 20) st.portFree
      let fin := start + portClocks p
      let l := expand s p
      let f : Fill := { site := j, latch := latch, value := l.map (·.1), width := p.fmt.w, scales := fillScales s p,
                        pois := (l.filter (fun x => x.2.1)).length, spm := l.any (fun x => x.2.2), owner := owner, bundle := bundle,
                        routine := routine, idx := idx, opens := fillOpens p s.clock, readAt := start, doneAt := fin + 4 }
      if ownerRuns (getSeq s n).mx owner then
        let s := setSite { s with events := s.events ++ fillDamage s p start } site { st with portFree := fin }
        modMx s n (fun m => { m with fills := m.fills ++ [f] })
      else s

/-- A saturating 32-bit count. -/
def satAdd (c : BitVec 32) (k : Nat) : BitVec 32 := BitVec.ofNat 32 (min (c.toNat + k) (2 ^ 32 - 1))

/-- The latch of a completed fill takes its value; FILLS, POISON, ERR.POIS and ERR.SPM follow, charged to the command that the fill
belongs to (R180, R198, 05 R118). -/
def landFill (s : State) (n : Nat) (f : Fill) : State :=
  let site := siteOf n f.site
  let st := getSite s site
  let s := setSite s site { st with latch := st.latch.set f.latch f.value, latchW := st.latchW.set f.latch f.width,
                                    latchScale := st.latchScale.set f.latch f.scales }
  let s := modMx s n (fun m => { m with fillCount := m.fillCount + 1, poisonCount := satAdd m.poisonCount f.pois })
  let s := if f.spm then matrixError s n 1 f.bundle else s
  if f.pois = 0 then s else matrixError s n 2 f.bundle

end Sys2Proof.Machine
end

