-- ==== Sys2Proof/Machine/Streams.lean ====
section
/-! DEFINITION. Digit streams (11 R229 to R242): VDEC and VCUT, and the steps in which results land, streams complete
and decisions are made. -/

namespace Sys2Proof.Machine

/-- The type by which a stream's lanes compare: a register with VALID = 0 names .f32 (R231). -/
def streamTy (z : Stream) : Nat := if z.valid then z.st.toNat else 0

/-- The lanes a stream register will hold: completed values, fills, or zero where VALID = 0 (R225, R234). -/
def completedLanes (z : Stream) : VReg := if z.valid || z.cut != 0 then z.value else []

/-- The decisions of VDEC for every lane (R230). -/
def decisions (cc ty : Nat) (v thr : VReg) : Mask :=
  let l := zipLanes (fun _ x y => if (cmpCode cc ty (codeOf ty [x]) (codeOf ty [y])).1 then 1 else 0) v thr
  maskOf (fun i => at' l i 0 != 0)

/-- The clocks from issue to a VDEC's landing (R231): the deadline, or the next clock for an empty scope. -/
def vdecBound (z : Stream) (scope : Mask) : Nat := if scope == 0 then 1 else streamWait z + 2

/-- VDEC (11 R229 to R232). -/
def execVdec (d c z : BitVec 3) (b : BitVec 6) (m : BitVec 3) (p : BitVec 1) (f : BitVec 5) (s : State) : Out :=
  runSlot 4 (.vdec d c z b m p f) (fun s u =>
    let k := z.toNat
    let st := at' u.start.z k {}
    let scope := predicate s.free u.start m
    let thr := mapLanes (fun _ x => x) (vectorOperand s.free u.start false 1 b)
    let bits := decisions c.toNat (streamTy st) (completedLanes st) thr
    let v : Vdec := { md := d, cc := c, pe := p == 1, flag := f, scope := scope, thr := thr, bits := bits,
                      left := vdecBound st scope, issued := u.start.sr.sched }
    mapWork u (fun q =>
      let q := abandonVdec s.free q k
      { q with z := q.z.set k { at' q.z k {} with vdec := some v, decided := 0 } })) s

/-- VCUT (11 R233, R234): the lanes of mk take the fill, for every later reader. -/
def execVcut (z : BitVec 3) (f : BitVec 6) (m : BitVec 3) (s : State) : Out :=
  runSlot 4 (.vcut z f m) (fun s u =>
    let k := z.toNat
    let cut := predicate s.free u.start m
    let fill := vectorOperand s.free u.start false 1 f
    mapWork u (fun q =>
      let st := at' q.z k {}
      { q with z := q.z.set k { st with value := mergeLanes cut fill (completedLanes st), cut := st.cut ||| cut } })) s

/-! ## Steps of the sequencer's own engines -/

/-- PENDING_WRITE_LANDING: every entry of sequencer `n` whose bound has run out lands (05 R110). -/
def execPendingWriteLanding (n : Nat) (s : State) : Out :=
  if 512 ≤ n then .fault (.noSuchUnit "sequencer" n)
  else if (getSeq s n).pending.any (fun e => e.left == 0) then
    .next { modSeq s n (fun q => landDue (breakLanding s.free q)) with free := s.free + 1 }
  else .refused (.notEnabled "PENDING_WRITE_LANDING")

/-- STREAM_COMPLETION: at C the uncut lanes of stream register `z` hold their completed values (11 R226). -/
def execStreamCompletion (n z : Nat) (s : State) : Out :=
  if 512 ≤ n then .fault (.noSuchUnit "sequencer" n)
  else
    let r := at' (getSeq s n).z z {}
    if r.valid && r.left == 0 && !r.done then .next (modSeq s n (fun q => completeStream q z))
    else .refused (.notEnabled "STREAM_COMPLETION")

/-- VDEC_DECISION: the in-scope bits of the VDEC attached to stream register `z` have landed, and its flag is posted (11 R231). -/
def execVdecDecision (n z : Nat) (s : State) : Out :=
  if 512 ≤ n then .fault (.noSuchUnit "sequencer" n)
  else
    match (at' (getSeq s n).z z {}).vdec with
    | some d => if vdecDue d then .next (modSeq s n (fun q => landVdec s.clock q z d)) else .refused (.notEnabled "VDEC_DECISION")
    | none => .refused (.notEnabled "VDEC_DECISION")

end Sys2Proof.Machine
end

