-- ==== Sys2Proof/Machine/Edge.lean ====
section
/-! DEFINITION. The edge (08 R183 to R186, R198): installing a configuration, converting and placing rows, the decisions
of an armed edge (11 R236), cut elements (11 R237) and the accumulator. -/

namespace Sys2Proof.Machine

/-! ## Configuration (R183) -/

def mpOf (l : List Word) (i : Nat) : Word := at' l i 0
def edgeOty (c : List Word) : Nat := fieldN (mpOf c 0) 0 4
def edgeAcc (c : List Word) : Bool := anyBit (mpOf c 0) 7 1
def edgeBias (c : List Word) : Bool := anyBit (mpOf c 0) 8 1
def edgeCsc (c : List Word) : Bool := anyBit (mpOf c 0) 9 1
def edgeEw (c : List Word) : Int := sRead 16 (fieldN (mpOf c 0) 16 16)
def edgeOdesc (c : List Word) : BitVec 16 := bits (mpOf c 0) 32 16
def edgeBase (c : List Word) : Nat := fieldN (mpOf c 1) 0 18
def edgeStride (c : List Word) : Nat := fieldN (mpOf c 1) 18 18
def edgeBaddr (c : List Word) : Nat := fieldN (mpOf c 2) 0 18
def edgeSaddr (c : List Word) : Nat := fieldN (mpOf c 2) 18 18
def edgeThr (c : List Word) : Nat := fieldN (mpOf c 3) 0 32
def edgeFillField (c : List Word) : Nat := fieldN (mpOf c 3) 32 32

/-- The output format. -/
def edgeFmt (c : List Word) : ElFmt := if edgeOty c = 10 then descEl (edgeOdesc c) else tyEl (edgeOty c)

/-- The alignment of EBASE and ESTRIDE (R184). -/
def edgeAlign (c : List Word) : Nat := if edgeOty c = 10 then 1 else (edgeFmt c).w / 8

/-- The conditions under which MEDGE refuses (R184). -/
def edgeRefused (c : List Word) (held : Nat) : Bool :=
  decide (10 < edgeOty c) || decide (5 < fieldN (mpOf c 0) 4 3) || anyBit (mpOf c 0) 10 6 || anyBit (mpOf c 0) 48 16 ||
  (edgeOty c != 10 && edgeOdesc c != 0) || anyBit (mpOf c 1) 36 28 || anyBit (mpOf c 2) 36 28 ||
  (edgeOty c == 10 && (!descValid (edgeOdesc c) || descBlk (edgeOdesc c) != 0)) ||
  edgeBase c % Nat.max (edgeAlign c) 1 != 0 || edgeStride c % Nat.max (edgeAlign c) 1 != 0 ||
  (edgeBias c && (edgeBaddr c % 4 != 0 || decide (0x40000 < edgeBaddr c + 256))) ||
  (edgeCsc c && (edgeSaddr c % 4 != 0 || decide (0x40000 < edgeSaddr c + 256))) || held != 0

/-- A 32-bit element of a bias or scale array, and whether its bytes are damaged. -/
def edgeWord (s : State) (n a : Nat) : Nat × Bool := (readNat s (placeE n a) 4, poisoned s (placeE n a) 4)

/-- The arrays as MEDGE reads them (R184). Damaged bytes read as the marker of R402: of FP32 in a bias, of a place
without a format in a scale (log entry 18). -/
def edgeArrays (s : State) (n : Nat) (c : List Word) : List (BitVec 32) × List (BitVec 24) :=
  (if edgeBias c then (List.range 64).map (fun i =>
      let x := edgeWord s n (edgeBaddr c + 4 * i)
      if x.2 then 0x7FD80000 else BitVec.ofNat 32 x.1) else [],
   if edgeCsc c then (List.range 64).map (fun i =>
      let x := edgeWord s n (edgeSaddr c + 4 * i)
      if x.2 then 0xFFFFFF else BitVec.ofNat 24 x.1) else [])

/-- The records of damaged words that MEDGE reads (22 R383). -/
def edgeDamage (s : State) (n : Nat) (c : List Word) : List PeatEvent :=
  ((if edgeBias c then damagedWords s (fun i => placeE n (edgeBaddr c + i)) 256 else []) ++
   (if edgeCsc c then damagedWords s (fun i => placeE n (edgeSaddr c + i)) 256 else [])).map (fun _ => damage n 3 1)

/-- MEDGE's start (R184): RM 0 takes sr.vmode at issue. -/
def startMedge (s : State) (n : Nat) (c : Command) : State :=
  let s := modMx s n (fun m => { m with target := m.target.map (fun t => { t with edgeChanged := true }) })
  if edgeRefused c.stage (getSeq s n).mx.acc.length then matrixError s n 3 c.bundle
  else
    let rm := bits (mpOf c.stage 0) 4 3
    let a := edgeArrays s n c.stage
    let e : Edge := { cfg := c.stage.take 4, mode := if rm = 0 then c.vmode else rm, bias := a.1, scale := a.2 }
    modMx { s with events := s.events ++ edgeDamage s n c.stage } n (fun m => { m with edge := some e })

/-! ## Placing a row (R185) -/

/-- Bytes written to E-space; those past 0x3_FFFF set ERR.OOB and count (R185). -/
def edgeStore (s : State) (n a : Nat) (l : List Byte) (bundle : BitVec 11) : State :=
  let k := 0x40000 - a
  let s := writeBytes s (placeE n a) (l.take k)
  if l.length ≤ k then s
  else matrixError (modMx s n (fun m => { m with oobCount := satAdd m.oobCount (l.length - k) })) n 5 bundle

/-- Codes of `w` bits packed into bytes (06 R126). -/
def packCodes (w : Nat) (l : List Nat) : List Byte :=
  leBytes (ceilDiv (w * l.length) 8) (l.foldr (fun c a => c % 2 ^ w + 2 ^ w * a) 0)

/-- The address of row `r`. -/
def rowAddr (c : List Word) (r : Nat) : Nat := edgeBase c + r * edgeStride c

/-- A row of 64 codes of a format other than .w. -/
def placeCodes (s : State) (n : Nat) (e : Edge) (r : Nat) (l : List Nat) (bundle : BitVec 11) : State :=
  edgeStore s n (rowAddr e.cfg r) (packCodes (edgeFmt e.cfg).w l) bundle

/-- A row of 64 windows under .w (R185). -/
def placeWindows (s : State) (n : Nat) (e : Edge) (r : Nat) (l : List Win) (bundle : BitVec 11) : State :=
  edgeStore s n (rowAddr e.cfg r)
    (l.flatMap (fun w => leBytes 16 w.sum.toNat) ++ l.flatMap (fun w => leBytes 8 (wstatOf w))) bundle

/-- The windows of a row after the bias (R185). -/
def biased (e : Edge) (l : List Win) : List Win :=
  if edgeBias e.cfg then
    (l.zip e.bias).map (fun x => winAdd (edgeEw e.cfg) x.1 (decodeFloat fmtF32 x.2.toNat))
  else l

/-- The flag of column `k`'s bias, read as an operand (06 R122). -/
def biasFlag (e : Edge) (k : Nat) : BitVec 6 := if edgeBias e.cfg then sigFlag [decodeFloat fmtF32 (at' e.bias k 0).toNat] else 0

/-- The converted codes and flags of a row (R185, 06 R142), those of reading its biases among them. -/
def rowCodes (e : Edge) (l : List Win) : List (Nat × BitVec 6) :=
  (biased e l).zipIdx.map (fun x =>
    let y := windowOut (edgeEw e.cfg) x.1 (edgeFmt e.cfg) e.mode (if edgeCsc e.cfg then some (at' e.scale x.2 0) else none)
    (y.1, y.2 ||| biasFlag e x.2))

/-- FILL as a code of the output format (11 R236). -/
def fillCode (c : List Word) : Nat :=
  if edgeOty c = 8 then wrapN 64 (sRead 32 (edgeFillField c)) else edgeFillField c % 2 ^ (edgeFmt c).w

/-! ## Decisions and cuts (11 R235 to R237) -/

def armCut (a : Arming) : Bool := anyBit a.stage 18 1
def armDw (a : Arming) : Bool := anyBit a.stage 19 1
def armFlag (a : Arming) : Nat := fieldN a.stage 20 5
def armPe (a : Arming) : Bool := anyBit a.stage 25 1
def armBase (a : Arming) : Nat := fieldN a.stage 0 18

/-- Whether column `k` of row `r` is cut. -/
def isCut (cuts : List (Word × Nat)) (r k : Nat) : Bool := cuts.any (fun c => decide (c.2 ≤ r) && c.1.getLsbD k)

/-- MDEC's predicate on an output code. -/
def edgePredicate (e : Edge) (a : Arming) (v : Nat) : Bool :=
  compareNum a.cc.toNat (decodeEl (edgeFmt e.cfg) v) (decodeFloat fmtF32 (edgeThr e.cfg))

/-- The code written in column `k` of row `r` whose conversion is `y`, and the decision. -/
def finalCode (e : Edge) (t : Target) (r k y : Nat) : Nat × Bool :=
  let c := isCut t.cuts r k
  let v := if c then fillCode e.cfg else y
  match t.arm with
  | some a =>
    let p := edgePredicate e a v
    (if armCut a && p then fillCode e.cfg else v, p)
  | none => (v, false)

def finalCodes (e : Edge) (t : Target) (r : Nat) (l : List Nat) : List (Nat × Bool) :=
  l.zipIdx.map (fun x => finalCode e t r x.2 x.1)

/-- A row's elements and decision word, as first written or rewritten. -/
def placeDecided (s : State) (n : Nat) (e : Edge) (t : Target) (r : Nat) (l : List Nat) (bundle : BitVec 11) : State :=
  let f := finalCodes e t r l
  let s := placeCodes s n e r (f.map (·.1)) bundle
  match t.arm with
  | some a =>
    if armDw a then edgeStore s n (armBase a + 8 * r) (packCodes 1 (f.map (fun x => if x.2 then 1 else 0))) bundle else s
  | none => s

/-- The flags that a row's conversion and its comparison with THR set (06 R122, 07 R156; log entry 98): none from an element written as FILL
(11 R236). -/
def rowFlags (e : Edge) (t : Target) (r : Nat) (l : List (Nat × BitVec 6)) : BitVec 6 :=
  let thr : BitVec 6 := if t.arm.isSome then sigFlag [decodeFloat fmtF32 (edgeThr e.cfg)] else 0
  l.zipIdx.foldl (fun f x =>
    let y := finalCode e t r x.2 x.1.1
    let cutByArm : Bool := match t.arm with
      | some a => armCut a && y.2
      | none => false
    if isCut t.cuts r x.2 || cutByArm then f else f ||| x.1.2 ||| thr) 0

/-- A row delivered to an edge with neither .w nor ACC (R185, 11 R236); a cut row is a row of FILL (11 R237). -/
def writeDelivered (s : State) (n : Nat) (e : Edge) (t : Target) (r : Nat) (row : Row) (bundle : BitVec 11) : State :=
  let t := if row.cut then { t with cuts := t.cuts ++ [(BitVec.allOnes 64, r)] } else t
  let l := if row.cut then List.replicate 64 (0, 0) else rowCodes e row.wins
  let cutCount := ((List.range 64).filter (isCut t.cuts r)).length
  let s := modSeq s n (fun q => bumpCounter (orFpstat q (rowFlags e t r l)) 3 cutCount)
  let s := placeDecided s n e t r (l.map (·.1)) bundle
  match t.arm with
  | some a => if armPe a then postFlag s n (armFlag a) 1 else s
  | none => s

/-- `l` with element `i` replaced by `f` of it, grown with `d` to hold it. -/
def growAt {α : Type} (l : List α) (i : Nat) (d : α) (f : α → α) : List α :=
  (l ++ List.replicate (i + 1 - l.length) d).set i (f (at' l i d))

/-- deliver(A, r) (R185): a merge into the accumulator, or a write. A cut row is written under .w as empty windows, and merged
under ACC as such (11 R237). Where an MEDGE has installed OTY .w or ACC since the MDEC was armed, the row makes no decision and posts no
row flag (11 R236; log entry 133). -/
def deliverRow (s : State) (n : Nat) (row : Row) (bundle : BitVec 11) : State :=
  let m := (getSeq s n).mx
  let t : Target := m.target.getD {}
  let r := t.rows
  let s := modMx s n (fun m => { m with rowCount := m.rowCount + 1 })
  match m.edge with
  | none => modMx s n (fun m => { m with target := m.target.map (fun t => { t with rows := r + 1 }) })
  | some e =>
    let s :=
      if edgeAcc e.cfg then
        modMx s n (fun m => { m with acc := growAt m.acc r emptyWins (fun h =>
          if row.cut then h else (h.zip row.wins).map (fun x => winMerge x.1 x.2)) })
      else if edgeOty e.cfg = 9 then placeWindows s n e r (if row.cut then emptyWins else biased e row.wins) bundle
      else writeDelivered s n e t r row bundle
    let vals := if edgeAcc e.cfg ∨ edgeOty e.cfg = 9 then [] else
      (if row.cut then List.replicate 64 (BitVec.ofNat 64 (fillCode e.cfg)) else (rowCodes e row.wins).map (fun x => BitVec.ofNat 64 x.1))
    modMx s n (fun m => { m with target := m.target.map (fun t =>
      { t with rows := r + 1, values := tset t.values r vals }) })

/-- write_row(H[r], r) of an MFLUSH (R186). -/
def flushRow (s : State) (n r : Nat) (h : List Win) (bundle : BitVec 11) : State :=
  match (getSeq s n).mx.edge with
  | none => s
  | some e =>
    if edgeOty e.cfg = 9 then placeWindows s n e r (biased e h) bundle
    else
      let l := rowCodes e h
      placeCodes (modSeq s n (fun q => orFpstat q (l.foldl (fun f x => f ||| x.2) 0))) n e r (l.map (·.1)) bundle

/-! ## Commands of the edge -/

/-- MFLUSH's start (R186): the held rows go to the edge, one a clock from the next clock on (15 R300), and the accumulator is empty. -/
def startMflush (s : State) (n : Nat) (c : Command) : State :=
  modMx s n (fun m => { m with acc := [], edgeBuf := m.edgeBuf ++ m.acc.zipIdx.map (fun x =>
    { wins := x.1, ew := 0, arrive := s.clock + 1 + x.2, flush := some x.2, bundle := c.bundle }) })

/-- MSTAT's record (R198). -/
def mstatBytes (q : Seq) : List Byte :=
  let m := q.mx
  leBytes 4 m.err.toNat ++ leBytes 4 m.fillCount.toNat ++ leBytes 4 m.rowCount.toNat ++ leBytes 4 m.poisonCount.toNat ++
    leBytes 4 m.lmissCount.toNat ++ leBytes 4 m.oobCount.toNat ++ leBytes 8 q.sr.sched.toNat

/-- MSTAT's start (R198): refused, outside the window, which ends the command in a fault (05 R118), or the record written and the counts cleared under CLR. -/
def startMstat (s : State) (n : Nat) (c : Command) : State :=
  let w := mpOf c.stage 0
  let q := getSeq s n
  let a := fieldN w 5 15 * 32
  if anyBit w 20 43 then matrixError s n 3 c.bundle
  else if a < q.sr.winBase.toNat ∨ q.sr.winBase.toNat + q.sr.winSize.toNat < a + 32 then
    modMx (chargeFatal s n 0x01 5 c.bundle (BitVec.ofNat 64 a)) n (dropOwner · c.serial)
  else
    let s := writeBytes s (placeP n a) (mstatBytes q)
    if anyBit w 63 1 then
      modMx s n (fun m => { m with err := 0, fillCount := 0, rowCount := 0, poisonCount := 0, lmissCount := 0, oobCount := 0 })
    else s

/-- MDEC's start (11 R235): refused with ERR.CFG, or the next MCALL is armed. -/
def startMdec (s : State) (n : Nat) (c : Command) (cc : BitVec 3) : State :=
  let w := mpOf c.stage 0
  let bad : Bool := anyBit w 26 38 || fieldN w 0 3 != 0 || (!anyBit w 25 1 && anyBit w 20 5) ||
    (match (getSeq s n).mx.edge with
     | none => true
     | some e => edgeOty e.cfg == 9 || edgeAcc e.cfg)
  if bad then matrixError s n 3 c.bundle else modMx s n (fun m => { m with arming := some ⟨w, cc⟩ })

/-- Rows of the target already written, rewritten under its present cuts (11 R236, R237). -/
def rewriteRows (s : State) (n : Nat) (e : Edge) (t : Target) (row : Nat) (bundle : BitVec 11) :
    Table (List (BitVec 64)) → State
  | [] => s
  | (r, l) :: rest =>
    rewriteRows (if row ≤ r then placeDecided s n e t r (l.map BitVec.toNat) bundle else s) n e t row bundle rest

/-- Whether MCUT is refused (11 R237). A target without an edge configuration delivers no row, and is no ground. -/
def mcutRefused (m : Matrix) (c : Command) (all : Bool) : Bool :=
  anyBit (mpOf c.stage 1) 16 48 || (all && mpOf c.stage 0 != 0) ||
  (match m.target with
   | some t => t.edgeChanged || m.edge.any (fun e => edgeOty e.cfg == 9 || edgeAcc e.cfg)
   | none => true)

/-- MCUT's start (11 R237): refused with ERR.CFG, or the cut takes effect on the target's rows, written and to come. -/
def startMcut (s : State) (n : Nat) (c : Command) (all : Bool) : State :=
  let m := (getSeq s n).mx
  if mcutRefused m c all then matrixError s n 3 c.bundle
  else
    let row := fieldN (mpOf c.stage 1) 0 16
    let cols : Word := if all then BitVec.allOnes 64 else mpOf c.stage 0
    let t : Target := m.target.getD {}
    let t := { t with cuts := t.cuts ++ [(cols, row)] }
    let s := modMx s n (fun m => { m with target := some t,
                                          routine := if all then m.routine.map (fun r =>
                                            { r with cutRow := some (Nat.min row (r.cutRow.getD row)) }) else m.routine })
    match m.edge with
    | some e => rewriteRows s n e t row c.bundle t.values
    | none => s

end Sys2Proof.Machine
end

