-- ==== Sys2Proof/Machine/Routine.lean ====
section
/-! DEFINITION. Micro-step routines (08 R187 to R197): the checks of R192, the walk through the words of a routine, each
kind of step, and the rest of a routine that MCUT.ALL cuts short (11 R237). -/

namespace Sys2Proof.Machine

/-! ## Words, roles and chains -/

/-- Word `i` of the store, read as a step whose fields R189 allows; a damaged word is no step (22 R382, log entry 79). -/
def stepAt (q : Seq) (i : Nat) : Option Instr :=
  if q.microBad.contains i then none
  else match decodeStep (at' q.micro i 0) with
  | some x => if (slotCauses x).isEmpty then some x else none
  | none => none

def hasWest : Role → Bool
  | .addRole => true
  | .passRole => true
  | .tailRole i => i == 0
  | _ => false

def hasEast : Role → Bool
  | .tailRole _ => false
  | _ => true

def isTail : Role → Bool
  | .tailRole _ => true
  | _ => false

/-- Whether a role takes the incoming row of the west link (R194). -/
def takesIncoming : Role → Bool
  | .joinRole => true
  | .tailRole i => i == 2
  | _ => false

def roleAt (l : List (Option Role)) (j : Nat) : Option Role := (l[j]?).join

def setRoles (l : List (Option Role)) (m : BitVec 8) (r : Role) : List (Option Role) :=
  (sitesIn m).foldl (fun l j => l.set j (some r)) l

/-- The sequencer to the east on the same die row, across the causeway from dies 0 and 2 (R195). -/
def eastOf (n : Nat) : Option Nat :=
  if n % 128 / 16 % 4 < 3 then some (n + 16)
  else if (n / 128) % 2 = 0 then some (n + 128 - 48) else none

/-- The sequencer to the west. -/
def westOf (n : Nat) : Option Nat :=
  if 0 < n % 128 / 16 % 4 then some (n - 16)
  else if (n / 128) % 2 = 1 then some (n - 128 + 48) else none

/-- Whether a link crosses a causeway. -/
def crossesCauseway (n : Nat) : Bool := n % 128 / 16 % 4 == 3

/-- A FEED's rows: 0 means 65,536 (R189). -/
def countOr (c : BitVec 16) : Nat := if c = 0 then 65536 else c.toNat

/-- A REPEAT's passes (R193). -/
def repeatCount (params : List Word) (c : BitVec 16) (cp : BitVec 1) (k : BitVec 3) : Nat :=
  if cp = 1 then fieldN (at' params k.toNat 0) 0 16 else countOr c

/-- The next word after `next` is reached: open REPEATs that end just before it pass again or close (R193). -/
def closeLoops (next : Nat) : List (Nat × Nat × Nat) → Nat × List (Nat × Nat × Nat)
  | [] => (next, [])
  | (a, b, k) :: r =>
    if next = b + 1 then (if 1 < k then (a, (a, b, k - 1) :: r) else closeLoops next r) else (next, (a, b, k) :: r)

/-- A REPEAT at word `pc`: its body entered, or skipped at a count of 0. -/
def enterRepeat (pc len n : Nat) (l : List (Nat × Nat × Nat)) : Nat × List (Nat × Nat × Nat) :=
  if n = 0 then closeLoops (pc + 1 + len) l else (pc + 1, (pc + 1, pc + len, n) :: l)

/-- The latch a FILL targets at a site whose active latch is `a` (R189). -/
def fillTarget (pair : Nat) (l : BitVec 2) (rel : BitVec 1) (a : Nat) : Nat :=
  if rel = 1 then 2 * pair + (1 - a % 2) else l.toNat

/-- SWAP's new active latch. -/
def otherLatch (a : Nat) : Nat := if a % 2 = 0 then a + 1 else a - 1

/-! ## The checks of R192 -/

/-- A walk through a routine's words. -/
structure Walk where
  pc : Nat
  loops : List (Nat × Nat × Nat)
  roles : List (Option Role)
  active : List Nat
  runs : Table Nat
  tail : Nat := 0
  east : Nat := 0
  inc : Nat := 0
  posts : List (Nat × Nat) := []
  deriving DecidableEq, Repr

/-- Items 4 to 6 and 8 at one site of a FEED. -/
def siteFeeds (roles : List (Option Role)) (ss : List Nat) (n j : Nat) : Bool :=
  match roleAt roles j with
  | none => false
  | some r =>
    (!hasWest r || (decide (1 ≤ j) && ss.contains (j - 1) && (roleAt roles (j - 1)).any hasEast)) &&
    (!hasEast r || (j == 7 && (eastOf n).isSome) || (ss.contains (j + 1) && (roleAt roles (j + 1)).any hasWest)) &&
    (match r with
     | .tailRole i => i != 2 || j == 0
     | _ => true)

/-- Item 8's need of an edge configuration: some role contributes or delivers, where a FEED takes rows through it (log entry 103). -/
def needsEdge (roles : List (Option Role)) (ss : List Nat) : Bool :=
  ss.any (fun j => match roleAt roles j with
    | some .passRole => false
    | some _ => true
    | none => false)

def feedHasTail (roles : List (Option Role)) (ss : List Nat) : Bool := ss.any (fun j => (roleAt roles j).any isTail)

def feedGoesEast (roles : List (Option Role)) (ss : List Nat) : Bool := ss.contains 7 && (roleAt roles 7).any hasEast

def feedTakesWest (roles : List (Option Role)) (ss : List Nat) : Bool := ss.contains 0 && (roleAt roles 0).any takesIncoming

/-- The walk after a FEED. -/
def walkFeed (w : Walk) (ss : List Nat) (c : Nat) : Walk :=
  { w with tail := w.tail + (if feedHasTail w.roles ss then c else 0), east := w.east + (if feedGoesEast w.roles ss then c else 0),
           inc := w.inc + (if feedTakesWest w.roles ss then c else 0) }

/-- Items 9 and 10: the descriptor and the positions of one execution of a FILL. -/
def fillAllowed (params : List Word) (p : BitVec 3) (adv : BitVec 8) (e : Nat) : Bool :=
  let d := at' params p.toNat 0
  fdSP d != 3 && !fdReserved d && decide (32 * fdERow d + fdEB d + adv.toNat * e < 32 * 3072) &&
    decide (32 * fdSRow d + fdSB d + adv.toNat * e < 32 * 3072)

/-- Item 3: a REPEAT's body lies in the store, holds no END, and REPEATs in it end in it. Malformed words and a third level
of REPEAT there are found when they are walked (log entry 102). -/
def bodyAllowed (q : Seq) (pc len : Nat) : Bool :=
  decide (pc + len ≤ 255) &&
  (List.range len).all (fun i =>
    let x := pc + 1 + i
    match decodeStep (at' q.micro x 0) with
    | some .stepEnd => false
    | some (.stepRepeat _ l _ _) => decide (x + l.toNat ≤ pc + len)
    | _ => true)

/-- One word of the walk: none where a check fails, some none at END. The words of a body that is passed over are not walked (log entry 102), and a
role that no FEED takes rows through needs no edge configuration (log entry 103). -/
def walkStep (q : Seq) (n pair : Nat) (params : List Word) (w : Walk) : Option (Option Walk) :=
  let on (w : Walk) : Option (Option Walk) :=
    let c := closeLoops (w.pc + 1) w.loops
    some (some { w with pc := c.1, loops := c.2 })
  if 255 < w.pc then none
  else match stepAt q w.pc with
    | some .stepEnd => some none
    | some (.stepHead m) => on { w with roles := setRoles w.roles m .headRole }
    | some (.stepJoin m) => on { w with roles := setRoles w.roles m .joinRole }
    | some (.stepAdd m) => on { w with roles := setRoles w.roles m .addRole }
    | some (.stepPass m) => on { w with roles := setRoles w.roles m .passRole }
    | some (.stepTail m i) => on { w with roles := setRoles w.roles m (.tailRole i) }
    | some (.stepFill m l _ rel p adv) =>
      let e := tget 0 w.runs w.pc
      let ok : Bool := (sitesIn m).all (fun j =>
        let a := at' w.active j 0
        let t := fillTarget pair l rel a
        t / 2 == pair && t != a)
      if ok && fillAllowed params p adv e then on { w with runs := tset w.runs w.pc (e + 1) } else none
    | some (.stepSwap m) => on { w with active := (sitesIn m).foldl (fun l j => l.set j (otherLatch (at' l j 0))) w.active }
    | some (.stepFeed m _ _ _ _ c _) =>
      let ss := sitesIn m
      let w' := walkFeed w ss (countOr c)
      let edge : Bool := match q.mx.edge with
        | some e => !edgeAcc e.cfg || decide (w'.tail ≤ 32)
        | none => !needsEdge w.roles ss
      if ss.all (siteFeeds w.roles ss n) && decide ((ss.filter (fun j => (roleAt w.roles j).any isTail)).length ≤ 1) && edge
      then on w' else none
    | some (.stepRepeat c l cp k) =>
      if bodyAllowed q w.pc l.toNat && decide (w.loops.length < 2) then
        let r := enterRepeat w.pc l.toNat (repeatCount params c cp k) w.loops
        some (some { w with pc := r.1, loops := r.2 })
      else none
    | some (.stepSync m f) => on { w with posts := if m = 1 then w.posts ++ [(f.toNat, w.tail)] else w.posts }
    | _ => none

/-- The walk to END, or the word at which a check fails. -/
def walkAll (q : Seq) (n pair : Nat) (params : List Word) : Nat → Walk → Except Nat Walk
  | 0, w => .error w.pc
  | fuel + 1, w =>
    match walkStep q n pair params w with
    | none => .error w.pc
    | some none => .ok w
    | some (some w') => walkAll q n pair params fuel w'

/-- More words than any routine executes: two REPEATs of 65,536 passes over 255 words. -/
def walkFuel : Nat := 2 ^ 42

/-- The checks of R192 on the routine that starts at word `st`. -/
def checkRoutine (q : Seq) (n pair ls : Nat) (params : List Word) (st : Nat) : Except Nat Walk :=
  walkAll q n pair params walkFuel
    { pc := st, loops := [], roles := List.replicate 8 none, active := List.replicate 8 ls, runs := [] }

/-! ## A routine in progress -/

def modRoutine (s : State) (n : Nat) (f : Routine → Routine) : State :=
  modMx s n (fun m => { m with routine := m.routine.map f })

/-- The routine at its next word: a step takes one clock (15 R295). -/
def stepOn (clock : Nat) (r : Routine) : Routine :=
  let c := closeLoops (r.pc + 1) r.loops
  { r with pc := c.1, loops := c.2, ready := clock + 1 }

/-- Whether a SYNC post may be performed (R193): rows sent east must have left site 7 too (log entry 104). -/
def postReady (clock : Nat) (m : Matrix) (p : SyncPost) : Bool :=
  m.edgeBuf.all (fun x => decide (p.rows ≤ x.num)) && decide (p.after ≤ clock) && m.fills.all (fun f => !f.routine || decide (p.fills ≤ f.idx))

/-- SYNC posts that are due, performed in step order (R193). -/
def flushPosts (n : Nat) : Nat → State → State
  | 0, s => s
  | fuel + 1, s =>
    let m := (getSeq s n).mx
    match m.routine with
    | some r => match r.posts with
      | p :: rest =>
        if postReady s.clock m p then
          flushPosts n fuel (postFlag (modRoutine s n (fun r => { r with posts := rest })) n p.flag 1)
        else s
      | [] => s
    | none => s

/-- Every due SYNC post of sequencer `n`. -/
def performPosts (s : State) (n : Nat) : State :=
  match (getSeq s n).mx.routine with
  | some r => flushPosts n r.posts.length s
  | none => s

/-- The clock at which a row sent now leaves site 7, and when the receiver has it (15 R295): links carry one row a
clock, a causeway one in four. -/
def sendRow (n clock : Nat) (sent : List Row) (row : Row) : List Row :=
  let far := crossesCauseway n
  let last := (sent.map (·.arrive)).foldl Nat.max 0
  let left := clock + 80
  sent ++ [{ row with sentAt := left,
                      arrive := Nat.max (left + (if far then 24 else 4)) (if sent.isEmpty then 0 else last + (if far then 4 else 1)) }]

/-- A row in the order in which rows reach the edge (15 R296): by arrival, and as fed within one clock. -/
def insertRow (x : Row) : List Row → List Row
  | [] => [x]
  | y :: r => if x.arrive < y.arrive then x :: y :: r else y :: insertRow x r

/-- A row that the routine owns. -/
def Routine.row (r : Routine) (ctx : Option Nat) (wins : List Win) (ew : Int) (arrive : Nat) (cut : Bool) (num : Nat) : Row :=
  { wins := wins, ew := ew, arrive := arrive, cut := cut, num := num, ctx := ctx, entry := r.entry, bundle := r.bundle }

/-- The rest of a routine from its present word: how many rows its FEEDs would still deliver, send and take, and the
posts it would make (11 R237). -/
def restOf (q : Seq) (n : Nat) (r : Routine) : Walk :=
  let w0 : Walk := { pc := r.pc, loops := r.loops, roles := r.roles, active := r.active, runs := r.fillRuns, tail := r.fed }
  match r.feed with
  | some f =>
    match f.word with
    | .stepFeed m _ _ _ _ _ _ =>
      let w := walkFeed w0 (sitesIn m) f.rows
      let c := closeLoops (w.pc + 1) w.loops
      (walkRest q n r.pair r.params walkFuel { w with pc := c.1, loops := c.2 })
    | _ => walkRest q n r.pair r.params walkFuel w0
  | none => walkRest q n r.pair r.params walkFuel w0
where
  walkRest (q : Seq) (n pair : Nat) (params : List Word) : Nat → Walk → Walk
    | 0, w => w
    | fuel + 1, w =>
      match walkStep q n pair params w with
      | some (some w') => walkRest q n pair params fuel w'
      | _ => w

/-- The routine is cut at row ROW (11 R237): no further row is fed and no further step starts; the rows still owed are
cut rows, rows owed from the west are discarded, and the posts to come are performed in order. -/
def cutRoutine (s : State) (n : Nat) (r : Routine) : State :=
  let q := getSeq s n
  let w := restOf q n r
  let ew : Int := match q.mx.edge with
    | some e => edgeEw e.cfg
    | none => 0
  let last := (q.mx.edgeBuf.map (·.arrive)).foldl Nat.max 0
  let rows := (List.range (w.tail - r.fed)).map (fun i => r.row q.ctx emptyWins ew (Nat.max last (s.clock + i)) true (r.fed + i))
  let sent := (List.range w.east).foldl (fun l i => sendRow n (s.clock + i) l (r.row q.ctx emptyWins ew 0 true 0)) q.mx.sent
  let after := (sent.map (·.sentAt)).foldl Nat.max 0
  let posts := w.posts.map (fun p => { flag := p.1, rows := p.2, fills := r.fillsStarted, after := after : SyncPost })
  modMx s n (fun m => { m with edgeBuf := m.edgeBuf ++ rows, sent := sent, incoming := m.incoming.drop w.inc,
                               discardIn := m.discardIn + (w.inc - m.incoming.length),
                               routine := some { r with feed := none, ended := true, fed := w.tail, posts := r.posts ++ posts } })

/-- Whether the next row of a FEED with these sites would be the row at the cut (11 R237); a cut below the rows already fed acts when
MCUT starts. -/
def atCut (r : Routine) (ss : List Nat) : Bool :=
  match r.cutRow with
  | some c => feedHasTail r.roles ss && decide (c ≤ r.fed)
  | none => false

/-! ## The steps (R193) -/

/-- The next word of a routine is found damaged as it is read: a record, and the MCALL ends in a routine fault (22 R382, R383, 05 R118;
log entry 79). -/
def badStep (s : State) (n : Nat) (r : Routine) : State :=
  modMx (chargeFatal { s with events := s.events ++ [damage n 11 1] } n 0x06 5 r.bundle (BitVec.ofNat 64 r.entry)) n (dropOwner · r.serial)

/-- A step of the routine that sequencer `cur` runs; refused where none runs. -/
def routineStep (name : String) (f : State → Nat → Routine → State) (s : State) : Out :=
  match (getSeq s s.cur).mx.routine with
  | some r =>
    if r.ended then .refused (.notEnabled name)
    else .next ((if (getSeq s s.cur).microBad.contains r.pc then badStep else f) { s with free := s.free + 1 } s.cur r)
  | none => .refused (.notEnabled name)

def roleStep (m : BitVec 8) (x : Role) (s : State) (n : Nat) (r : Routine) : State :=
  modRoutine s n (fun _ => stepOn s.clock { r with roles := setRoles r.roles m x })

/-- STEP_HEAD. -/
def execStepHead (m : BitVec 8) (s : State) : Out := routineStep "STEP_HEAD" (roleStep m .headRole) s

/-- STEP_JOIN. -/
def execStepJoin (m : BitVec 8) (s : State) : Out := routineStep "STEP_JOIN" (roleStep m .joinRole) s

/-- STEP_ADD. -/
def execStepAdd (m : BitVec 8) (s : State) : Out := routineStep "STEP_ADD" (roleStep m .addRole) s

/-- STEP_PASS. -/
def execStepPass (m : BitVec 8) (s : State) : Out := routineStep "STEP_PASS" (roleStep m .passRole) s

/-- STEP_TAIL. -/
def execStepTail (m : BitVec 8) (i : BitVec 2) (s : State) : Out := routineStep "STEP_TAIL" (roleStep m (.tailRole i)) s

/-- Lode deliveries discarded (15 R301, R196): ERR.LMISS and its count. -/
def lmiss (s : State) (n k : Nat) (bundle : BitVec 11) : State :=
  if k = 0 then s else matrixError (modMx s n (fun m => { m with lmissCount := satAdd m.lmissCount k })) n 4 bundle

/-- STEP_END (R193, R197): the routine ends; deliveries still held are discarded (15 R301). -/
def execStepEnd (s : State) : Out :=
  routineStep "STEP_END" (fun s n r =>
    let held := (getSeq s n).mx.lodeBuf.length
    let s := modMx s n (fun m => { m with lodeBuf := [], routine := some { r with ended := true } })
    lmiss s n held r.bundle) s

/-- STEP_FILL (R193): a fill starts at each site; the routine goes on. -/
def execStepFill (m : BitVec 8) (l : BitVec 2) (t rel : BitVec 1) (p : BitVec 3) (adv : BitVec 8) (s : State) : Out :=
  routineStep "STEP_FILL" (fun s n r =>
    let e := tget 0 r.fillRuns r.pc
    let ss := sitesIn m
    let s := modRoutine s n (fun _ => stepOn s.clock
      { r with fillRuns := tset r.fillRuns r.pc (e + 1), fillsStarted := r.fillsStarted + ss.length })
    (ss.zipIdx).foldl (fun s x => startFill s n x.1 (fillTarget r.pair l rel (at' r.active x.1 0)) (at' r.params p.toNat 0)
      (adv.toNat * e) (t == 1) r.serial true (r.fillsStarted + x.2) r.bundle) s) s

/-- Whether fills of the routine are pending at a site of a mask. -/
def fillsPending (m : Matrix) (ss : List Nat) : Bool := m.fills.any (fun f => f.routine && ss.contains f.site)

/-- STEP_SWAP (R193, 15 R299): waits for the pending FILLs of its sites, then the other latch of the pair is active. -/
def execStepSwap (m : BitVec 8) (s : State) : Out :=
  routineStep "STEP_SWAP" (fun s n r =>
    let ss := sitesIn m
    if fillsPending (getSeq s n).mx ss then modRoutine s n (fun r => { r with ready := s.clock + 1 })
    else modRoutine s n (fun _ => stepOn s.clock
      { r with active := ss.foldl (fun l j => l.set j (otherLatch (at' l j 0))) r.active })) s

/-- STEP_FEED (R193, R296, R301): a FEED begins; held deliveries of other entries at its sites are discarded by a FEED from the lode, and kept
by a local one, which awaits none (log entry 140). A retired site answers
with an error reply, and the MCALL ends in a fault (22 R391, log entry 79). -/
def execStepFeed (m : BitVec 8) (src : BitVec 1) (af : BitVec 4) (ent : BitVec 8) (ag : BitVec 3) (c : BitVec 16) (scl : BitVec 1)
    (s : State) : Out :=
  routineStep "STEP_FEED" (fun s n r =>
    let ss := sitesIn m
    if atCut r ss then cutRoutine s n r
    else if ss.any (fun j => (getSite s (siteOf n j)).retired) then modMx s n (dropOwner · r.serial)
    else
      let f : Feed := { word := .stepFeed m src af ent ag c scl, rows := countOr c, start := s.clock,
                        next := if src = 1 then s.clock + 6 else s.clock }
      let stale (h : LodeHeld) : Bool := src == 0 && ss.contains h.site && h.entry != ent.toNat
      let gone := ((getSeq s n).mx.lodeBuf.filter stale).length
      let s := modMx s n (fun x => { x with lodeBuf := x.lodeBuf.filter (fun h => !stale h), routine := some { r with feed := some f } })
      lmiss s n gone r.bundle) s

/-- STEP_REPEAT (R193). -/
def execStepRepeat (c : BitVec 16) (l : BitVec 8) (cp : BitVec 1) (k : BitVec 3) (s : State) : Out :=
  routineStep "STEP_REPEAT" (fun s n r =>
    let x := enterRepeat r.pc l.toNat (repeatCount r.params c cp k) r.loops
    modRoutine s n (fun _ => { r with pc := x.1, loops := x.2, ready := s.clock + 1 })) s

/-- STEP_SYNC (R193): wait for the next period boundary of the lode schedule, or a post once earlier rows and fills are
done, rows sent east among them (log entry 104). -/
def execStepSync (m : BitVec 1) (f : BitVec 5) (s : State) : Out :=
  routineStep "STEP_SYNC" (fun s n r =>
    if m = 0 then modRoutine s n (fun _ => { stepOn s.clock r with waitSync := true })
    else
      let after := ((getSeq s n).mx.sent.map (·.sentAt)).foldl Nat.max 0
      let p : SyncPost := { flag := f.toNat, rows := r.fed, fills := r.fillsStarted, after := after }
      performPosts (modRoutine s n (fun _ => stepOn s.clock { r with posts := r.posts ++ [p] })) n) s

end Sys2Proof.Machine
end

