-- ==== Sys2Proof/Machine/MatrixEngine.lean ====
section
/-! DEFINITION. Steps of the matrix engine (08 R173, R191 to R197; 15 R295 to R302): commands that start and complete,
rows that enter the beds, cross links and reach edges, fills that complete. -/

namespace Sys2Proof.Machine

/-- cf and pe of a matrix command (01 R28). -/
def matrixHeader : Instr → Nat × Bool
  | .mcall c p _ _ => (c.toNat, p == 1)
  | .mlatch c p _ _ => (c.toNat, p == 1)
  | .medge c p => (c.toNat, p == 1)
  | .mflush c p => (c.toNat, p == 1)
  | .mstep c p _ _ => (c.toNat, p == 1)
  | .mrout c p _ _ => (c.toNat, p == 1)
  | .mstat c p => (c.toNat, p == 1)
  | .mdec c p _ => (c.toNat, p == 1)
  | .mcut c p _ => (c.toNat, p == 1)
  | _ => (0, false)

/-- The latch pair of an MLATCH. -/
def latchPair : Instr → Option Nat
  | .mlatch _ _ l _ => some (l.toNat / 2)
  | _ => none

/-- Commands that every later MCALL waits for (R173). -/
def blocksCall : Instr → Bool
  | .medge _ _ => true
  | .mflush _ _ => true
  | .mstep _ _ _ _ => true
  | .mrout _ _ _ _ => true
  | .mstat _ _ => true
  | _ => false

/-- The start condition of R173, and the clock after issue of R295; a command freed by a completion in a clock starts
in the next (15's timeline). -/
def matrixMayStart (clock : Nat) (m : Matrix) (c : Command) : Bool :=
  decide (c.clock < clock) &&
  match c.op with
  | .mlatch _ _ l _ =>
    m.running.all (fun r => (latchPair r.cmd.op).isNone) && decide (m.lastDone < clock) &&
      (match m.routine with
       | some r => r.pair != l.toNat / 2
       | none => true)
  | .mcall _ _ _ l =>
    m.routine.isNone && decide (m.lastDone < clock) &&
      m.running.all (fun r => !blocksCall r.cmd.op && latchPair r.cmd.op != some (l.toNat / 2))
  | .mdec _ _ _ => true
  | .mcut _ _ _ => true
  | _ => m.routine.isNone && m.running.isEmpty && decide (m.lastDone < clock)

def addRun (s : State) (n : Nat) (r : MatrixRun) : State := modMx s n (fun m => { m with running := m.running ++ [r] })

/-- MLATCH's start (R177): a fill at every site of SITES. -/
def startMlatch (s : State) (n : Nat) (c : Command) (l : BitVec 2) (t : BitVec 1) : State :=
  let d := mpOf c.stage 0
  let s := addRun s n { cmd := c, doneAt := s.clock, waitsFill := true }
  (sitesIn (fdSites d)).foldl (fun s j => startFill s n j l.toNat d 0 (t == 1) c.serial false 0 c.bundle) s

/-- MCALL's start (R191, R192): the routine runs from its entry, or a routine fault stops the context. -/
def startMcall (s : State) (n : Nat) (c : Command) (cf : BitVec 5) (p : BitVec 1) (rt : BitVec 5) (l : BitVec 2) : State :=
  let q := getSeq s n
  let pair := l.toNat / 2
  let params := c.stage.take 8
  match (q.routines[rt.toNat]?).join with
  | some st =>
    match checkRoutine q n pair l.toNat params st.toNat with
    | .ok _ =>
      let r : Routine := { serial := c.serial, entry := rt.toNat, bundle := c.bundle, cf := cf.toNat, pe := p == 1, pair := pair,
                           params := params, pc := st.toNat, active := List.replicate 8 l.toNat, ready := s.clock }
      modMx s n (fun m => { m with routine := some r, target := some { arm := m.arming }, arming := none,
                                   lastEntry := rt.toNat, lastBundle := c.bundle })
    | .error i =>
      let s := if q.microBad.contains i then { s with events := s.events ++ [damage n 11 1] } else s
      chargeFatal s n 0x06 5 c.bundle (BitVec.ofNat 64 rt.toNat)
  | none => chargeFatal s n 0x06 5 c.bundle (BitVec.ofNat 64 rt.toNat)

/-- MSTEP's words (R188). -/
def writeSteps (l : List Word) (i : Nat) : List Word → List Word
  | [] => l
  | w :: r => writeSteps (growAt l i 0 (fun _ => w)) (i + 1) r

/-- A routine that has fed rows past its cut ends at once: it feeds no further row and starts no further step (11 R237). -/
def cutNow (s : State) (n : Nat) : State :=
  match (getSeq s n).mx.routine with
  | some r => if !r.ended && r.cutRow.any (fun c => decide (c < r.fed)) then cutRoutine s n r else s
  | none => s

/-- A command leaves the queue and begins (R173, R174). -/
def startMatrix (s : State) (n : Nat) (c : Command) : State :=
  let now : MatrixRun := { cmd := c, doneAt := s.clock }
  match c.op with
  | .mlatch _ _ l t => startMlatch s n c l t
  | .mcall cf p rt l => startMcall s n c cf p rt l
  | .medge _ _ => startMedge (addRun s n now) n c
  | .mflush _ _ =>
    let held := (getSeq s n).mx.acc.length
    startMflush (addRun s n { now with doneAt := s.clock + held }) n c
  | .mstep _ _ i k =>
    modSeq (addRun s n now) n (fun q => { q with micro := writeSteps q.micro i.toNat (c.stage.take (k.toNat + 1)),
                                                 microBad := q.microBad.filter (fun x => decide (x < i.toNat ∨ i.toNat + k.toNat < x)) })
  | .mrout _ _ e st =>
    modSeq (addRun s n now) n (fun q => { q with routines := q.routines.set e.toNat (some st) })
  | .mstat _ _ => startMstat (addRun s n now) n c
  | .mdec _ _ k => startMdec (addRun s n now) n c k
  | .mcut _ _ a =>
    let m := (getSeq s n).mx
    let wait : Option Nat := if a = 1 && !mcutRefused m c true then m.routine.map (·.serial) else none
    cutNow (startMcut (addRun s n { now with waitsCall := wait }) n c (a == 1)) n
  | _ => s

/-- MATRIX_COMMAND_START: the oldest queued matrix command of sequencer `n` starts. -/
def execMatrixCommandStart (n : Nat) (s : State) : Out :=
  if 512 ≤ n then .fault (.noSuchUnit "sequencer" n)
  else
    let m := (getSeq s n).mx
    match m.queue with
    | c :: rest =>
      if matrixMayStart s.clock m c then
        .next { startMatrix (modMx s n (fun m => { m with queue := rest })) n c with free := s.free + 1 }
      else .refused (.notEnabled "MATRIX_COMMAND_START")
    | [] => .refused (.notEnabled "MATRIX_COMMAND_START")

/-- Whether a command in progress is complete. -/
def runDone (clock : Nat) (m : Matrix) (r : MatrixRun) : Bool :=
  decide (r.doneAt ≤ clock) && (!r.waitsFill || m.fills.all (fun f => f.owner != r.cmd.serial)) &&
  (match r.waitsCall with
   | some k => (match m.routine with
     | some x => x.serial != k
     | none => true)
   | none => true)

/-- MATRIX_COMMAND_COMPLETE: a command in progress other than MCALL completes and posts its flag (R173). -/
def execMatrixCommandComplete (n : Nat) (s : State) : Out :=
  if 512 ≤ n then .fault (.noSuchUnit "sequencer" n)
  else
    let m := (getSeq s n).mx
    match m.running.find? (runDone s.clock m) with
    | some r =>
      let s := modMx s n (fun m => { m with running := m.running.filter (fun x => x.cmd.serial != r.cmd.serial), lastDone := s.clock })
      let h := matrixHeader r.cmd.op
      .next (if h.2 then postFlag s n h.1 1 else s)
    | none => .refused (.notEnabled "MATRIX_COMMAND_COMPLETE")

/-- Whether the routine meets R197: SYNC posts that are due in this clock are performed in it (R300). -/
def callDone (clock : Nat) (m : Matrix) (r : Routine) : Bool :=
  r.ended && m.edgeBuf.isEmpty && m.sent.all (fun x => decide (x.sentAt ≤ clock)) && m.fills.all (fun f => !f.routine) &&
    r.posts.all (postReady clock m)

/-- MCALL_COMPLETE (R197): the routine of sequencer `n` performs the SYNC posts that are left, completes and posts. -/
def execMcallComplete (n : Nat) (s : State) : Out :=
  if 512 ≤ n then .fault (.noSuchUnit "sequencer" n)
  else
    let m := (getSeq s n).mx
    match m.routine with
    | some r =>
      if callDone s.clock m r then
        let s := modMx (performPosts s n) n (fun m => { m with routine := none, lastDone := s.clock, lodeBuf := [] })
        let s := lmiss s n m.lodeBuf.length r.bundle
        .next (if r.pe then postFlag s n r.cf 1 else s)
      else .refused (.notEnabled "MCALL_COMPLETE")
    | none => .refused (.notEnabled "MCALL_COMPLETE")

/-- FILL_COMPLETE: a fill at a site, named by its package number, completes (R180, R297). -/
def execFillComplete (site : Nat) (s : State) : Out :=
  if 4096 ≤ site then .fault (.noSuchUnit "site" site)
  else
    let o := siteOwner (siteOfPackage site)
    let n := o.1
    let m := (getSeq s n).mx
    match m.fills.find? (fun f => f.site == o.2 && decide (f.doneAt ≤ s.clock)) with
    | some f =>
      let s := modMx s n (fun m => { m with fills := m.fills.erase f })
      let s := landFill s n f
      let s := if f.routine then modRoutine s n (fun r => { r with ready := Nat.max r.ready (s.clock + 1) }) else s
      .next (performPosts s n)
    | none => .refused (.notEnabled "FILL_COMPLETE")

/-! ## Activations (R196) -/

/-- AF's format (R189): BF16 or a preset. -/
def afFormat (af : Nat) : ElFmt :=
  match af with
  | 0 => tyEl 1
  | 1 => descEl (presetDesc 3)
  | 2 => descEl (presetDesc 4)
  | 3 => descEl (presetDesc 0)
  | 4 => descEl (presetDesc 1)
  | 5 => descEl (presetDesc 2)
  | 6 => descEl (presetDesc 7)
  | 7 => descEl (presetDesc 8)
  | 8 => descEl (presetDesc 5)
  | _ => descEl (presetDesc 6)

/-- One lane of a lode delivery (R196). -/
def lodeElement (af : Nat) (scl : Bool) (l : Lane) : Num :=
  let f := afFormat af
  if scl then scaledEl f (fieldN l 0 f.w) (bits l 8 24) false false else decodeEl f (fieldN l 0 f.w)

/-- What a local feed reads for one address: the number, whether it is damaged, whether its zone cannot feed (ERR.FMT),
whether it is BF16, and the bytes read. -/
structure Fed where
  num : Num
  bad : Bool := false
  fmt : Bool := false
  wide : Bool := false
  bytes : List Nat := []

/-- The element of a zone that holds byte `a` of P-space (10 R208, 08 R196). -/
def zoneElement (s : State) (n : Nat) (q : Seq) (a : Nat) : Fed :=
  let z := a / 65536
  let f := regEl (at' q.zones z 0x000B0000)
  let float16 : Bool := match f.kind with
    | .float g => g.wide && f.w == 16
    | _ => false
  let narrow8 : Bool := f.w == 8 && f.kind != .raw && f.kind != .win
  if !float16 && !narrow8 then { num := Num.nanOf 1, fmt := true }
  else
    let size := f.w / 8
    let a := a - a % size
    let p := placeP n a
    let own := (List.range size).map (fun i => p + i)
    if f.blk = 0 then
      let r := readElement f (readNat s p size) none (poisoned s p size)
      { num := r.1, bad := r.2, wide := float16, bytes := own }
    else
      let nb := 65536 / (f.blk * f.w / 8 + f.sck)
      let e := a % 65536 / size
      if nb * f.blk ≤ e then { num := Num.nanOf 2, wide := float16 }
      else
        let sa := placeP n (z * 65536 + 65536 - f.sck * nb + f.sck * (e / f.blk))
        let r := readElement f (readNat s p size) (some (scaleEntry f.sck (readNat s sa f.sck), poisoned s sa f.sck)) (poisoned s p size)
        { num := r.1, bad := r.2, wide := float16, bytes := own ++ (List.range f.sck).map (fun i => sa + i) }

/-- The 64 activations of one site by local feed, and the generator after its pops (R196). -/
def localFeed (s : State) (n : Nat) (q : Seq) (g : Gen) : List Fed × Gen :=
  let r := genPop 64 g
  (r.1.map (fun a =>
    if genInE g then { num := Num.nanOf 1, fmt := true }
    else zoneElement s n q (clampRead (genBounds q g) (genEsz g) a)), r.2)

/-! ## A row (R194, R296) -/

/-- One row's passage through the sites of a FEED. -/
structure Pass where
  wins : List Win := emptyWins
  cut : Bool := false
  gen : Gen
  out : Option (Nat × List Win × Bool) := none
  east : Option (List Win × Bool) := none
  fed : List Fed := []
  flags : BitVec 6 := 0
  rate : Nat := 8

/-- The products of one site added to its windows (R194). -/
def siteProducts (ew : Int) (st : Site) (act : Nat) (x : List Num) (wins : List Win) : List Win :=
  let l := at' st.latch act []
  wins.zipIdx.map (fun a =>
    (List.range 64).foldl (fun w k => winProduct ew w (at' x k (.fin false 0 0)) (at' l (64 * k + a.2) (.fin false 0 0))) a.1)

/-- The flag of the operands that a site's products read, a pruned position's partner apart (06 R122, R143; log entry 98). A quiet nan(0x2) that a
fill or a feed has formed under a NaN scale sets none (06 R131; log entry 131). -/
def siteFlags (l x : List Num) : BitVec 6 :=
  let sig (a : Num) : Bool := sigFlag [a] != 0
  if l.any sig || (x.take 64).zipIdx.any (fun a => sig a.1 && (List.range 64).any (fun n => at' l (64 * a.2 + n) (.fin false 0 0) != .pruned))
  then fInvalid else 0

/-- The bed row rate as rows per four clocks (R295, R296): 8 for two a clock, 4, or 1. -/
def siteRate (w : Nat) (bf : Bool) : Nat := if w = 16 ∨ bf then 1 else if w ≠ 0 ∧ w ≤ 4 then 8 else 4

/-- One site of a row. -/
def passSite (s : State) (n : Nat) (q : Seq) (r : Routine) (f : Feed) (ew : Int) (inc : Row) (p : Pass) (j : Nat) : Pass :=
  match f.word with
  | .stepFeed _ src af ent _ _ scl =>
    let site := getSite s (siteOf n j)
    let act := at' r.active j 0
    let role := (roleAt r.roles j).getD .passRole
    let taken : List Fed × Gen :=
      if src = 1 then localFeed s n q p.gen
      else (match q.mx.lodeBuf.find? (fun h => h.site == j && h.entry == ent.toNat) with
        | some h => h.lanes.map (fun l => { num := lodeElement af.toNat (scl == 1) l, wide := af == 0 })
        | none => [], p.gen)
    let a : List Win × Bool :=
      if hasWest role then (p.wins, p.cut) else if takesIncoming role then (inc.wins, inc.cut) else (emptyWins, false)
    let x := taken.1.map (·.num)
    let idle : Bool := role == .passRole || a.2
    let w := if idle then a.1 else siteProducts ew site act x a.1
    let rate := if role = .passRole then p.rate
      else Nat.min p.rate (siteRate (at' site.latchW act 0) (taken.1.any (·.wide)))
    { wins := w, cut := a.2, gen := taken.2, fed := p.fed ++ taken.1, rate := rate,
      flags := if idle then p.flags else p.flags ||| siteFlags (at' site.latch act []) x,
      out := if isTail role then some (j, w, a.2) else p.out,
      east := if j = 7 ∧ hasEast role then some (w, a.2) else p.east }
  | _ => p

/-- When each row reaches an edge whose first free clock is `next`, and when the edge takes it: one a clock (15 R296, R300). -/
def edgeTimes : Nat → List Row → List (Nat × Nat)
  | _, [] => []
  | next, r :: rest => (r.arrive, Nat.max r.arrive next) :: edgeTimes (Nat.max r.arrive next + 1) rest

/-- Whether the edge's buffer of 64 rows holds every row at its arrival, those still in the beds among them (15 R295, R296). -/
def edgeFits (next : Nat) (rows : List Row) : Bool :=
  decide (rows.length ≤ 64) ||
    (let l := edgeTimes next rows
     l.all (fun x => decide ((l.filter (fun y => decide (y.1 ≤ x.1) && decide (x.1 < y.2))).length ≤ 64)))

/-- Whether the edge has room, when it arrives, for a row that enters now toward the TAIL of these sites. -/
def edgeRoom (clock : Nat) (m : Matrix) (roles : List (Option Role)) (ss : List Nat) : Bool :=
  match ss.find? (fun j => (roleAt roles j).any isTail) with
  | some j => edgeFits m.edgeNext (insertRow { wins := [], ew := 0, arrive := clock + 66 + 2 * j } m.edgeBuf)
  | none => true

/-- Whether the next row of the FEED may enter in this clock (R296). A row waits unconsumed at the east link (R195) from when it
leaves site 7 until its receiver takes it (log entry 28). -/
def rowReady (s : State) (n : Nat) (m : Matrix) (r : Routine) (f : Feed) : Bool :=
  match f.word with
  | .stepFeed mask src _ ent _ _ _ =>
    let ss := sitesIn mask
    atCut r ss ||
    (decide (f.next ≤ s.clock) &&
     (src == 1 || ss.all (fun j => m.lodeBuf.any (fun h => h.site == j && h.entry == ent.toNat && decide (h.clock < s.clock)))) &&
     (!feedTakesWest r.roles ss || !m.incoming.isEmpty) &&
     edgeRoom s.clock m r.roles ss &&
     (!feedGoesEast r.roles ss || match eastOf n with
       | some e => decide (((getSeq s e).mx.incoming ++ m.sent.filter (fun x => decide (x.sentAt ≤ s.clock))).length < 4)
       | none => false))
  | _ => false

/-- The first held delivery of an entry at each site of a mask leaves the buffer. -/
def takeHeld (ss : List Nat) (ent : Nat) (l : List LodeHeld) : List LodeHeld :=
  ss.foldl (fun l j => l.eraseP (fun h => h.site == j && h.entry == ent)) l

/-- The clock of the next row, and whether this one was the first of two in its clock (R295). A row at one per four clocks takes
four to enter: the next step begins after them, as 15 R299 counts a BF16 FEED (log entry 80). -/
def nextRow (clock rate : Nat) (f : Feed) : Nat × Bool :=
  if rate = 8 then (if f.half && f.next == clock then (clock + 1, false) else (clock, true))
  else if rate = 1 then (clock + 4, false) else (clock + 1, false)

/-- Damaged elements of a local feed (R196, R180): POISON, ERR.POIS, ERR.FMT, and one record for each damaged word. -/
def feedErrors (s : State) (n : Nat) (fed : List Fed) (bundle : BitVec 11) : State :=
  let bad := (fed.filter (·.bad)).length
  let ws := ((fed.flatMap (·.bytes)).filter (fun b => s.poison.contains (b / 8))).foldl
    (fun l b => if l.any (fun y => y.1 == b / 8) then l else l ++ [(b / 8, b)]) []
  let s := { s with events := s.events ++ ws.map (fun _ => damage n 2 1) }
  let s := modMx s n (fun m => { m with poisonCount := satAdd m.poisonCount bad })
  let s := if fed.any (·.fmt) then matrixError s n 0 bundle else s
  if bad = 0 then s else matrixError s n 2 bundle

/-- A row enters the beds (R194 to R196, R296); signalling NaN operands set invalid in its sequencer's sr.fpstat (06 R122; log entry 98). -/
def enterRow (s : State) (n : Nat) (r : Routine) (f : Feed) (mask : BitVec 8) (ent ag : Nat) (loc : Bool) : State :=
  let q := getSeq s n
  let m := q.mx
  let ss := sitesIn mask
  let west := feedTakesWest r.roles ss
  let ew : Int := match m.edge with
    | some e => edgeEw e.cfg
    | none => 0
  let inc : Row := m.incoming.headD { wins := emptyWins, ew := ew, arrive := 0 }
  if west && inc.ew != ew then
    modMx (chargeFatal s n 0x06 5 r.bundle (BitVec.ofNat 64 r.entry)) n (fun m => { m with routine := none })
  else
    let p := ss.foldl (passSite s n q r f ew inc) { gen := at' q.ag ag {} }
    let nr := nextRow s.clock p.rate f
    let more : Bool := decide (1 < f.rows)
    let f' : Feed := { f with rows := f.rows - 1, next := nr.1, half := nr.2 }
    let fedTail := if p.out.isSome then r.fed + 1 else r.fed
    let r' : Routine := if more then { r with feed := some f', fed := fedTail }
      else stepOn (Nat.max (s.clock + 1) nr.1 - 1) { r with feed := none, fed := fedTail }
    let s := modSeq s n (fun q => orFpstat { q with ag := if loc then q.ag.set ag p.gen else q.ag } p.flags)
    let s := modMx s n (fun m =>
      { m with routine := some r', incoming := if west then m.incoming.tail else m.incoming,
               lodeBuf := if loc then m.lodeBuf else takeHeld ss ent m.lodeBuf,
               edgeBuf := match p.out with
                 | some (j, w, c) => insertRow (r.row q.ctx w ew (s.clock + 66 + 2 * j) c r.fed) m.edgeBuf
                 | none => m.edgeBuf,
               sent := match p.east with
                 | some (w, c) => sendRow n s.clock m.sent (r.row q.ctx w ew 0 c 0)
                 | none => m.sent })
    feedErrors s n p.fed r.bundle

/-- BED_ROW_ENTRY: the next row of the FEED in progress enters the beds of sequencer `n`'s segment (R296). A site retired meanwhile
answers with an error reply, and the MCALL ends in a fault (22 R391, log entry 79). -/
def execBedRowEntry (n : Nat) (s : State) : Out :=
  if 512 ≤ n then .fault (.noSuchUnit "sequencer" n)
  else
    let m := (getSeq s n).mx
    match m.routine with
    | some r => match r.feed with
      | some f =>
        if rowReady s n m r f then
          match f.word with
          | .stepFeed mask src _ ent ag _ _ =>
            .next (if atCut r (sitesIn mask) then cutRoutine s n r
              else if (sitesIn mask).any (fun j => (getSite s (siteOf n j)).retired) then modMx s n (dropOwner · r.serial)
              else enterRow s n r f mask ent.toNat ag.toNat (src == 1))
          | _ => .refused (.notEnabled "BED_ROW_ENTRY")
        else .refused (.notEnabled "BED_ROW_ENTRY")
      | none => .refused (.notEnabled "BED_ROW_ENTRY")
    | none => .refused (.notEnabled "BED_ROW_ENTRY")

/-- Whether the row at the head of an edge's buffer is written in this clock (R300): 6 clocks after it leaves, or a held row of an
MFLUSH in its own clock. -/
def deliveryDue (clock : Nat) (m : Matrix) : Bool :=
  match m.edgeBuf with
  | r :: _ => if r.flush.isSome then decide (r.arrive ≤ clock) else decide (Nat.max r.arrive m.edgeNext + 6 ≤ clock)
  | [] => false

/-- ROW_DELIVERY: the oldest row at the edge of sequencer `n` is merged or written, or a held row is flushed (R185, R186, R300). -/
def execRowDelivery (n : Nat) (s : State) : Out :=
  if 512 ≤ n then .fault (.noSuchUnit "sequencer" n)
  else
    let m := (getSeq s n).mx
    match m.edgeBuf with
    | row :: rest =>
      if deliveryDue s.clock m then
        match row.flush with
        | some r => .next (flushRow (modMx s n (fun m => { m with edgeBuf := rest })) n r row.wins row.bundle)
        | none =>
          let s := modMx s n (fun m => { m with edgeBuf := rest, edgeNext := Nat.max row.arrive m.edgeNext + 1 })
          .next (performPosts (deliverRow s n row row.bundle) n)
      else .refused (.notEnabled "ROW_DELIVERY")
    | [] => .refused (.notEnabled "ROW_DELIVERY")

/-- Whether a link into sequencer `n` carries rows: a causeway whose dies are stopped carries none (15 R302). -/
def linkOpen (s : State) (n : Nat) : Bool :=
  match westOf n with
  | some w => !crossesCauseway w ||
      (decide ((tget {} s.dies (n / 128)).st < 2) && decide ((tget {} s.dies (w / 128)).st < 2) &&
        (tget {} s.links (4 + n / 256)).st == 2)
  | none => false

/-- LINK_ROW_ARRIVAL: the oldest row on the link into sequencer `n` arrives (R195, 15 R295), or is discarded where a cut
routine owed to take it (11 R237). -/
def execLinkRowArrival (n : Nat) (s : State) : Out :=
  if 512 ≤ n then .fault (.noSuchUnit "sequencer" n)
  else match westOf n with
    | some w =>
      match (getSeq s w).mx.sent with
      | row :: rest =>
        if row.arrive ≤ s.clock && linkOpen s n then
          let s := modMx (if crossesCauseway w then passLink s (4 + w / 256) else s) w (fun m => { m with sent := rest })
          .next (modMx s n (fun m =>
            if 0 < m.discardIn then { m with discardIn := m.discardIn - 1 } else { m with incoming := m.incoming ++ [row] }))
        else .refused (.notEnabled "LINK_ROW_ARRIVAL")
      | [] => .refused (.notEnabled "LINK_ROW_ARRIVAL")
    | none => .refused (.notEnabled "LINK_ROW_ARRIVAL")

end Sys2Proof.Machine
end

