-- ==== Sys2Proof/Machine/Lodes.lean ====
section
/-! DEFINITION. The lode of a cluster: switches and period boundaries (13 R268), injection (R270) and delivery (R269,
08 R196, 15 R301). -/

namespace Sys2Proof.Machine

/-- The sequencers of a cluster. -/
def clusterSeqs (cl : Nat) : List Nat := (List.range 16).map (fun i => 16 * cl + i)

/-- Whether an LSEND of the cluster has issued and is not injected. -/
def lsendQueued (s : State) (cl : Nat) : Bool := (clusterSeqs cl).any (fun n => (getSeq s n).net.queue.any (fun c => isLsend c.op))

/-- Whether the switch of a cluster may happen in this clock (R268): its clock has come, and every vector of the running
table has been delivered. -/
def switchDue (s : State) (cl : Nat) : Bool :=
  let l := getLode s cl
  (match l.waiting with
   | some w => decide (w.2 ≤ s.clock)
   | none => false) && l.deliver.isEmpty && !lsendQueued s cl

/-- LODE_SWITCH (R268, R270). -/
def execLodeSwitch (cl : Nat) (s : State) : Out :=
  if 32 ≤ cl then .fault (.noSuchUnit "cluster" cl)
  else if switchDue s cl then
    let l := getLode s cl
    .next (setLode s cl { l with table := l.waiting.map (·.1), origin := s.clock, waiting := none, counts := List.replicate 16 0,
                                 boundarySeen := 0 })
  else .refused (.notEnabled "LODE_SWITCH")

/-- Whether this clock is cycle 0 of a period of the running table, and not yet seen. -/
def boundaryDue (s : State) (cl : Nat) : Bool :=
  let l := getLode s cl
  match l.table with
  | some t => !t.entries.isEmpty && decide (l.origin ≤ s.clock) && (s.clock - l.origin) % t.period == 0 &&
      l.boundarySeen != s.clock + 1 && (match l.waiting with
        | some w => decide (s.clock < w.2)
        | none => true)
  | none => false

/-- PERIOD_BOUNDARY (R268, 08 R193): routines waiting at a SYNC step go on. -/
def execPeriodBoundary (cl : Nat) (s : State) : Out :=
  if 32 ≤ cl then .fault (.noSuchUnit "cluster" cl)
  else if boundaryDue s cl then
    let s := setLode s cl { getLode s cl with boundarySeen := s.clock + 1 }
    .next ((clusterSeqs cl).foldl (fun s n =>
      match (getSeq s n).mx.routine with
      | some r => if r.waitSync && decide (r.ready ≤ s.clock) then
          modRoutine s n (fun r => { r with waitSync := false, ready := s.clock })
        else s
      | none => s) s)
  else .refused (.notEnabled "PERIOD_BOUNDARY")

/-- The LSEND of a cluster to inject in this clock: two clocks after it issued (R270). -/
def injectionDue (s : State) (cl : Nat) : Option (Nat × Command) :=
  ((clusterSeqs cl).filterMap (fun n =>
    ((getSeq s n).net.queue.find? (fun c => isLsend c.op)).map (fun c => (n, c)))).find? (fun x => decide (x.2.clock + 2 ≤ s.clock))

/-- LODE_INJECTION (R269, R270): the vector leaves its queue place and reaches its sites two clocks later. -/
def execLodeInjection (cl : Nat) (s : State) : Out :=
  if 32 ≤ cl then .fault (.noSuchUnit "cluster" cl)
  else match injectionDue s cl with
    | some (n, c) =>
      let l := getLode s cl
      let port := n % 16
      let k := at' l.counts port 0
      let s1 := modSeq s n (fun q => { q with net := { q.net with queue := q.net.queue.eraseP (fun x => x.serial == c.serial && isLsend x.op) } })
      match matchedEntry l port k, l.table with
      | some e, some t =>
        let v : LodeVec := { entry := t.entries.findIdx (· == e), rows := e.rows, cols := e.cols, arrive := s.clock + 2, lanes := c.lanes,
                             ctx := (getSeq s n).ctx }
        .next (setLode s1 cl { l with counts := l.counts.set port (k + 1), deliver := l.deliver ++ [v] })
      | _, _ => .next s1
    | none => .refused (.notEnabled "LODE_INJECTION")

/-- Whether the FEED in progress at a site awaits an entry (15 R301). -/
def awaitsEntry (m : Matrix) (j ent : Nat) : Bool :=
  match m.routine.bind (·.feed) with
  | some f => match f.word with
    | .stepFeed mask src _ e _ _ _ => src == 0 && mask.getLsbD j && e.toNat == ent
    | _ => false
  | none => false

/-- A vector reaches site `j` of sequencer `n`: held for the FEED, or discarded with ERR.LMISS (15 R301). A loss with no routine in
progress is charged to bundle 0 (log entry 77). -/
def deliverAt (v : LodeVec) (n : Nat) (s : State) (j : Nat) : State :=
  let m := (getSeq s n).mx
  if awaitsEntry m j v.entry && decide ((m.lodeBuf.filter (fun h => h.site == j)).length < 8) then
    modMx s n (fun m => { m with lodeBuf := m.lodeBuf ++ [{ site := j, entry := v.entry, lanes := v.lanes, clock := s.clock }] })
  else lmiss s n 1 (match m.routine with
    | some r => r.bundle
    | none => 0)

/-- What a lode loses when context `c` is saved: the context's tables, and vectors on their way that it injected (15 R303, R268). -/
def dropTables (c : Nat) (l : Lode) : Lode :=
  { l with table := if l.table.any (fun t => t.ctx == some c) then none else l.table,
           waiting := if l.waiting.any (fun w => w.1.ctx == some c) then none else l.waiting,
           deliver := l.deliver.filter (fun v => v.ctx != some c) }

/-- A vector reaches every selected site of its cluster. -/
def deliverVec (cl : Nat) (v : LodeVec) (s : State) : State :=
  ((List.range 16).filter (fun r => v.rows.getLsbD r)).foldl
    (fun s r => (sitesIn v.cols).foldl (deliverAt v (16 * cl + r)) s) s

/-- LODE_DELIVERY (R269): the oldest vector on its way is delivered at its clock. -/
def execLodeDelivery (cl : Nat) (s : State) : Out :=
  if 32 ≤ cl then .fault (.noSuchUnit "cluster" cl)
  else
    let l := getLode s cl
    match l.deliver with
    | v :: rest =>
      if v.arrive ≤ s.clock then .next (deliverVec cl v (setLode s cl { l with deliver := rest }))
      else .refused (.notEnabled "LODE_DELIVERY")
    | [] => .refused (.notEnabled "LODE_DELIVERY")

end Sys2Proof.Machine
end

