-- ==== Sys2Proof/Machine/Translate.lean ====
section
/-! DEFINITION. Memory spaces and translation: range registers (10 R210, R211), fabric addresses (R213), routes to other
packages (22 R394), the layout of the second tier (22 R396), table walks (R214 to R217), installs (R216, R218), pager
regions and upcalls (R219 to R221), and the reading and writing of units with their damage (12 R255, 22 R382). -/

namespace Sys2Proof.Machine

/-! ## Range registers -/

def rgV (r : BitVec 128) : Bool := anyBit r 0 1
def rgSize (r : BitVec 128) : Nat := 2 ^ fieldN r 5 6
def rgVbase (r : BitVec 128) : Nat := fieldN r 16 48 * 2 ^ 16
def rgFbase (r : BitVec 128) : Nat := fieldN r 64 56

/-- What an access needs: bit 1 RD, 2 WR, 3 AT of a range register (R210). -/
abbrev Need := Nat

/-- range_map (R211): the register that holds [va, va + w) and permits the need. -/
def rangeOf (q : Seq) (va w : Nat) (need : Need) : Option (BitVec 128) :=
  match q.ranges.find? (fun r => rgV r && decide (rgVbase r ≤ va) && decide (va + w ≤ rgVbase r + rgSize r)) with
  | some r => if anyBit r need 1 then some r else none
  | none => none

/-! ## Fabric addresses (R213) -/

def faPackage (fa : Nat) : Nat := fa / 2 ^ 48 % 256
def faClass (fa : Nat) : Nat := fa / 2 ^ 45 % 8
def faOffset (fa : Nat) : Nat := fa % 2 ^ 45
def faDie (fa : Nat) : Nat := fa / 2 ^ 43 % 4
def faTrans (fa : Nat) : Nat := fa % 2 ^ 43

/-- What an access meets at its target: plain bytes, a flag, a format register, another package or a flag there, a wait for a pager or
for a migration, links that stop and accept nothing more (21 R376), or an error reply (of a die in reset, or other). -/
inductive Reach where
  | place (p : Nat)
  | flag (n k : Nat)
  | zoneReg (n z : Nat)
  | bankReg (site b : Nat)
  | remote (p : Nat)
  | remoteFlag
  | waits (page : Nat)
  | migrates (page : Nat)
  | blocked
  | inReset (die : Nat)
  | refused
  deriving DecidableEq, Repr

/-- A die between the completion of LINKSTOP and that of ADMIT: requests to it are answered "target in reset" (21 R377). -/
def dieStopped (s : State) (d : Nat) : Bool := decide (2 ≤ (tget {} s.dies d).st)

/-- A die whose LINKSTOP is in progress: its links accept no request, which waits to be sent (21 R376). -/
def dieStopping (s : State) (d : Nat) : Bool := let x := tget {} s.dies d; x.st == 1 && x.busy

/-! ## UCIe links (22 R392) -/

/-- The front core's number as a requester: it stands on the hub. -/
def hub : Nat := 512

/-- The links between two dies, the hub being die 4: the causeway of a seam, else the bridges (log entry 25). -/
def linksBetween (a b : Nat) : List Nat :=
  if a = b then []
  else if a < 4 ∧ b < 4 ∧ a / 2 = b / 2 then [4 + a / 2]
  else (if a < 4 then [a] else []) ++ (if b < 4 then [b] else [])

/-- The die that a fabric address is addressed to. -/
def targetDie (fa : Nat) : Nat :=
  if faPackage fa ≠ Config.ownPackage then 4
  else match faClass fa with
    | 0 => faDie fa
    | 1 => faDie fa
    | 4 => faOffset fa / 2 ^ 28 % 4
    | 5 => faOffset fa / 2 ^ 28 % 4
    | _ => 4

/-- Whether a request from die `a` to die `b` crosses a failed link, which answers it "link failed". -/
def diesCut (s : State) (a b : Nat) : Bool := (linksBetween a b).any (fun l => (tget {} s.links l).st == 4)

/-- The links that a request from die `a` to die `b` crosses. One addressed to a die in reset is answered before the links of that die (21
R377): only its own bridge, to the hub, counts. -/
def crossedLinks (s : State) (a b : Nat) : List Nat :=
  if dieStopped s b then (if a < 4 ∧ a ≠ b ∧ a / 2 ≠ b / 2 then [a] else []) else linksBetween a b

/-- Whether such a request crosses a failed link, which answers it "link failed". -/
def linkCut (s : State) (a b : Nat) : Bool := (crossedLinks s a b).any (fun l => (tget {} s.links l).st == 4)

/-- Whether a request of sequencer `n` to a fabric address crosses a failed link. -/
def linkFailed (s : State) (n fa : Nat) : Bool := linkCut s (n / 128) (targetDie fa)

/-- A request from die `a` to die `b` ends the runs of the links that it crosses. -/
def passLinks (s : State) (a b : Nat) : State := (crossedLinks s a b).foldl passLink s

/-- Whether sequencer `n` runs a task of context `c`. -/
def runsTask (s : State) (c n : Nat) : Bool :=
  let q := getSeq s n
  q.status != .idle && q.ctx == some c

/-! ## Routes to other packages (22 R393, R394) -/

def portUsable (s : State) (p : Nat) : Bool := let x := (tget {} s.ports p).st; x == 2 || x == 3

/-- The usable ports of a package's routing entry. -/
def usablePorts (s : State) (g : Nat) : List Nat :=
  let e := tget 0 s.routes g
  if anyBit e 34 1 then
    ((List.range (fieldN e 32 2 + 1)).map (fun i => fieldN e (8 * i) 8)).filter (portUsable s)
  else []

/-- The port that a request of sequencer `n` to package `g` takes; none is "no route". -/
def routeOf (s : State) (n g : Nat) : Option Nat :=
  let l := usablePorts s g
  if l.isEmpty then none else l[n % l.length]?

/-! ## The second tier (22 R396) -/

/-- The port of 4 KiB page `p` of a layout of (port, pages) pairs in ascending order (log entry 19): one page of each port
in turn, ports that are full left out. -/
def layoutPort : Nat → List (Nat × Nat) → Nat → Option Nat
  | 0, _, _ => none
  | fuel + 1, l, p =>
    let l := l.filter (fun x => x.2 != 0)
    if l.isEmpty then none
    else
      let m := l.foldl (fun a x => Nat.min a x.2) ((l.headD (0, 0)).2)
      if p < m * l.length then (l[p % l.length]?).map (·.1)
      else layoutPort fuel (l.map (fun x => (x.1, x.2 - m))) (p - m * l.length)

/-- Whether the second tier answers at a translated byte: feature bit 5, inside the layout, its port not failed. -/
def tierOk (s : State) (byte : Nat) : Bool :=
  anyBit s.faccept 5 1 &&
  match layoutPort 9 (s.cxl.map (fun x => (x.1, x.2.share * 65536))) (byte / 4096) with
  | some p => (tget {} s.cxl p).st == 2
  | none => false

/-! ## Table walks (R214, R215) -/

def entV (e : Word) : Bool := anyBit e 0 1
def entLeaf (e : Word) : Bool := anyBit e 1 1
def entPgr (e : Word) : Bool := anyBit e 2 1
def entMig (e : Word) : Bool := anyBit e 3 1
/-- The permission bit of a need: RD, WR or AT. -/
def entAllows (e : Word) (need : Need) : Bool := anyBit e (need + 3) 1
def entNode (e : Word) : Nat := fieldN e 16 30 * 256
def entFrame (e : Word) : Nat := fieldN e 16 32

/-- The index of translated offset `o` at a level, and its span in bytes. -/
def levelShift (l : Nat) : Nat := match l with | 0 => 16 | 1 => 21 | 2 => 30 | _ => 39
def levelIndex (cls l o : Nat) : Nat :=
  o / 2 ^ levelShift l % (match l with | 0 => 32 | 1 => 512 | 2 => 512 | _ => if cls = 2 then 64 else 16)

/-- The home die of a class's table for an address (R214). -/
def homeDie (fa : Nat) : Nat := if faClass fa = 2 then 0 else faDie fa

/-- The translated offset of a class 0, 1 or 2 address. -/
def transOffset (fa : Nat) : Nat := if faClass fa = 2 then faOffset fa else faTrans fa

/-- The place of a table's root (20 R363). -/
def rootPlace (x : Ctx) (cls die : Nat) : Option Nat :=
  match x.areas.find? (fun a => a.die == die) with
  | some a => some (placeW (die * 1024 + a.site) (2048 * a.first) + (match cls with | 0 => 0 | 1 => 128 | _ => 512))
  | none => none

/-- Where a walk ends: a leaf with its level, an absent entry with PGR, an absent entry, or a damaged node (R217). -/
inductive WalkEnd where
  | leaf (e : Word) (level place : Nat) | pager | absent | damagedAt (place : Nat)
  deriving DecidableEq, Repr

/-- The walk from the entry node at `node`, levels in the order given. -/
def walkTable (s : State) (cls die o : Nat) : Nat → List Nat → WalkEnd
  | _, [] => .absent
  | node, l :: rest =>
    let p := node + 8 * levelIndex cls l o
    if poisoned s p 8 then .damagedAt p
    else
      let e : Word := BitVec.ofNat 64 (readNat s p 8)
      if !entV e then (if entPgr e then .pager else .absent)
      else if l = 0 ∨ entLeaf e then .leaf e l p
      else walkTable s cls die o (placeW (die * 1024) (entNode e)) rest

def walkOf (s : State) (x : Ctx) (fa : Nat) : WalkEnd :=
  match rootPlace x (faClass fa) (homeDie fa) with
  | some r => walkTable s (faClass fa) (homeDie fa) (transOffset fa) r [3, 2, 1, 0]
  | none => .absent

/-- The flat place of a leaf's frame at an offset (R215). -/
def framePlace (cls die level : Nat) (e : Word) (o : Nat) : Nat :=
  let po := o % 2 ^ levelShift level
  let f := entFrame e
  match cls with
  | 0 => placeW (die * 1024 + f / 2 ^ 12 % 1024) (65536 * (f % 2 ^ 12) + po)
  | 1 => placeS die (f / 64 % 64 * 2 ^ 22 + 65536 * (f % 64) + po)
  | _ => placeTier (65536 * (f % 2 ^ 26) + po)

/-- A translated access (R213, R217). -/
def reachTranslated (s : State) (x : Ctx) (fa : Nat) (need : Need) : Reach :=
  let cls := faClass fa
  let die := homeDie fa
  if cls ≠ 2 ∧ dieStopped s die then .inReset die
  else if cls ≠ 2 ∧ dieStopping s die then .blocked
  else if cls = 2 ∧ !anyBit s.faccept 5 1 then .refused
  else match walkOf s x fa with
    | .leaf e l _ =>
      if !entAllows e need then .refused
      else
        let p := framePlace cls die l e (transOffset fa)
        if cls = 0 ∧ (getSite s (p / 0xC000000)).retired then .refused
        else if cls = 2 ∧ !tierOk s (p - placeTier 0) then .refused
        else if entMig e ∧ need ≠ 1 then .migrates (fa / 2 ^ 16 * 2 ^ 16)
        else .place p
    | .pager => .waits (fa / 2 ^ 16 * 2 ^ 16)
    | .absent => .refused
    | .damagedAt _ => .refused

/-- A class 4 or 5 access: memory, flags and format registers of a sequencer that runs a task of the context (R213; log entry 94). -/
def reachSeq (s : State) (c fa : Nat) : Reach :=
  let o := faOffset fa
  let n := o / 2 ^ 21 % 512
  if dieStopped s (n / 128) then .inReset (n / 128)
  else if dieStopping s (n / 128) then .blocked
  else if o / 2 ^ 30 ≠ 0 then .refused
  else if !runsTask s c n then .refused
  else if faClass fa = 4 then
    let b := o % 2 ^ 20
    if o / 2 ^ 20 % 2 = 1 then (if b < 0x40000 then .place (placeE n b) else .refused)
    else
      let q := getSeq s n
      if q.sr.winBase.toNat ≤ b ∧ b < q.sr.winBase.toNat + q.sr.winSize.toNat then .place (placeP n b) else .refused
  else
    let r := o % 2 ^ 12
    if o / 2 ^ 12 % 2 ^ 9 ≠ 0 ∨ r % 4 ≠ 0 then .refused
    else if r < 0x80 then .flag n (r / 4)
    else if 0x100 ≤ r ∧ r < 0x140 then .zoneReg n ((r - 0x100) / 4)
    else if 0x200 ≤ r ∧ r < 0x600 then .bankReg (siteOf n ((r - 0x200) / 128)) ((r - 0x200) / 4 % 32)
    else .refused

/-- An access that another package answers (R213): its fields are checked as in this one; what it holds stands at the fabric address
(log entry 6). -/
def reachRemote (fa : Nat) : Reach :=
  let o := faOffset fa
  let r := o % 2 ^ 12
  match faClass fa with
  | 4 => if o / 2 ^ 30 = 0 ∧ (o / 2 ^ 20 % 2 = 0 ∨ o % 2 ^ 20 < 0x40000) then .remote (placeRemote fa) else .refused
  | 5 =>
    if o / 2 ^ 30 ≠ 0 ∨ o / 2 ^ 12 % 2 ^ 9 ≠ 0 ∨ r % 4 ≠ 0 then .refused
    else if r < 0x80 then .remoteFlag
    else if (0x100 ≤ r ∧ r < 0x140) ∨ (0x200 ≤ r ∧ r < 0x600) then .remote (placeRemote fa)
    else .refused
  | 6 => .refused
  | 7 => .refused
  | _ => .remote (placeRemote fa)

/-- What an access of sequencer `n` for context `c` meets at a fabric address (R213, R217, R394). -/
def reach (s : State) (n c fa : Nat) (need : Need) : Reach :=
  if linkFailed s n fa then .refused
  else if faPackage fa ≠ Config.ownPackage then
    (if (routeOf s n (faPackage fa)).isSome then reachRemote fa else .refused)
  else match faClass fa with
    | 3 => .place (placeHost (faOffset fa))
    | 4 => reachSeq s c fa
    | 5 => reachSeq s c fa
    | 6 => .refused
    | 7 => .refused
    | _ => match getCtx s c with
      | some x => reachTranslated s x fa need
      | none => .refused

/-- A request to another package and its answer, one flit each way (22 R393, log entry 19); none leaves without a route. -/
def flits (s : State) (n fa : Nat) : State :=
  match routeOf s n (faPackage fa) with
  | some p => { s with ports := tset s.ports p (let x := tget {} s.ports p; { x with tx := x.tx + 1, rx := x.rx + 1, run := 0 }) }
  | none => s

/-- `k` replies of a die in reset counted in its DRSTRAY (21 R377). -/
def strayReplies (s : State) (d k : Nat) : State :=
  { s with dies := tset s.dies d (let x := tget {} s.dies d; { x with stray := x.stray + BitVec.ofNat 64 k }) }

/-- The record of a damaged table node (R216). -/
def tableRecord (s : State) (die p : Nat) : State :=
  { s with events := s.events ++ [{ die := die, unit := 7, loc := p / 0xC000000 % 1024, kind := 0x05, syn := 3, count := 1 }] }

/-- A request to a die in reset counts in its DRSTRAY (21 R377); one met by a damaged node records it (R216); one to
another package leaves by its port (22 R393: one flit each way, log entry 19). Its flits end the runs of failed replays of the links they
cross; one that stopping links do not accept crosses none (21 R376). -/
def countReach (s : State) (n c fa : Nat) (r : Reach) : State :=
  let s := if linkFailed s n fa || r == .blocked then s else passLinks s (n / 128) (targetDie fa)
  match r with
  | .inReset d => strayReplies s d 1
  | .remote _ => flits s n fa
  | .remoteFlag => flits s n fa
  | .refused =>
    if linkFailed s n fa then s
    else if faPackage fa ≠ Config.ownPackage then flits s n fa
    else match getCtx s c with
      | some x =>
        if faClass fa ≤ 2 then
          match walkOf s x fa with
          | .damagedAt p => tableRecord s (homeDie fa) p
          | _ => s
        else s
      | none => s
  | _ => s

/-! ## Units of memory and their damage -/

/-- The space of a flat place: 0 W, 1 S, 2 second tier, 3 host, 4 P, 5 E, 6 instruction memory, 7 another package. -/
def spaceOf (p : Nat) : Nat := if 2 ^ 60 ≤ p then 7 else p / 2 ^ 48

/-- The CXL port that holds a place of the second tier (22 R396). -/
def portOfTier (s : State) (p : Nat) : Option Nat := layoutPort 9 (s.cxl.map (fun x => (x.1, x.2.share * 65536))) (p % 2 ^ 48 / 4096)

/-- The record of damaged data read at a place (22 R382, R383, R386). -/
def damageAt (s : State) (p : Nat) : List PeatEvent :=
  let o := p % 2 ^ 48
  match spaceOf p with
  | 0 => [{ die := o / 0xC000000 / 1024, unit := 1, loc := o / 0xC000000 % 1024, bank := o % 0xC000000 / 2048 % 32, kind := 0x02, syn := 3, count := 1 }]
  | 1 => [{ die := o / 0x10000000, unit := 5, loc := o % 0x10000000 / 0x400000, kind := 0x02, syn := 3, count := 1 }]
  | 2 => [{ die := 4, unit := 10, loc := (portOfTier s p).getD 0, kind := 0x12, syn := 3, count := 1 }]
  | 4 => [damage (o / 2 ^ 20) 2 1]
  | 5 => [damage (o / 2 ^ 18) 3 1]
  | 6 => [damage (o / 2 ^ 16) 4 1]
  | _ => []

/-- What reading damaged data records: the record, the count of the site's uncorrectable events (22 R391), and a CXL
port's count of poisoned lines (22 R396). -/
def recordDamage (s : State) (p : Nat) : State :=
  let s := { s with events := s.events ++ damageAt s p }
  if spaceOf p = 0 then
    let x := getSite s (p / 0xC000000)
    setSite s (p / 0xC000000) { x with uncorrectable := x.uncorrectable + 1 }
  else if spaceOf p = 2 then
    match portOfTier s p with
    | some k => { s with cxl := tset s.cxl k (let x := tget {} s.cxl k; { x with pois := x.pois + 1 }) }
    | none => s
  else s

/-- The bytes that damage marks together at a place: a word, or, in the second tier, a line (22 R396). -/
def damageUnit (p : Nat) : Nat := if spaceOf p = 2 then 64 else 8

/-- Words marked from word `w` on. -/
def markWords (p : List Nat) (w : Nat) : Nat → List Nat
  | 0 => p
  | k + 1 => markWord (markWords p w k) (w + k)

/-- Bytes stored poisoned (12 R255): host bytes are 0xFF, a second-tier line is marked whole, elsewhere every word
touched is marked. -/
def storePoisoned (s : State) (p : Nat) (l : List Byte) : State :=
  match spaceOf p with
  | 3 => writeBytes s p (List.replicate l.length 0xFF)
  | 2 => let s := writeBytes s p l
         { s with poison := markWords s.poison (p / 64 * 8) 8 }
  | _ => let s := writeBytes s p l
         { s with poison := markWords s.poison (p / 8) ((p + l.length - 1) / 8 - p / 8 + 1) }

/-! ## Grants and reserved W (20 R362 to R364, R216) -/

/-- Whether a grant holds position `pos` of a site. -/
def grantHasW (g : Grant) (site pos : Nat) : Bool :=
  let p := packageSite site
  let row0 := fieldN g.a0 2 6
  let col0 := fieldN g.a0 8 6
  g.cls == 0 && decide (row0 ≤ p / 64) && decide (p / 64 < row0 + fieldN g.a0 14 7) && decide (col0 ≤ p % 64) &&
    decide (p % 64 < col0 + fieldN g.a0 21 7) && decide (fieldN g.a1 0 17 ≤ pos) && decide (pos < fieldN g.a1 0 17 + fieldN g.a1 17 17)

def grantHasS (g : Grant) (die slice page : Nat) : Bool :=
  g.cls == 1 && fieldN g.a0 2 2 == die && fieldN g.a0 4 6 == slice && decide (fieldN g.a0 10 6 ≤ page) &&
    decide (page < fieldN g.a0 10 6 + fieldN g.a0 16 7)

def grantHasTier (g : Grant) (frame : Nat) : Bool :=
  g.cls == 2 && decide (g.a1.toNat ≤ frame) && decide (frame < g.a1.toNat + g.a2.toNat)

def areaHas (a : TableArea) (site pos : Nat) : Bool :=
  a.die * 1024 + a.site == site && decide (a.first ≤ pos) && decide (pos < a.first + a.count)

/-- Whether a position lies in a table area of some context. -/
def inTableArea (s : State) (site pos : Nat) : Bool := s.ctxs.any (fun c => c.2.areas.any (fun a => areaHas a site pos))

/-- Whether a position lies in the space the configuration record reserves. -/
def inReserved (pos : Nat) : Bool := decide (Config.reservedPos ≤ pos) && decide (pos < 98304)

/-- Whether a context holds a position of W. -/
def holdsW (x : Ctx) (site pos : Nat) : Bool := x.grants.any (fun g => grantHasW g site pos)

/-! ## Installs (R216, R218, R222) -/

/-- Whether a page lies in a pager region of a context. -/
def regionOf (x : Ctx) (page : Nat) : Option Pager :=
  x.pagers.find? (fun r => decide (r.first ≤ page) && decide (page < r.first + r.pages * 65536))

/-- Whether a leaf's frame lies within the context's allocation for its class and outside table areas (R216). A 2 MiB frame of S or of the
second tier begins at a multiple of 32 pages, as one of W does (log entry 123). -/
def frameOk (s : State) (x : Ctx) (cls die level : Nat) (e : Word) : Bool :=
  let f := entFrame e
  let n := if level = 1 then 32 else 1
  match cls with
  | 0 =>
    let row := f % 2 ^ 12
    let site := die * 1024 + f / 2 ^ 12 % 1024
    f / 2 ^ 22 == 0 && decide (row + n ≤ 3072) && row % n == 0 &&
      (List.range (32 * n)).all (fun i => holdsW x site (32 * row + i) && !inTableArea s site (32 * row + i))
  | 1 =>
    f / 2 ^ 12 == 0 && (f % 64) % n == 0 &&
      (List.range n).all (fun i => x.grants.any (fun g => grantHasS g die (f / 64 % 64) (f % 64 + i)))
  | _ => f / 2 ^ 26 == 0 && f % n == 0 && (List.range n).all (fun i => x.grants.any (fun g => grantHasTier g (f + i)))

/-- The checks of R216 on an entry. The NODE and FRAME fields of one with V = 0 are not checked (log entry 105). -/
def entryOk (s : State) (x : Ctx) (fa level : Nat) (e : Word) : Bool :=
  let cls := faClass fa
  let die := homeDie fa
  let leaf : Bool := level == 0 || entLeaf e
  !anyBit e 7 9 && !anyBit e 48 16 && (level == 1 || !entLeaf e) && (leaf || !entMig e) && (level == 0 || level == 1 || !entMig e) &&
  (!entPgr e || (regionOf x (fa / 2 ^ 16 * 2 ^ 16)).isSome) &&
  (if !entV e then true
   else if leaf then frameOk s x cls die level e
   else
     let a := entNode e
     let size := if level = 1 then 256 else 4096
     !anyBit e 46 2 && a % size == 0 &&
       (List.range (ceilDiv size 2048)).all (fun i =>
         let b := a + 2048 * i
         decide (b / 0xC000000 < 1024) && x.areas.any (fun t => areaHas t (die * 1024 + b / 0xC000000) (b % 0xC000000 / 2048))))

/-- The place of the entry of a page at a level, by the entries above it; an error where one is invalid or a leaf, or damaged, which is
given (R216). -/
def entryPlace (s : State) (cls die o level : Nat) : Nat → List Nat → Except (Option Nat) Nat
  | _, [] => .error none
  | node, l :: rest =>
    let p := node + 8 * levelIndex cls l o
    if l = level then .ok p
    else if poisoned s p 8 then .error (some p)
    else
      let e : Word := BitVec.ofNat 64 (readNat s p 8)
      if !entV e || entLeaf e then .error none
      else entryPlace s cls die o level (placeW (die * 1024) (entNode e)) rest

/-- The place where an install of a page at a level writes. -/
def installPlace (s : State) (x : Ctx) (fa level : Nat) : Except (Option Nat) Nat :=
  match rootPlace x (faClass fa) (homeDie fa) with
  | some r => entryPlace s (faClass fa) (homeDie fa) (transOffset fa) level r [3, 2, 1, 0]
  | none => .error none

/-- The reply of a die in reset to an install, counted where the page is addressed to that die (21 R377, log entry 107). -/
def installStray (s : State) (fa : Nat) : State := if faClass fa ≤ 1 then strayReplies s (homeDie fa) 1 else s

/-- The record of a damaged entry that an install met (R216). -/
def installDamage (s : State) (fa : Nat) (d : Option Nat) : State := d.elim s (tableRecord s (homeDie fa))

/-- The atomics of context `c` that an old entry has translated and that have still to perform, over a span of pages (R218). -/
def owedOn (s : State) (c fa size : Nat) : List (Nat × Nat) :=
  s.seqs.flatMap (fun x =>
    if x.2.ctx = some c then
      (x.2.net.running.filter (fun y => y.phase == 1 && y.fa / size == fa / size)).map (fun y => (x.1, y.cmd.serial))
    else [])

/-- Whether some of them have still to perform. -/
def owes (s : State) (l : List (Nat × Nat)) : Bool :=
  l.any (fun o => (getSeq s o.1).net.running.any (fun y => y.cmd.serial == o.2 && y.phase == 1))

/-- A copy and a network command of a request, changed, to go on in this clock. -/
def setHeld (s : State) (h : HeldRequest) (f : CopyRun → CopyRun) (g : NetRun → NetRun) : State :=
  modSeq s h.seq (fun q =>
    if h.eng = 0 then
      { q with cpy := { q.cpy with running := q.cpy.running.map (fun r =>
          if r.cmd.serial = h.serial then { f r with ready := s.clock } else r) } }
    else
      { q with net := { q.net with running := q.net.running.map (fun r =>
          if r.cmd.serial = h.serial then { g r with ready := s.clock } else r) } })

/-- How the access of a request stands from now on, ready in this clock. -/
def setWait (s : State) (h : HeldRequest) (w : Nat) : State := setHeld s h (fun r => { r with wait := w }) (fun r => { r with wait := w })

/-- A waiting request goes on (R221, R222): translated again in arrival order, before any that arrives later. -/
def wakeRequest (s : State) (h : HeldRequest) : State :=
  let s := if 2 ≤ h.eng then s else setWait s h 5
  { s with woken := s.woken ++ [h] }

/-- A signal that a core could not change: its queue enters the error state at its next slot (20 R354). -/
def badSignal (s : State) (g : SignalRef) : State :=
  let x := tget {} s.queues g.queue
  { s with queues := tset s.queues g.queue { x with lateFails := x.lateFails ++ [(0x0A, g.byte, g.index)] } }

/-- A waiting request of context `c` is answered with an error reply (R221); a core's held write then never lands, and a core's read or a
segment's fetch finds the reply when it is sent again. -/
def failRequest (c : Nat) (s : State) (h : HeldRequest) : State :=
  if h.eng = 3 then
    modSeq s h.seq (fun q => { q with segFetch := q.segFetch.map (fun f => if f.seg = h.serial then { f with failed := f.failed ++ [h.page] } else f) })
  else if h.eng = 2 then
    (if h.write then
      let t := { s with coreStores := s.coreStores.filter (fun x => x.serial != h.serial) }
      match (s.coreStores.find? (fun x => x.serial == h.serial)).bind CoreStore.signal with
      | some g => badSignal t g
      | none => t
     else { s with coreFails := s.coreFails ++ [(c, h.page, h.seq)] })
  else
    setHeld s h (fun r => if h.write then { r with wait := 0, failW := r.failW ++ [h.page] } else { r with wait := 0, failR := r.failR ++ [h.page] })
      (fun r => { r with wait := 2 })

/-- An install performed (R218): the entry takes effect at once; held writes of a page whose migration ends go on (R222). -/
def installEntry (s : State) (c fa : Nat) (p : Nat) (level : Nat) (e : Word) : State :=
  let s := writeNat s p 8 e.toNat
  let s := modCtx s c (fun x => { x with areas := x.areas.map (fun a => if a.die = homeDie fa then { a with installed := true } else a) })
  match getCtx s c with
  | some x =>
    if entV e && entMig e then s
    else
      let span := 2 ^ levelShift level
      let mine (h : HeldRequest) : Bool := h.page / 2 ^ 45 == fa / 2 ^ 45 && h.page / span == fa / span
      let s := modCtx s c (fun x => { x with migWaits := x.migWaits.filter (fun h => !mine h) })
      (x.migWaits.filter mine).foldl wakeRequest s
  | none => s

/-! ## Pager regions (R219 to R221) -/

/-- The upcall record (R220). The manual gives a Kordin core's request no SEQ and no ENG, and a segment's fetch no ENG: free bits (log entry
81). -/
def upcallBytes (fr page : Nat) (h : HeldRequest) (num clock : Nat) : List Byte :=
  let eng := if h.eng = 3 then (Config.freeBits 1 fr 4001).toNat else h.eng
  let who := if h.eng = 2 then (Config.freeBits 10 fr 4000).toNat else h.seq + 2 ^ 9 * eng
  leBytes 8 page ++ leBytes 4 (who + (if h.write then 2 ^ 10 else 0)) ++ leBytes 4 num ++ leBytes 8 clock ++ leBytes 8 0

/-- The die whose controller translates a page, the hub being die 4 (10 R213). -/
def controllerDie (page : Nat) : Nat := if faClass page = 2 then 4 else faDie page

/-- An upcall of context `c`: the record into its ring slot, then the upcall flag (R219). Both are accesses to the pager's sequencer: over a
failed link (22 R392), at a die in reset (21 R377), and where it runs no task of the context, which a saved context's does not (18 R340;
log entry 132), they are answered with an error and change nothing. -/
def deliverUpcall (s : State) (c : Nat) (r : Pager) (page : Nat) (h : HeldRequest) : State × Pager :=
  let a := placeP r.seq (r.ring + 32 * (r.num % r.slots))
  let die := r.seq / 128
  (if linkCut s (controllerDie page) die then s
   else
     let s := passLinks s (controllerDie page) die
     if dieStopped s die then strayReplies s die 2
     else if !runsTask s c r.seq then s
     else postFlag (writeBytes s a (upcallBytes s.free page h r.num (timeNow s))) r.seq r.flag 1,
   { r with num := (r.num + 1) % 2 ^ 32, occupied := r.occupied ++ [(r.num, page)] })

def setPager (x : Ctx) (r : Pager) : Ctx := { x with pagers := x.pagers.map (fun p => if p.first = r.first then r else p) }

/-- A request that misses waits at its page's region; the first on the page makes the upcall (R217, R219). -/
def joinWait (s : State) (c : Nat) (h : HeldRequest) : State :=
  match getCtx s c with
  | none => s
  | some x => match regionOf x h.page with
    | none => s
    | some r =>
      let joined : Bool := r.waits.any (fun w => w.page == h.page)
      let r := { r with waits := r.waits ++ [h] }
      if joined then setCtx s c (setPager x r)
      else if r.occupied.length < r.slots then
        let u := deliverUpcall s c r h.page h
        modCtx u.1 c (fun x => setPager x u.2)
      else setCtx s c (setPager x { r with backlog := r.backlog ++ [(h, h.page)] })

/-- PGDONE on a page (R221): its slot is free, the next upcall takes a slot (none is dropped, R219), and its waiting requests are
translated again, or answered with an error. -/
def endWait (s : State) (c page : Nat) (fail : Bool) : State :=
  match (getCtx s c) with
  | none => s
  | some x => match regionOf x page with
    | none => s
    | some r =>
      let mine := r.waits.filter (fun h => h.page == page)
      let r := { r with waits := r.waits.filter (fun h => h.page != page), occupied := r.occupied.eraseP (fun o => o.2 == page) }
      let s := match r.backlog with
        | b :: rest =>
          if r.occupied.length < r.slots then
            let u := deliverUpcall s c { r with backlog := rest } b.2 b.1
            modCtx u.1 c (fun x => setPager x u.2)
          else setCtx s c (setPager x r)
        | [] => setCtx s c (setPager x r)
      mine.foldl (fun s h => if fail then failRequest c s h else wakeRequest s h) s

/-! ## What a Kordin core reads and writes -/

/-- What a core's read gives: bytes, a wait, or an error reply or poison. -/
inductive CoreGot where
  | bytes (l : List Byte) | waits | failed
  deriving DecidableEq, Repr

/-- The page of a fabric address. -/
def pageOf (fa : Nat) : Nat := fa / 65536 * 65536

/-- An access held at a controller, or not accepted by links that stop. -/
def isHeld (x : Reach) : Bool :=
  match x with
  | .waits _ => true
  | .migrates _ => true
  | .blocked => true
  | _ => false

/-- Where the core of a reader stands: the front core's on the hub, die d's (65 + d) on its die. -/
def readerAt (a : Nat) : Nat := if 65 ≤ a then 128 * (a - 65) else hub

/-- What an access of a core meets: a format register, of this package or another, is reached by copies only (10 R207). -/
def coreReach (s : State) (n c fa : Nat) (need : Need) : Reach :=
  match reach s n c fa need with
  | .remote p => if faClass fa = 5 then .refused else .remote p
  | x => x

/-- A core's read of `n` bytes inside one page, for context `c` and reader `a`. -/
def coreRead (s : State) (a c fa n : Nat) : CoreGot :=
  match coreReach s (readerAt a) c fa 1 with
  | .place p => if poisoned s p n then .failed else .bytes (readBytes s p n)
  | .remote p => if poisoned s p n then .failed else .bytes (readBytes s p n)
  | .waits p => if s.coreFails.contains (c, p, a) then .failed else .waits
  | .blocked => .waits
  | _ => .failed

/-- A held request of a core joins the requests that wait on its page; a read does so once. -/
def coreJoins (s : State) (a c : Nat) (x : Reach) (write : Bool) (serial : Nat) : State :=
  let h (p : Nat) : HeldRequest := { seq := a, eng := 2, write := write, serial := serial, page := p, ctx := c }
  match x with
  | .waits p =>
    if !write && (getCtx s c).any (fun y => y.pagers.any (fun r => r.waits.contains (h p))) then s else joinWait s c (h p)
  | .migrates p => modCtx s c (fun y => { y with migWaits := y.migWaits ++ [h p] })
  | _ => s

/-- The bytes of a read that lie in its first page. -/
def pageSpan (fa n : Nat) : Nat := Nat.min n (65536 - fa % 65536)

/-- The damaged words among bytes, or, in the second tier, the damaged lines (22 R396). -/
def damagedIn (s : State) (p n : Nat) : List Nat :=
  let unit := damageUnit p
  ((s.poison.filter (fun w => decide (p / 8 ≤ w) && decide (8 * w < p + n))).map (fun w => 8 * w / unit * unit)).eraseDups

/-- What a core's read leaves behind: replies counted (21 R377, 22 R393), damage recorded (22 R383), a wait joined (R219), a failed wait
answered. -/
def coreNote (s : State) (a c fa n : Nat) : State :=
  let x := coreReach s (readerAt a) c fa 1
  let s := countReach s (readerAt a) c fa x
  match x with
  | .place p => (damagedIn s p n).foldl recordDamage s
  | .remote p => (damagedIn s p n).foldl recordDamage s
  | .waits p => if s.coreFails.contains (c, p, a) then { s with coreFails := s.coreFails.erase (c, p, a) } else coreJoins s a c x false 0
  | _ => s

/-- A write of the front core that is held where its page waits or migrates, or by links that stop (R217, R222, 21 R376). -/
def holdStore (s : State) (c fa : Nat) (l : List Byte) (x : Reach) (g : Option SignalRef) : State :=
  { coreJoins s 0 c x true (s.free + 1) with
    coreStores := s.coreStores ++ [{ serial := s.free + 1, ctx := c, fabric := fa, bytes := l, signal := g }], free := s.free + 1 }

/-- A core's write inside one page: performed, or held; none for an error reply. -/
def coreWrite (s : State) (c fa : Nat) (l : List Byte) : Option State :=
  let x := coreReach s hub c fa 2
  match x with
  | .place p => some (writeBytes (countReach s hub c fa x) p l)
  | .remote p => some (writeBytes (countReach s hub c fa x) p l)
  | _ => if isHeld x then some (holdStore s c fa l x none) else none

/-- A core's write that gets an error reply leaves only what the reply counts. -/
def coreStore (s : State) (c fa : Nat) (l : List Byte) : State := (coreWrite s c fa l).getD (countReach s hub c fa (coreReach s hub c fa 2))

/-! ## Signals (20 R354) -/

/-- The classes that hold a completion signal (20 R354). -/
def signalClass (fa : Nat) : Bool := faClass fa == 0 || faClass fa == 2 || faClass fa == 3

/-- A decrement of a signal performed (20 R354): none where it is held or gets an error reply; a damaged signal stays as it is (13 R278). -/
def decrementSignal (s : State) (c fa : Nat) : Option State :=
  let x := reach s hub c fa 3
  let s := countReach s hub c fa x
  let at_ (p : Nat) : State := if poisoned s p 8 then recordDamage s p else writeNat s p 8 ((readNat s p 8 + (2 ^ 64 - 1)) % 2 ^ 64)
  if !signalClass fa then none
  else match x with
    | .place p => some (at_ p)
    | .remote p => some (at_ p)
    | _ => none

/-- A signal changed for a consumed packet (20 R351, R354): performed; held in its page's arrival order (R217, R222); or, answered with an
error, the end of its queue's run. -/
def changeSignal (s : State) (c fa : Nat) (l : List Byte) (g : SignalRef) : State :=
  let x := reach s hub c fa (if g.dec then 3 else 2)
  if !signalClass fa then badSignal s g
  else if isHeld x then holdStore s c fa l x (some g)
  else match if g.dec then decrementSignal s c fa else coreWrite s c fa l with
    | some t => t
    | none => badSignal (countReach s hub c fa x) g

/-- A read of a core, or a segment's fetch, whose wait has ended is translated again: where it misses again it waits, in its turn, and the
first such request on the page makes the upcall (R221). Its data are read when the core looks again, or the segment lands. -/
def retryRead (s : State) (h : HeldRequest) : State :=
  if h.eng = 2 then coreJoins s h.seq h.ctx (reach s (readerAt h.seq) h.ctx h.page 1) false 0
  else
    let q := getSeq s h.seq
    let c := q.ctx.getD 16
    match reach s h.seq c h.page 1 with
    | .waits _ => if q.segFetch.any (fun f => f.seg == h.serial) then joinWait s c h else s
    | _ => s

/-- A held write of a core is translated again. -/
def retryStore (s : State) (serial : Nat) : State :=
  match s.coreStores.find? (fun x => x.serial == serial) with
  | some x =>
    let s := { s with coreStores := s.coreStores.filter (fun y => y.serial != serial) }
    (match x.signal with
     | some g => changeSignal s x.ctx x.fabric x.bytes g
     | none => coreStore s x.ctx x.fabric x.bytes)
  | none => s

end Sys2Proof.Machine
end

