-- ==== Sys2Proof/Machine/CopyEngine.lean ====
section
/-! DEFINITION. The copy engine (12_copy_instructions): staging, ends and bounds, the walk element by element, conversion
(10 R209), row copies, compressed blocks, the counters, completion records and posts, staithe refusals. -/

namespace Sys2Proof.Machine

/-! ## Staging (R244, R249) -/

def cpOf (c : Command) (i : Nat) : Word := at' c.stage i 0
def cpSsp (c : Command) : Nat := fieldN (cpOf c 2) 0 2
def cpDsp (c : Command) : Nat := fieldN (cpOf c 2) 2 2
def cpEsz (c : Command) : Nat := 2 ^ fieldN (cpOf c 2) 4 2
def cpN0 (c : Command) : Nat := fieldN (cpOf c 2) 8 24
def cpN1 (c : Command) : Nat := fieldN (cpOf c 2) 32 16
def cpRaddr (c : Command) : Nat := fieldN (cpOf c 6) 5 15 * 32
def cpRec (c : Command) : Bool := anyBit (cpOf c 6) 20 1

/-- rm, the release scope, rf, cf and pe of a copy's header (R243). -/
structure CopyHeader where
  cf : Nat
  pe : Bool
  rm : BitVec 3
  rf : Bool
  deriving DecidableEq, Repr

def copyHeader : Instr → CopyHeader
  | .cpy c p r _ f => ⟨c.toNat, p == 1, r, f == 1⟩
  | .cpys c p r _ f => ⟨c.toNat, p == 1, r, f == 1⟩
  | .cpyg c p r _ f => ⟨c.toNat, p == 1, r, f == 1⟩
  | .cpyt c p r _ f => ⟨c.toNat, p == 1, r, f == 1⟩
  | .cpyx c p r _ f => ⟨c.toNat, p == 1, r, f == 1⟩
  | .cpyf c p r _ f => ⟨c.toNat, p == 1, r, f == 1⟩
  | .cpyw c p r _ f => ⟨c.toNat, p == 1, r, f == 1⟩
  | .cpyq c p r _ f => ⟨c.toNat, p == 1, r, f == 1⟩
  | _ => ⟨0, false, 0, false⟩

/-- The kinds of copy. -/
inductive CopyKind where
  | plain | strided | indexed | targets | blocks | filled | rows | query
  deriving DecidableEq, Repr

def copyKind : Instr → CopyKind
  | .cpys _ _ _ _ _ => .strided
  | .cpyg _ _ _ _ _ => .indexed
  | .cpyt _ _ _ _ _ => .targets
  | .cpyx _ _ _ _ _ => .blocks
  | .cpyf _ _ _ _ _ => .filled
  | .cpyw _ _ _ _ _ => .rows
  | .cpyq _ _ _ _ _ => .query
  | _ => .plain

/-- An own-space address beyond its low bits (R244). -/
def ownBad (space : Nat) (a : Word) : Bool :=
  match space with
  | 1 => anyBit a 20 44
  | 2 => anyBit a 18 46
  | _ => false

/-- Refusals of the staged values, STATUS 0x02 (R244, R246, R249, R250, R252); `convert` copies take their own alignment
rule. -/
def stagingBad (k : CopyKind) (c : Command) (convert : Bool) : Bool :=
  let rf := (copyHeader c.op).rf
  let cp6 := anyBit (cpOf c 6) 21 43
  let cp7 := rf && anyBit (cpOf c 7) 56 8
  match k with
  | .rows =>
    let w := cpOf c 2
    let d := cpOf c 1
    cp6 || cp7 || !(cpSsp c == 1 || cpSsp c == 2) || anyBit w 2 6 || cpN0 c == 0 || anyBit w 32 32 || anyBit d 26 38 ||
      ownBad (cpSsp c) (cpOf c 0) || (anyBit d 17 1 && (sitesIn (bits d 18 8)).length != 1)
  | .query => false
  | _ =>
    let w := cpOf c 2
    let general := cp6 || cp7 || anyBit w 6 2 || anyBit w 48 16 || cpN0 c == 0 || cpN1 c == 0 || cpSsp c == 3 || cpDsp c == 3 ||
      (k != .filled && ownBad (cpSsp c) (cpOf c 0)) || ownBad (cpDsp c) (cpOf c 1)
    let aligned := convert || ((k == .filled || (cpOf c 0).toNat % cpEsz c == 0) && (cpOf c 1).toNat % cpEsz c == 0)
    general || !aligned ||
    (match k with
     | .plain => cpN1 c != 1
     | .indexed => cpN1 c != 1 || anyBit (cpOf c 5) 21 43 || fieldN (cpOf c 5) 0 2 != 0
     | .targets => !(cpDsp c == 1 || cpDsp c == 2) || anyBit (cpOf c 5) 9 7 || anyBit (cpOf c 5) 32 32 || fieldN (cpOf c 5) 0 4 != 0
     | .filled => cpSsp c != 0
     | .blocks =>
       let dir := anyBit (cpOf c 5) 0 1
       let pbu := fieldN (cpOf c 5) 1 7
       cpN1 c != 1 || cpEsz c != 1 || anyBit (cpOf c 5) 8 56 || pbu == 0 || decide (65 < pbu) ||
         !(let p := if dir then cpSsp c else cpDsp c; p == 1 || p == 2)
     | _ => false)

/-! ## Positions (R249) -/

def strideOf (w : Word) (i : Nat) : Int := sRead 32 (fieldN w (32 * i) 32)

/-- The window of a sequencer's state. -/
def windowOf (q : Seq) : Int × Int := (q.sr.winBase.toNat, (q.sr.winBase.toNat : Int) + q.sr.winSize.toNat)

/-- The place of the index that element e of a CPYG reads (R249): IADDR + 4e, clamped into the window. -/
def indexPlace (s : State) (n : Nat) (c : Command) (e : Nat) : Nat :=
  placeP n (clampRead (windowOf (getSeq s n)) 4 ((fieldN (cpOf c 5) 0 20 : Int) + 4 * e))

/-- CPYG's index of element e (R249); of a damaged word, unspecified bits (log entry 52). -/
def indexEntry (s : State) (n : Nat) (c : Command) (e : Nat) : Int :=
  let p := indexPlace s n c e
  sRead 32 (if poisoned s p 4 then (Config.freeBits 32 s.free (2 ^ 31 + e)).toNat else readNat s p 4)

/-- The record of a damaged index word that element e of a gather (or, with `side`, of a scatter) reads (22 R383). -/
def noteIndex (s : State) (n : Nat) (k : CopyKind) (c : Command) (side : Bool) (e : Nat) : State :=
  let p := indexPlace s n c e
  if k = .indexed ∧ anyBit (cpOf c 5) 20 1 = side ∧ poisoned s p 4 then recordDamage s p else s

/-- The source position of element e. -/
def sourcePos (s : State) (n : Nat) (k : CopyKind) (c : Command) (e : Nat) : Int :=
  let strided : Int := (e % cpN0 c : Nat) * strideOf (cpOf c 3) 0 + (e / cpN0 c : Nat) * strideOf (cpOf c 3) 1
  match k with
  | .strided => strided
  | .targets => strided
  | .indexed => if anyBit (cpOf c 5) 20 1 then e else indexEntry s n c e
  | _ => e

/-- The destination position of element e. -/
def destPos (s : State) (n : Nat) (k : CopyKind) (c : Command) (e : Nat) : Int :=
  let strided : Int := (e % cpN0 c : Nat) * strideOf (cpOf c 4) 0 + (e / cpN0 c : Nat) * strideOf (cpOf c 4) 1
  match k with
  | .strided => strided
  | .targets => strided
  | .filled => strided
  | .indexed => if anyBit (cpOf c 5) 20 1 then indexEntry s n c e else e
  | _ => e

/-! ## Ends (R248) -/

/-- The fabric address of an address of a D end. -/
def fabricOf (x : CopyEnd) (a : Int) : Nat := ((x.fbase : Int) + (a - x.vbase)).toNat

/-- An end in own P or E, or a D end by the range register that maps its first element; none is a miss (R211). -/
def endOf (q : Seq) (space : Nat) (a : Int) (first : Int) (w : Nat) (need : Need) : Option CopyEnd :=
  match space with
  | 1 => some { space := 1, addr := a, lo := (windowOf q).1, hi := (windowOf q).2 }
  | 2 => some { space := 2, addr := a, lo := 0, hi := 0x40000 }
  | _ =>
    if first < 0 then none
    else match rangeOf q first.toNat w need with
      | some r => some { space := 0, addr := a, lo := rgVbase r, hi := rgVbase r + rgSize r, vbase := rgVbase r, fbase := rgFbase r,
                         ho := anyBit r 4 1 }
      | none => none

/-- A target's end (R248). -/
def targetEnd (s : State) (t : Nat) (x : CopyEnd) (dsp : Nat) : CopyEnd :=
  if dsp = 2 then { x with space := 2, lo := 0, hi := 0x40000 }
  else { x with space := 1, lo := (windowOf (getSeq s t)).1, hi := (windowOf (getSeq s t)).2 }

/-- What an access to an address of an end of sequencer `n` (or of a target `t`) meets. -/
def reachEnd (s : State) (n c : Nat) (t : Nat) (x : CopyEnd) (a : Int) (need : Need) : Reach :=
  match x.space with
  | 0 => reach s n c (fabricOf x a) need
  | 1 => .place (placeP t a.toNat)
  | _ => .place (placeE t a.toNat)

def isPlace (x : Reach) : Bool :=
  match x with
  | .place _ => true
  | _ => false

/-- The format register that governs a place: a P zone's or a W bank's; RAW elsewhere (R245). -/
def formatAt (s : State) (r : Reach) : BitVec 32 :=
  match r with
  | .place p =>
    match spaceOf p with
    | 0 => at' (getSite s (p / 0xC000000)).bank (p % 0xC000000 / 2048 % 32) 0x000B0000
    | 4 => let o := p % 2 ^ 48
           at' (getSeq s (o / 2 ^ 20)).zones (o % 2 ^ 20 / 65536) 0x000B0000
    | _ => 0x000B0000
  | _ => 0x000B0000

/-- A format register of another package, at the place of its class 5 address (10 R213). It is kept as its difference from RAW, which it
reads as at reset (10 R206), so that an unlisted place holds RAW. -/
def remoteFormat (s : State) (p : Nat) : BitVec 32 := BitVec.ofNat 32 (readNat s p 4) ^^^ 0x000B0000

def setRemoteFormat (s : State) (p : Nat) (v : BitVec 32) : State := writeNat s p 4 (v ^^^ 0x000B0000).toNat

/-- The class 5 address of the format register of the zone that a P byte's fabric address lies in (10 R213). -/
def zoneRegister (fa : Nat) : Nat := faPackage fa * 2 ^ 48 + 5 * 2 ^ 45 + fa / 2 ^ 21 % 512 * 2 ^ 21 + 0x100 + 4 * (fa % 2 ^ 20 / 65536)

/-- The place that a page's table gives a W byte, whatever its permissions and its site (10 R214, R215). -/
def framedPlace (s : State) (ctx fa : Nat) : Option Nat :=
  match (getCtx s ctx).map (fun x => walkOf s x fa) with
  | some (.leaf e l _) => some (framePlace 0 (homeDie fa) l e (transOffset fa))
  | _ => none

/-- The format of the element area at an address of an end of a copy for context `ctx`, by what an access there meets. A P byte named by its
fabric address lies in its zone, of this package or another, and a byte of this package's W in the bank that its page's table names,
whether or not the access is answered (R245, 10 R206, R213). W of another package, whose tables stand there, counts as RAW (log entry
114). -/
def formatMet (s : State) (ctx : Nat) (x : CopyEnd) (a : Int) (r : Reach) : Option (BitVec 32) :=
  let fa := fabricOf x a
  if x.space = 0 ∧ faClass fa = 4 ∧ !fa.testBit 20 then
    some (if faPackage fa = Config.ownPackage then at' (getSeq s (fa / 2 ^ 21 % 512)).zones (fa % 2 ^ 20 / 65536) 0x000B0000
      else remoteFormat s (placeRemote (zoneRegister fa)))
  else if x.space = 0 ∧ faPackage fa = Config.ownPackage ∧ faClass fa = 0 then
    (framedPlace s ctx fa).map (fun p => formatAt s (.place p))
  else if isPlace r then some (formatAt s r)
  else none

/-- Whether an address of an end lies in this package's W banks. -/
def inBank (x : CopyEnd) (a : Int) : Bool :=
  x.space == 0 && faPackage (fabricOf x a) == Config.ownPackage && faClass (fabricOf x a) == 0

/-- Formats alike: .i8 and .n8 are the presets I8 and N8 (10 R206). -/
def sameFormat (a b : BitVec 32) : Bool :=
  let norm (x : BitVec 32) : BitVec 32 := if x == 0x00020000 then 0x000A01C7 else if x == 0x00030000 then 0x000A0187 else x
  norm a == norm b

def isRaw (a : BitVec 32) : Bool := fieldN a 16 4 == 11

/-- Converting pairs that R209 refuses. -/
def convertRefused (sf df : BitVec 32) (ws wd : Bool) : Bool :=
  (regEl df).blk != 0 || fieldN sf 16 4 == 9 || fieldN df 16 4 == 9 || (ws && (regEl sf).blk != 0) || (wd && (regEl df).blk != 0)

/-- The lowest and highest of the positions an end visits (R245). -/
def extremes (c : Command) (pos : Nat → Int) (indexed : Bool) : Int × Int :=
  let l : List Int :=
    if indexed then (List.range (cpN0 c)).map pos
    else [pos 0, pos (cpN0 c - 1), pos (cpN0 c * (cpN1 c - 1)), pos (cpN0 c * cpN1 c - 1)]
  (l.foldl min (l.headD 0), l.foldl max (l.headD 0))

/-- Whether a footprint meets a format other than its first element's (R245). -/
def mixedFormats (f : BitVec 32) (l : List (Reach × Option (BitVec 32))) : Bool :=
  l.any (fun x => match x.2 with
    | some g => !sameFormat g f
    | none => false)

/-! ## Elements -/

/-- The unit's address and, in a converting copy, its first bit (R246). -/
def unitAt (x : CopyEnd) (convert : Bool) (esz : Nat) (pos : Int) : Int × Nat :=
  if convert then
    let b : Int := 8 * x.addr + pos * (regEl x.fmt).w
    (b / 8, (b % 8).toNat)
  else (x.addr + pos * esz, 0)

/-- The bytes that a unit spans. -/
def unitSpan (x : CopyEnd) (convert : Bool) (esz bit : Nat) : Nat := if convert then ceilDiv (bit + (regEl x.fmt).w) 8 else esz

/-- A source address held within its bound (R248), and whether it was clamped. -/
def clampEnd (x : CopyEnd) (a : Int) (span : Nat) : Int × Bool :=
  if a < x.lo then (x.lo, true) else if x.hi < a + span then (max x.lo (x.hi - span), true) else (a, false)

/-- The position of a converting source element held within its bound: outside it, that of the element at the bound (R248). -/
def clampPos (x : CopyEnd) (pos : Int) : Int × Bool :=
  let w : Int := (regEl x.fmt).w
  let first := (8 * (x.lo - x.addr) + w - 1) / w
  let last := 8 * (x.hi - x.addr) / w - 1
  if pos < first then (first, true) else if last < pos then (max first last, true) else (pos, false)

/-- The source unit of position `pos`: its address, its first bit, the bytes it spans, and whether it was clamped (R246, R248). -/
def sourceUnit (x : CopyEnd) (convert : Bool) (esz : Nat) (pos : Int) : Int × Nat × Nat × Bool :=
  if convert then
    let y := clampPos x pos
    let u := unitAt x true esz y.1
    (u.1, u.2, unitSpan x true esz u.2, y.2)
  else
    let y := clampEnd x (unitAt x false esz pos).1 esz
    (y.1, 0, esz, y.2)

/-- A unit's bytes as they lie: one piece, or two where a packed element crosses a page of a D end, each translated by itself
(10 R217). -/
def unitPieces (x : CopyEnd) (a : Int) (span : Nat) : List (Int × Nat) :=
  let room := 65536 - fabricOf x a % 65536
  if x.space = 0 ∧ room < span then [(a, room), (a + (room : Int), span - room)] else [(a, span)]

/-- What an element read gives: bytes with the places of the damaged words among them, an error reply (with the die if in reset), or a
wait. -/
inductive Got where
  | data (place : Nat) (bytes : List Byte) (bad : List Nat)
  | failed (r : Reach)
  | held
  deriving DecidableEq, Repr

/-- Bytes as this copy may read them: as they stand now, or, byte and mark alike, as it found them (R258). -/
def readUnit (s : State) (img : Table (Byte × Bool)) (fr p w : Nat) : List Byte × List Nat :=
  if Config.readsAtIssue fr then
    let l := (readBytes s p w).zipIdx.map (fun x => (tfind img (p + x.2)).getD (x.1, poisoned s (p + x.2) 1))
    let unit := damageUnit p
    (l.map (·.1), ((l.zipIdx.filter (fun x => x.1.2)).map (fun x => (p + x.2) / unit * unit)).eraseDups)
  else (readBytes s p w, damagedIn s p w)

/-- The bytes that a copy may still read as it found them: none where both its ends are host-ordered, so that its read of a location it has
written gives that write or a later one (18 R336). -/
def runImage (r : CopyRun) : Table (Byte × Bool) := if r.src.ho && r.dst.ho then [] else r.image

/-- What reading `w` bytes of what an access meets gives; a format register's value, where it is one. -/
def readReach (s : State) (img : Table (Byte × Bool)) (fr : Nat) (r : Reach) (w : Nat) : Got :=
  let from_ (p : Nat) : Got := let u := readUnit s img fr p w; .data p u.1 u.2
  match r with
  | .place p => from_ p
  | .remote p => if faClass (p - placeRemote 0) = 5 then .data 0 (leBytes w (remoteFormat s p).toNat) [] else from_ p
  | .zoneReg n z => .data 0 (leBytes w (at' (getSeq s n).zones z 0x000B0000).toNat) []
  | .bankReg x b => .data 0 (leBytes w (at' (getSite s x).bank b 0x000B0000).toNat) []
  | .waits _ => .held
  | .migrates _ => .held
  | .blocked => .held
  | r => .failed r

/-- The pieces of an element read together: the first that fails decides. -/
def readPieces (s : State) (img : Table (Byte × Bool)) (fr : Nat) : List (Reach × Nat) → Got
  | [] => .data 0 [] []
  | [x] => readReach s img fr x.1 x.2
  | x :: rest =>
    match readReach s img fr x.1 x.2, readPieces s img fr rest with
    | .data p l b, .data _ m c => .data p (l ++ m) (b ++ c)
    | .data _ _ _, g => g
    | g, _ => g

/-- An element of a converting copy's source: its number, whether damage shows, the flags its reading sets, and the place of damaged
scale bytes. -/
structure SourceEl where
  num : Num
  bad : Bool := false
  flags : BitVec 6 := 0
  scale : Option Nat := none

/-- Whether a place lies in a P zone, of this package or another. -/
def inZone (place : Nat) : Bool :=
  spaceOf place == 4 || (spaceOf place == 7 && faClass (place - placeRemote 0) == 4 && !(place - placeRemote 0).testBit 20)

/-- The place of the scale bytes of the element that stands at bit `bit` of a place: none where the format has no scale, or past the
element area (10 R208). -/
def elementScale (f : ElFmt) (place bit : Nat) : Option Nat :=
  let o := place % 65536
  let nb := 65536 / (f.blk * f.w / 8 + f.sck)
  let e := (8 * o + bit) / f.w
  if f.blk ≠ 0 ∧ inZone place ∧ e < nb * f.blk then some (place - o + 65536 - f.sck * nb + f.sck * (e / f.blk)) else none

/-- The element of a converting copy's source (R209, 06 R130, 10 R208). nan(0x2), of a NaN scale or past the element area, sets invalid
(06 R131). -/
def sourceElement (s : State) (f : ElFmt) (place : Nat) (bit : Nat) (bytes : List Byte) (bad : Bool) : SourceEl :=
  let code := leNat bytes / 2 ^ bit % 2 ^ f.w
  if f.blk ≠ 0 ∧ inZone place then
    match elementScale f place bit with
    | none => { num := Num.nanOf 2, flags := causeFlag 2 }
    | some sa =>
      let dmg := poisoned s sa f.sck
      if bad || dmg then { num := Num.nanOf 6, bad := true, scale := if dmg then some sa else none }
      else
        let x := scaledEl f code (scaleEntry f.sck (readNat s sa f.sck)) false false
        { num := x, flags := if x = Num.nanOf 2 then causeFlag 2 else 0 }
  else if bad then { num := Num.nanOf 6, bad := true }
  else { num := decodeEl f code }

/-- The code a converting copy writes, and its flags (R209). A damaged element is written as the destination format's poison marker
(R255), with the flags of rounding nan(0x6) into a float format (06 R134; log entry 77). -/
def convertElement (df : ElFmt) (mode : Mode) (x : SourceEl) : Nat × BitVec 6 :=
  let y := convertTo df mode x.num
  if x.bad then
    (markerOf df, match df.kind with
      | .float _ => y.2
      | _ => 0)
  else (y.1, y.2 ||| x.flags)

/-- The records of an element's damaged words, one for each (R255, 02 R53): its own bytes' and its scale's. -/
def recordElement (s : State) (bad : List Nat) (scale : Option Nat) : State :=
  (match scale with
   | some a => if bad.any (fun p => p / 8 == a / 8) then bad else bad ++ [a]
   | none => bad).foldl recordDamage s

/-- `w` bits at bit `bit` of bytes replaced (R257: other bits of the byte stay). -/
def mergeCode (old : List Byte) (bit w code : Nat) : List Byte :=
  let o := leNat old
  let hi := o / 2 ^ (bit + w)
  leBytes old.length (o % 2 ^ bit + 2 ^ bit * (code % 2 ^ w) + 2 ^ (bit + w) * hi)

/-- The bytes of a range, with the marks on them, kept as they stood at the copy's issue (R258). -/
def keepImage (s : State) (img : Table (Byte × Bool)) (p w : Nat) : Table (Byte × Bool) :=
  (List.range w).foldl (fun t i => match tfind t (p + i) with
    | some _ => t
    | none => tset t (p + i) (memGet s.mem (p + i), poisoned s (p + i) 1)) img

/-- The same for all that a write of `w` bytes changes: a poisoned one marks whole words, or a whole line. -/
def keepWritten (s : State) (img : Table (Byte × Bool)) (p w : Nat) (bad : Bool) : Table (Byte × Bool) :=
  if bad then let u := damageUnit p; keepImage s img (p / u * u) (ceilDiv (p + w) u * u - p / u * u) else keepImage s img p w

/-- A write to what a destination reaches: the state, and the run with its counts. `bad` bytes are stored poisoned. A format register takes
the raw bytes of a poisoned unit (log entry 121), and a unit of 1, 2 or 8 bytes at its address gets an error reply (log entry 122). -/
def writeReach (s : State) (r : CopyRun) (dest : Reach) (bytes : List Byte) (bad : Bool) : State × CopyRun :=
  let at_ (p : Nat) : State × CopyRun :=
    let r := { r with image := keepWritten s r.image p bytes.length bad, written := r.written + 1 }
    (if bad then storePoisoned s p bytes else writeBytes s p bytes, r)
  let v : BitVec 32 := BitVec.ofNat 32 (leNat bytes)
  let reg (ok : BitVec 32 → State) : State × CopyRun :=
    if bytes.length ≠ 4 then (s, { r with supp := r.supp + 1, status := if r.status = 0 then 3 else r.status, xoff := if r.status = 0 then r.next else r.xoff })
    else if regValid v then (ok v, { r with written := r.written + 1 })
    else (s, { r with flags := r.flags ||| 4 })
  match dest with
  | .place p => at_ p
  | .remote p => if faClass (p - placeRemote 0) = 5 then reg (setRemoteFormat s p) else at_ p
  | .zoneReg n z => reg (fun v => modSeq s n (fun q => { q with zones := q.zones.set z v }))
  | .bankReg x b => reg (fun v => let st := getSite s x; setSite s x { st with bank := st.bank.set b v })
  | _ => (s, { r with supp := r.supp + 1, status := if r.status = 0 then 3 else r.status, xoff := if r.status = 0 then r.next else r.xoff })

/-- The compute die of a place of W, S, P or E. -/
def dieOfPlace (p : Nat) : Option Nat :=
  let o := p % 2 ^ 48
  match spaceOf p with
  | 0 => some (o / 0x3000000000)
  | 1 => some (o / 0x10000000)
  | 4 => some (o / 2 ^ 27)
  | 5 => some (o / 2 ^ 25)
  | _ => none

/-- An access as the copy's history decides it: an error reply owed by a pager's failure to a page, or by a die in reset that has already
answered this copy (21 R377). -/
def throughRun (r : CopyRun) (write : Bool) (fa : Nat) (x : Reach) : Reach :=
  if (if write then r.failW else r.failR).contains (pageOf fa) then .refused
  else match r.stopped with
    | some d => if targetDie fa = d then .inReset d else x
    | none => x

/-- What an access of a copy to an address of its own, of a target's, or of a D, end meets. -/
def reachRun (s : State) (n ctx t : Nat) (r : CopyRun) (x : CopyEnd) (a : Int) (need : Need) : Reach :=
  if x.space = 0 then throughRun r (need == 2) (fabricOf x a) (reachEnd s n ctx t x a need) else reachEnd s n ctx t x a need

/-- What a unit's piece of `w` bytes meets: in another sequencer's P or E, its last byte must be reached too (10 R213). -/
def reachSpan (s : State) (n ctx : Nat) (r : CopyRun) (x : CopyEnd) (p : Int × Nat) (need : Need) : Reach × Nat :=
  let y := reachRun s n ctx n r x p.1 need
  let z := reachRun s n ctx n r x (p.1 + (p.2 : Int) - 1) need
  (if x.space = 0 ∧ faClass (fabricOf x p.1) = 4 ∧ isPlace y ∧ !isPlace z then z else y, p.2)

/-- The addresses of an end that may hold elements: own and targets' zones reach past the window (R245). -/
def zoneSpan (x : CopyEnd) : Int × Int := if x.space = 1 then (0, 0x100000) else (x.lo, x.hi)

/-- What an end meets along a footprint, looked up every 2 KiB, and the format at each place (R245). -/
def footprint (s : State) (n ctx t : Nat) (r : CopyRun) (x : CopyEnd) (need : Need) (lo hi : Int) : List (Reach × Option (BitVec 32)) :=
  let lo := max lo (zoneSpan x).1
  let hi := min hi ((zoneSpan x).2 - 1)
  if hi < lo then []
  else
    ((List.range ((hi - lo).toNat / 2048 + 1)).map (fun (i : Nat) => lo + 2048 * (i : Int)) ++ [hi]).map (fun a =>
      let y := reachRun s n ctx t r x a need
      (y, formatMet s ctx x a y))

def stopAt (r : CopyRun) (x : Reach) : CopyRun :=
  match x with
  | .inReset d => { r with stopped := some d }
  | _ => r

/-- The slice of a staithe place, as die and slice (R262). -/
def sliceOf (x : Reach) : Option (Nat × Nat) :=
  match x with
  | .place p => if spaceOf p = 1 then some (p % 2 ^ 48 / 0x10000000, p % 0x10000000 / 0x400000) else none
  | _ => none

def setRun (s : State) (n : Nat) (r : CopyRun) : State :=
  modSeq s n (fun q => { q with cpy := { q.cpy with running := q.cpy.running.map (fun x => if x.cmd.serial = r.cmd.serial then r else x) } })

/-- The run after its element, ready for the next one a free time later (log entry 7). -/
def nextElement (s : State) (r : CopyRun) : CopyRun :=
  { r with next := r.next + 1, wait := 0, failR := [], failW := [], unit := none, ready := s.clock + Config.freeClocks s.free }

/-- An access of element `next` held at a controller (R217, R222), or not accepted by links that stop (21 R376): sent again in the next
clock. -/
def holdRun (s : State) (n c : Nat) (r : CopyRun) (x : Reach) (write : Bool) : State :=
  let s := setRun s n (if x = .blocked then { r with ready := s.clock + 1 } else { r with wait := 1 })
  match x with
  | .waits p => joinWait s c { seq := n, eng := 0, write := write, serial := r.cmd.serial, page := p }
  | .migrates p => modCtx s c (fun y => { y with migWaits := y.migWaits ++ [{ seq := n, eng := 0, write := true, serial := r.cmd.serial, page := p }] })
  | _ => s

/-- A staithe refuses (R262): RETRY counts, and the slice queues a permit. -/
def refuseRun (s : State) (n : Nat) (r : CopyRun) (x : Nat × Nat) : State :=
  { setRun s n { r with wait := 1, retry := r.retry + 1 } with refusals := s.refusals ++ [(x.1, x.2, n, r.cmd.serial)] }

/-- Whether a staithe refuses one of an element's accesses now (R262: which requests it cannot serve is left open). A request that was
held is performed in its turn (10 R222). -/
def refusal (s : State) (r : CopyRun) (l : List Reach) : Option (Nat × Nat) :=
  if r.wait = 3 ∨ r.wait = 5 then none
  else match l.filterMap sliceOf with
    | x :: _ => if Config.staitheRefuses s.free then some x else none
    | [] => none

/-- The destinations of an element: one, or one for each target (R249). -/
def destList (n : Nat) (k : CopyKind) (c : Command) : List Nat :=
  if k = .targets then
    ((List.range 16).filter (fun i => (bits (cpOf c 5) 16 16).getLsbD i)).map (fun i => fieldN (cpOf c 5) 0 9 + i)
  else [n]

/-- What the write of an element meets at one destination, piece by piece, and its first bit; none is out of bounds (R248). -/
def destReach (s : State) (n ctx t : Nat) (r : CopyRun) (k : CopyKind) (pos : Int) : Option (List (Reach × Nat) × Nat) :=
  let x := if k = .targets then targetEnd s t r.dst (cpDsp r.cmd) else r.dst
  let u := unitAt x r.convert (cpEsz r.cmd) pos
  let span := unitSpan x r.convert (cpEsz r.cmd) u.2
  let whole (y : Reach) : Option (List (Reach × Nat) × Nat) := some ([(y, span)], u.2)
  if k = .targets ∧ (dieStopped s (t / 128) ∨ r.stopped = some (t / 128)) then whole (.inReset (t / 128))
  else if k = .targets ∧ dieStopping s (t / 128) then whole .blocked
  else if k = .targets ∧ (!runsTask s ctx t || diesCut s (n / 128) (t / 128)) then whole .refused
  else if u.1 < x.lo ∨ x.hi < u.1 + span then none
  else if k = .targets then whole (reachEnd s n ctx t x u.1 2)
  else some ((unitPieces x u.1 span).map (fun p => reachSpan s n ctx r x p 2), u.2)

/-- Bytes written piece by piece to plain places, with the image of what they replace. -/
def writePieces (s : State) (r : CopyRun) : List (Reach × Nat) → List Byte → State × CopyRun
  | [], _ => (s, r)
  | (x, w) :: rest, l =>
    match x with
    | .place p => writePieces (writeBytes s p (l.take w)) { r with image := keepImage s r.image p w } rest (l.drop w)
    | _ => (s, r)

/-- The bytes now at plain places. -/
def pieceBytes (s : State) (l : List (Reach × Nat)) : List Byte :=
  l.flatMap (fun x => match x.1 with
    | .place p => readBytes s p x.2
    | _ => List.replicate x.2 0)

/-- The fabric address at which an access of a copy crosses the package: a D end's, or a target's own P or E byte; none in own P or E. -/
def crossing (t dsp : Nat) (x : CopyEnd) (a : Int) : Option Nat :=
  match x.space with
  | 0 => some (fabricOf x a)
  | 3 => some (Config.ownPackage * 2 ^ 48 + 4 * 2 ^ 45 + t * 2 ^ 21 + (if dsp = 2 then 2 ^ 20 else 0) + a.toNat % 2 ^ 20)
  | _ => none

/-- The replies to the accesses of one unit counted, each piece at the fabric address that it begins at (22 R383, R392). -/
def countPieces (s : State) (n ctx t dsp : Nat) (x : CopyEnd) : Int → List (Reach × Nat) → State
  | _, [] => s
  | a, y :: rest =>
    countPieces (match crossing t dsp x a with
      | some fa => countReach s n ctx fa y.1
      | none => s) n ctx t dsp x (a + (y.2 : Int)) rest

/-- One destination of an element written, suppressed or answered with an error (R247, R248, R263). -/
def writeElement (s : State) (n ctx t : Nat) (r : CopyRun) (k : CopyKind) (pos : Int) (code : Nat) (bytes : List Byte) (bad : Bool) :
    State × CopyRun :=
  match destReach s n ctx t r k pos with
  | none => (s, { r with supp := r.supp + 1, flags := r.flags ||| 2 })
  | some (ps, bit) =>
    let s := countPieces s n ctx t (cpDsp r.cmd) r.dst (unitAt r.dst r.convert (cpEsz r.cmd) pos).1 ps
    let r := ps.foldl (fun r p => stopAt r p.1) r
    match ps.find? (fun p => !isPlace p.1) with
    | some p => writeReach s r p.1 (if r.convert then [] else bytes) bad
    | none =>
      if r.convert then
        let y := writePieces s r ps (mergeCode (pieceBytes s ps) bit (regEl r.dst.fmt).w code)
        (y.1, { y.2 with written := y.2.written + 1 })
      else writeReach s r ((ps.map (·.1)).headD .refused) bytes bad

/-- Whether the scale bytes of an element read through the fabric lie outside the window of the sequencer that holds them (10 R213). -/
def scaleOutside (s : State) (r : CopyRun) (bit : Nat) (got : Got) : Bool :=
  match got with
  | .data p _ _ =>
    (match elementScale (regEl r.src.fmt) p bit with
     | some a =>
       let w := windowOf (getSeq s (a % 2 ^ 48 / 2 ^ 20))
       let o : Int := (a % 2 ^ 20 : Nat)
       r.convert && r.src.space == 0 && spaceOf p == 4 && (decide (o < w.1) || decide (w.2 < o + (regEl r.src.fmt).sck))
     | none => false)
  | _ => false

/-- What reading element `e` of a copy leaves: the state, and the run with the unit that is to be written, its code or its bytes and whether
they are stored poisoned (R246, R247, R255, R258). An error reply gives a poison unit (R263). A damaged element adds 1 to POISON once, when
it is read, however many targets it is written to and also where its write is suppressed (log entry 115). -/
def takeUnit (s : State) (r : CopyRun) (bit : Nat) (got : Got) : State × CopyRun :=
  let esz := cpEsz r.cmd
  match (if scaleOutside s r bit got then Got.failed .refused else got) with
  | .data p bytes bad =>
    if r.convert then
      let x := sourceElement s (regEl r.src.fmt) p bit bytes (!bad.isEmpty)
      let y := convertElement (regEl r.dst.fmt) (if (copyHeader r.cmd.op).rm = 0 then r.cmd.vmode else (copyHeader r.cmd.op).rm) x
      (recordElement s bad x.scale,
       { r with fp := r.fp ||| y.2, poison := r.poison + (if x.bad then 1 else 0), flags := if x.bad then r.flags ||| 1 else r.flags,
                unit := some (y.1, [], false) })
    else
      (recordElement s bad none,
       { r with poison := r.poison + (if bad.isEmpty then 0 else 1), flags := if bad.isEmpty then r.flags else r.flags ||| 1,
                unit := some (0, bytes, !bad.isEmpty) })
  | _ =>
    (s, { r with poison := r.poison + 1, flags := r.flags ||| 1, xoff := if r.status = 0 then r.next else r.xoff,
                 status := if r.status = 0 then 3 else r.status, unit := some (markerOf (regEl r.dst.fmt), List.replicate esz 0, true) })

/-- The read of the next element: held, refused by a staithe, or done, and its unit then kept until it is written. -/
def fetchElement (s : State) (n ctx : Nat) (k : CopyKind) (r : CopyRun) : State × Option CopyRun :=
  let esz := cpEsz r.cmd
  if k = .filled then (s, some { r with unit := some (0, leBytes esz (cpOf r.cmd 0).toNat, false) })
  else
    let u := sourceUnit r.src r.convert esz (sourcePos s n k r.cmd r.next)
    let src := (unitPieces r.src u.1 u.2.2.1).map (fun p => reachSpan s n ctx r r.src p 1)
    match (src.map (·.1)).find? isHeld with
    | some x => (holdRun s n ctx r x false, none)
    | none => match refusal s r (src.map (·.1)) with
      | some x => (refuseRun s n r x, none)
      | none =>
        let r := if u.2.2.2 then { r with flags := r.flags ||| 8 } else r
        let s := countPieces (noteIndex s n k r.cmd false r.next) n ctx n 0 r.src u.1 src
        let y := takeUnit s (src.foldl (fun r p => stopAt r p.1) r) u.2.1 (readPieces s (runImage r) s.free src)
        ({ y.1 with free := y.1.free + 1 }, some { y.2 with wait := 0 })

/-- The write of a unit that has been read, to each of its destinations: held, refused by a staithe, or done (R247, R248). A held write
keeps its unit, whatever its source holds later (10 R222). -/
def writeUnit (s : State) (n ctx : Nat) (k : CopyKind) (r : CopyRun) (unit : Nat × List Byte × Bool) : State :=
  let dpos := destPos s n k r.cmd r.next
  let ds := destList n k r.cmd
  let dr := (ds.filterMap (fun t => destReach s n ctx t r k dpos)).flatMap (fun x => x.1.map (·.1))
  match dr.find? isHeld with
  | some x => holdRun s n ctx r x true
  | none => match refusal s r dr with
    | some x => refuseRun s n r x
    | none =>
      let fin := ds.foldl (fun (a : State × CopyRun) t => writeElement a.1 n ctx t a.2 k dpos unit.1 unit.2.1 unit.2.2)
        (noteIndex s n k r.cmd true r.next, r)
      setRun fin.1 n (nextElement fin.1 fin.2)

/-- The next element of a moving or converting copy: its read, and, once that is done, its write (R247). -/
def moveElement (s : State) (n ctx : Nat) (k : CopyKind) (r : CopyRun) : State :=
  match r.unit with
  | some u => writeUnit s n ctx k r u
  | none => match fetchElement s n ctx k r with
    | (s, some r) => writeUnit s n ctx k r (r.unit.getD (0, [], false))
    | (s, none) => s

/-! ## Row copies (R250) -/

def cpwPos (c : Command) : Nat := fieldN (cpOf c 1) 0 17
def cpwReads (c : Command) : Bool := anyBit (cpOf c 1) 17 1
def cpwSites (c : Command) : List Nat := sitesIn (bits (cpOf c 1) 18 8)

/-- STATUS 0x06 (R250). -/
def rowsUnallocated (s : State) (n ctx : Nat) (c : Command) : Bool :=
  decide (98304 < cpwPos c + cpN0 c) ||
  (List.range (cpN0 c)).any (fun i => (cpwSites c).any (fun j =>
    let p := cpwPos c + i
    let x := siteOf n j
    inReserved p || inTableArea s x p || !(match getCtx s ctx with
      | some y => holdsW y x p
      | none => false)))

/-- The places of one row at the own end. -/
def rowAddr' (c : Command) (i : Nat) : Int := (cpOf c 0).toNat + 2048 * (i : Int)

/-- STATUS 0x01 (R250): some row would be converted by R209. -/
def rowsConvert (s : State) (n : Nat) (c : Command) : Bool :=
  cpSsp c == 1 &&
  (List.range (cpN0 c)).any (fun i => (cpwSites c).any (fun j =>
    let wf := at' (getSite s (siteOf n j)).bank ((cpwPos c + i) % 32) 0x000B0000
    let a := (rowAddr' c i).toNat
    [a, a + 2047].any (fun b =>
      let pf := at' (getSeq s n).zones (b / 65536) 0x000B0000
      !isRaw wf && !isRaw pf && !sameFormat wf pf)))

/-- A row moved (R255): where some word of it is damaged, every word that it touches is stored poisoned, and each damaged one recorded. -/
def moveRow (s : State) (src dst : Nat) : State :=
  let bad := damagedIn s src 2048
  let l := readBytes s src 2048
  if bad.isEmpty then writeBytes s dst l else storePoisoned (bad.foldl recordDamage s) dst l

/-- A row written or stored poisoned, as its counts show it. -/
def countRow (r : CopyRun) (bad clamped : Bool) : CopyRun :=
  { r with written := r.written + 1, poison := r.poison + (if bad then 1 else 0),
           flags := (if bad then r.flags ||| 1 else r.flags) ||| (if clamped then 8 else 0) }

/-- An error reply to a row's access (R263). -/
def rowFails (r : CopyRun) : CopyRun :=
  { r with xoff := if r.status = 0 then r.next else r.xoff, status := if r.status = 0 then 3 else r.status }

/-- The next row at one site of a CPYW (R250, R255). A retired site's error reply suppresses a write and makes of a read a poison unit
(R263, 22 R391). -/
def moveRowElement (s : State) (n : Nat) (r : CopyRun) : State :=
  let c := r.cmd
  let m := (cpwSites c).length
  let j := at' (cpwSites c) (r.next % m) 0
  let i := r.next / m
  let x := siteOf n j
  let w := placeW x (2048 * (cpwPos c + i))
  let own := if cpSsp c = 1 then placeP n else placeE n
  let a := rowAddr' c i
  let done (s : State) (r : CopyRun) : State := setRun s n (nextElement s r)
  if cpwReads c then
    let r := if (getSite s x).retired then rowFails r else r
    if a < r.src.lo ∨ r.src.hi < a + 2048 then done s { r with supp := r.supp + 1, flags := r.flags ||| 2 }
    else if (getSite s x).retired then done (storePoisoned s (own a.toNat) (List.replicate 2048 0)) (countRow r true false)
    else done (moveRow s w (own a.toNat)) (countRow r (poisoned s w 2048) false)
  else
    let cl := clampEnd r.src a 2048
    if (getSite s x).retired then done s { rowFails r with supp := r.supp + 1, flags := r.flags ||| (if cl.2 then 8 else 0) }
    else done (moveRow s (own cl.1.toNat) w) (countRow r (poisoned s (own cl.1.toNat) 2048) cl.2)

/-! ## Compressed blocks (R252 to R254) -/

def cpxCompress (c : Command) : Bool := anyBit (cpOf c 5) 0 1
def cpxPB (c : Command) : Nat := 64 * fieldN (cpOf c 5) 1 7

/-- The first `n` elements of a list while equal to `b`. -/
def runLength (b : Byte) : Nat → List Byte → Nat
  | 0, _ => 0
  | _, [] => 0
  | k + 1, x :: r => if x = b then runLength b k r + 1 else 0

/-- Whether a position with previous byte `prev` starts a zero run of 2 or a run of 3 (R253). -/
def startsRun (prev : Option Byte) (l : List Byte) : Bool :=
  decide (2 ≤ runLength 0 64 l) || (match prev with
    | some b => decide (3 ≤ runLength b 64 l)
    | none => false)

/-- The length of a literal: bytes until a run starts, at most `k` more (R253). -/
def literalLength : Nat → Byte → List Byte → Nat
  | 0, _, _ => 0
  | _, _, [] => 0
  | k + 1, prev, x :: r => if startsRun (some prev) (x :: r) then 0 else literalLength k x r + 1

/-- The payload of R253's rule. -/
def compressGo : Nat → Option Byte → List Byte → List Byte
  | 0, _, _ => []
  | _, _, [] => []
  | fuel + 1, prev, x :: r =>
    let l := x :: r
    let z := runLength 0 64 l
    let k := match prev with
      | some b => runLength b 64 l
      | none => 0
    if 2 ≤ z then BitVec.ofNat 8 (0x7F + z) :: compressGo fuel (some 0) (l.drop z)
    else if 3 ≤ k then BitVec.ofNat 8 (0xBF + k) :: compressGo fuel prev (l.drop k)
    else
      let n := 1 + literalLength 127 x r
      BitVec.ofNat 8 (n - 1) :: (l.take n ++ compressGo fuel (some (at' l (n - 1) 0)) (l.drop n))

/-- The PB bytes of a compressed block; none where even the stored form does not fit (R252, R253). -/
def compressBlock (pb : Nat) (plain : List Byte) (bad : Bool) : Option (List Byte) :=
  let pad (h : Nat) (pay : List Byte) : List Byte := (leBytes 4 h ++ pay ++ List.replicate (pb - 4 - pay.length) 0).take pb
  let n := plain.length
  if bad then some (pad (n + 2 ^ 14) [])
  else
    let pay := compressGo (n + 1) none plain
    if pay.length ≤ pb - 4 then some (pad (n + 2 ^ 16 * pay.length) pay)
    else if n ≤ pb - 4 then some (pad (n + 2 ^ 13 + 2 ^ 16 * n) plain)
    else none

/-- The outcome of decoding tokens: the bytes, and the error with the payload offset it stands at (R254). -/
structure Tokens where
  out : List Byte
  err : Option (Nat × Nat) := none
  deriving DecidableEq, Repr

/-- Tokens from payload offset `off` (R253, R254): errors 6, 7, 8 and 9. A token that meets two conditions has error 7 before 6 and 6 before
8 (log entry 116). -/
def expandGo (plen : Nat) : Nat → Nat → List Byte → List Byte → Tokens
  | 0, off, out, _ => { out := out, err := some (8, off) }
  | fuel + 1, off, out, pay =>
    if out.length = plen then
      (if pay.isEmpty then { out := out } else { out := out, err := some (9, off) })
    else match pay with
      | [] => { out := out, err := some (8, off) }
      | t :: r =>
        let v := t.toNat
        let n := if v < 0x80 then v + 1 else if v < 0xC0 then v - 0x7F else v - 0xBF
        if 0xC0 ≤ v ∧ out.isEmpty then { out := out, err := some (7, off) }
        else if plen < out.length + n then { out := out, err := some (6, off) }
        else if v < 0x80 then
          if r.length < n then { out := out ++ r, err := some (8, off + 1 + r.length) }
          else expandGo plen fuel (off + 1 + n) (out ++ r.take n) (r.drop n)
        else expandGo plen fuel (off + 1) (out ++ List.replicate n (if v < 0xC0 then 0 else out.getLastD 0)) r

/-- A block expanded (R252 to R254): its plain bytes, its PLEN, whether they stand for damage, and the error with its
offset in the block. -/
structure Expanded where
  out : List Byte
  plen : Nat
  psn : Bool := false
  err : Option (Nat × Nat) := none
  deriving DecidableEq, Repr

def expandBlock (pb : Nat) (last : Bool) (b : List Byte) : Expanded :=
  let h := leNat (b.take 4)
  let plen := h % 2 ^ 13
  let stored : Bool := h / 2 ^ 13 % 2 == 1
  let psn : Bool := h / 2 ^ 14 % 2 == 1
  let clen := h / 2 ^ 16
  if plen = 0 ∨ 4096 < plen then { out := [], plen := plen, err := some (1, 0) }
  else if plen < 4096 ∧ !last then { out := [], plen := plen, err := some (2, 0) }
  else if h / 2 ^ 15 % 2 = 1 ∨ (psn ∧ clen ≠ 0) then { out := [], plen := plen, err := some (3, 0) }
  else if pb - 4 < clen then { out := [], plen := plen, err := some (4, 0) }
  else if stored ∧ clen ≠ plen then { out := [], plen := plen, err := some (5, 0) }
  else if psn then { out := [], plen := plen, psn := true }
  else
    let pay := (b.drop 4).take clen
    if stored then { out := pay, plen := plen }
    else
      let t := expandGo plen (clen + 1) 0 [] pay
      match t.err with
      | none => { out := t.out, plen := plen }
      | some (6, o) => { out := t.out, plen := plen, err := some (6, 4 + o) }
      | some (7, o) => { out := [], plen := plen, err := some (7, 4 + o) }
      | some (8, _) => { out := t.out, plen := plen, err := some (8, 4 + clen) }
      | some (k, o) => { out := t.out, plen := plen, err := some (k, 4 + o) }

/-- The byte that stands at an offset of a zone filled with poison markers (R255). -/
def markerByte (f : BitVec 32) (off : Nat) : Byte :=
  let x := regEl f
  if isRaw f then 0xFF
  else
    let m := markerOf x
    if x.blk ≠ 0 ∧ (65536 / (x.blk * x.w / 8 + x.sck)) * x.blk * x.w / 8 ≤ off then 0xFF
    else BitVec.ofNat 8 ((List.range 8).foldl (fun a i => a + 2 ^ i * (m / 2 ^ ((8 * off + i) % x.w) % 2)) 0)

/-- The marker for a byte of the plain end. -/
def plainMarker (q : Seq) (x : CopyEnd) (a : Int) : Byte :=
  if x.space = 1 then markerByte (at' q.zones (a.toNat / 65536) 0x000B0000) (a.toNat % 65536) else 0xFF

/-- Plain bytes written from an address on, bytes out of bounds suppressed (R248). -/
def writePlain (s : State) (n : Nat) (r : CopyRun) (a : Int) : List Byte → State × CopyRun
  | [] => (s, r)
  | b :: rest =>
    let x := r.dst
    let step : State × CopyRun :=
      if a < x.lo ∨ x.hi ≤ a then (s, { r with supp := r.supp + 1, flags := r.flags ||| 2 })
      else (writeBytes s (if x.space = 1 then placeP n a.toNat else placeE n a.toNat) [b], { r with written := r.written + 1 })
    writePlain step.1 n step.2 (a + 1) rest

/-- Markers for `k` bytes from an address on (R254, R255); those out of bounds are not written and count nothing in POISON (R263).
The fill of a malformed block sets FLAGS.POIS as one of a damaged block does, also where no marker is written (log entry 134). -/
def writeMarkers (s : State) (n : Nat) (r : CopyRun) (a : Int) (k : Nat) : State × CopyRun :=
  let q := getSeq s n
  let w := writePlain s n r a ((List.range k).map (fun (i : Nat) => plainMarker q r.dst (a + (i : Int))))
  (w.1, { w.2 with poison := w.2.poison + (w.2.written - r.written), flags := w.2.flags ||| 1 })

/-- The source bytes of a compressed block, each through its own translation. -/
def blockSources (s : State) (n ctx : Nat) (r : CopyRun) (b : Nat) : List (Int × Reach) :=
  (List.range (cpxPB r.cmd)).map (fun i =>
    let a := (clampEnd r.src (r.src.addr + (cpxPB r.cmd * b + i : Nat)) 1).1
    (a, reachRun s n ctx n r r.src a 1))

/-- The destination bytes of a compressed block that lie in bounds; the others are suppressed and sent nowhere (R248). -/
def blockDests (s : State) (n ctx : Nat) (r : CopyRun) (b : Nat) : List Reach :=
  (List.range (cpxPB r.cmd)).filterMap (fun i =>
    let a := r.dst.addr + (cpxPB r.cmd * b + i : Nat)
    if a < r.dst.lo ∨ r.dst.hi ≤ a then none else some (reachRun s n ctx n r r.dst a 2))

/-- The places of the damaged words among bytes read, one for each word or line that is marked as a whole. -/
def damagedPlaces (l : List (Reach × Bool)) : List Nat :=
  l.foldl (fun o x => match x with
    | (.place p, true) => if o.any (fun q => q / damageUnit p == p / damageUnit p) then o else o ++ [p]
    | (.remote p, true) => if o.any (fun q => q / damageUnit p == p / damageUnit p) then o else o ++ [p]
    | _ => o) []

/-- Whether a byte of a block begins a piece of it that is answered by itself: the block's first in range, and each 64-byte line's (log
entry 117). -/
def beginsPiece (x : CopyEnd) (start a : Int) : Bool := decide (a = start) || (x.space == 0 && fabricOf x a % 64 == 0)

/-- The first bytes of the pieces of a compressed block's source, whose addresses are held within the range: a byte at the bound that is
read again begins none (R248; log entry 117). -/
def sourcePieces (x : CopyEnd) (l : List (Int × Reach)) : List (Int × Reach) :=
  match l with
  | [] => []
  | f :: rest =>
    f :: (((l.zip rest).filter (fun p => p.2.1 != p.1.1 && beginsPiece x f.1 p.2.1)).map (·.2))

/-- The next block of an expansion (R253, R254). A block with a damaged or unanswered byte is taken as one whose plain
data was damaged (log entry 20); XOFF of an unanswered one is its offset, PB·b (log entry 118). -/
def expandElement (s : State) (n ctx : Nat) (r : CopyRun) : State :=
  let b := r.next
  let pb := cpxPB r.cmd
  let total := cpN0 r.cmd
  let src := blockSources s n ctx r b
  let rs := src.map (·.2)
  match rs.find? isHeld with
  | some x => holdRun s n ctx r x false
  | none => match refusal s r rs with
    | some x => refuseRun s n r x
    | none =>
      let bytes : List (Byte × Bool × Bool) := rs.map (fun x => match readReach s (runImage r) s.free x 1 with
        | .data _ l bad => (l.headD 0, !bad.isEmpty, false)
        | _ => (0, true, true))
      let failed := bytes.any (fun x => x.2.2)
      let bad := bytes.any (fun x => x.2.1)
      let clamped : Bool := decide (r.src.addr + (pb * b : Nat) < r.src.lo) || decide (r.src.hi < r.src.addr + (pb * b + pb : Nat))
      let r := { r with flags := if clamped then r.flags ||| 8 else r.flags,
                        xoff := if failed ∧ r.status = 0 then pb * b else r.xoff, status := if failed ∧ r.status = 0 then 3 else r.status }
      let s := (sourcePieces r.src src).foldl (fun s x => countPieces s n ctx n 0 r.src x.1 [(x.2, 1)]) s
      let r := rs.foldl stopAt r
      let s := (damagedPlaces (rs.zip (bytes.map (fun x => x.2.1 && !x.2.2)))).foldl recordDamage s
      let x := expandBlock pb (decide (b + 1 = total)) (bytes.map (·.1))
      let base : Int := r.dst.addr + (4096 * b : Nat)
      if bad then
        let w := writeMarkers s n r base (if x.plen = 0 ∨ 4096 < x.plen then 4096 else x.plen)
        setRun w.1 n (nextElement w.1 w.2)
      else match x.err with
        | none =>
          let w := if x.psn then writeMarkers s n r base x.plen else writePlain s n r base x.out
          setRun w.1 n (nextElement w.1 w.2)
        | some (k, off) =>
          let w := writePlain s n r base x.out
          let stop := 4096 * (total - 1) + x.plen
          let from_ := 4096 * b + (if k = 9 then 4096 else x.out.length)
          let m := writeMarkers w.1 n w.2 (r.dst.addr + (from_ : Nat)) (stop - from_)
          setRun m.1 n { nextElement m.1 m.2 with next := total, xerr := BitVec.ofNat 8 k, xoff := if m.2.status = 0 then pb * b + off else m.2.xoff,
                                                  status := if m.2.status = 0 then 4 else m.2.status }

/-- A compressed block's bytes written, each through its own translation. -/
def writeBlock (s : State) (n ctx : Nat) (r : CopyRun) (x : CopyEnd) (start a : Int) : List Byte → State × CopyRun
  | [] => (s, r)
  | b :: rest =>
    let w : State × CopyRun :=
      if a < x.lo ∨ x.hi ≤ a then (s, { r with supp := r.supp + 1, flags := r.flags ||| 2 })
      else
        let d := reachRun s n ctx n r x a 2
        writeReach (if beginsPiece x (max start x.lo) a then countPieces s n ctx n 0 x a [(d, 1)] else s) (stopAt r d) d [b] false
    writeBlock w.1 n ctx w.2 x start (a + 1) rest

/-- The next block of a compression (R253). XOFF of an unanswered write is the block's number (log entry 118). -/
def compressElement (s : State) (n ctx : Nat) (r : CopyRun) : State :=
  let b := r.next
  let pb := cpxPB r.cmd
  let rs := blockDests s n ctx r b
  match rs.find? isHeld with
  | some x => holdRun s n ctx r x true
  | none => match refusal s r rs with
    | some x => refuseRun s n r x
    | none =>
      let own := if r.src.space = 1 then placeP n else placeE n
      let at_ (i : Nat) : Int × Bool := clampEnd r.src (r.src.addr + (4096 * b + i : Nat)) 1
      let plain := (List.range 4096).map (fun i => memGet s.mem (own (at_ i).1.toNat))
      let bads := (List.range 4096).filter (fun i => poisoned s (own (at_ i).1.toNat) 1)
      let clamped := (List.range 4096).any (fun i => (at_ i).2)
      let s := (bads.map (fun i => own ((at_ i).1.toNat / 8 * 8))).eraseDups.foldl recordDamage s
      let r := { r with poison := r.poison + bads.length, flags := (if bads.isEmpty then r.flags else r.flags ||| 1) ||| (if clamped then 8 else 0) }
      match compressBlock pb plain (!bads.isEmpty) with
      | some l =>
        let w := writeBlock s n ctx r r.dst (r.dst.addr + (pb * b : Nat)) (r.dst.addr + (pb * b : Nat)) l
        setRun w.1 n (nextElement w.1 w.2)
      | none =>
        setRun s n { nextElement s r with next := cpN0 r.cmd, xoff := if r.status = 0 then 4096 * b else r.xoff, status := if r.status = 0 then 5 else r.status }

/-! ## Starting (R244 to R248) -/

/-- A copy refused before it begins: its record and post follow (R244). -/
def refusedRun (c : Command) (status : BitVec 8) : CopyRun := { cmd := c, status := status }

/-- An end of a plain, strided, indexed, target or fill copy whose first access takes `w` bytes at `a`. -/
def moveEnd (q : Seq) (k : CopyKind) (c : Command) (dest : Bool) (a : Int) (w : Nat) : Option CopyEnd :=
  if dest then
    (if k = .targets then some { space := 3, addr := (cpOf c 1).toNat, lo := 0, hi := 2 ^ 64 } else endOf q (cpDsp c) (cpOf c 1).toNat a w 2)
  else if k = .filled then some {} else endOf q (cpSsp c) (cpOf c 0).toNat a w 1

/-- How a copy begins: its run, the fatal error OUTSIDE_RANGES at an address, or a held lookup of the formats of its ends. -/
inductive Begin where
  | run (r : CopyRun)
  | outside (va : Word)
  | held (x : Reach) (write : Bool)
  deriving DecidableEq, Repr

/-- The staged address of an end and the position of its first element. -/
def firstPos (s : State) (n : Nat) (k : CopyKind) (c : Command) (dest : Bool) : Int × Int :=
  if dest then ((cpOf c 1).toNat, destPos s n k c 0) else ((cpOf c 0).toNat, sourcePos s n k c 0)

/-- What the first element of an end meets where it lies: a source's within its bound (R248), a destination's in its own zone (R245). -/
def firstMet (s : State) (n ctx t : Nat) (r : CopyRun) (x : CopyEnd) (dest : Bool) (a : Int) : Reach :=
  if !dest then reachRun s n ctx t r x (clampEnd x a 1).1 1
  else if a < (zoneSpan x).1 ∨ (zoneSpan x).2 ≤ a then .refused
  else reachRun s n ctx t r x a 2

/-- The targets of a CPYT that run a task of its context (R249); of another copy, its own sequencer. -/
def liveDests (s : State) (n ctx : Nat) (k : CopyKind) (c : Command) : List Nat :=
  (destList n k c).filter (fun t => k != .targets || runsTask s ctx t)

/-- The end whose first element spans `w` bytes at `a`, with the format that element has, and what it meets. -/
def firstEnd (s : State) (n ctx : Nat) (k : CopyKind) (r : CopyRun) (dest : Bool) (a : Int) (w : Nat) : Option (CopyEnd × Reach) :=
  (moveEnd (getSeq s n) k r.cmd dest a w).map (fun x =>
    let y : Reach :=
      if !dest && k == .filled then .refused
      else if dest && k == .targets then
        (match (liveDests s n ctx k r.cmd).head? with
         | some t => firstMet s n ctx t r (targetEnd s t x (cpDsp r.cmd)) true a
         | none => .refused)
      else firstMet s n ctx n r x dest a
    let at_ := if dest then a else (clampEnd x a 1).1
    ({ x with fmt := (formatMet s ctx x at_ y).getD 0x000B0000, bank := inBank x at_ }, y))

/-- The first element of an end as a converting copy lays it out (R246): elements as wide as the format that governs it. An indexed
end's first element is found from the format at the staged address (log entry 82). -/
def packedFirst (s : State) (n ctx : Nat) (k : CopyKind) (r : CopyRun) (dest : Bool) : Option (CopyEnd × Reach) :=
  let p := firstPos s n k r.cmd dest
  let look (f : BitVec 32) : Option (CopyEnd × Reach) :=
    let w := (regEl f).w
    let b := 8 * p.1 + p.2 * w
    firstEnd s n ctx k r dest (b / 8) (ceilDiv ((b % 8).toNat + w) 8)
  let fmt (x : Option (CopyEnd × Reach)) : BitVec 32 := (x.map (·.1.fmt)).getD 0x000B0000
  look (fmt (look (fmt (firstEnd s n ctx k r dest p.1 1))))

/-- The footprints of both ends of a converting copy, every target's own (R245): what they meet, and whether a format differs from the
first element's. -/
def convertFootprints (s : State) (n ctx : Nat) (k : CopyKind) (r : CopyRun) (x y : CopyEnd) : List Reach × List Reach × Bool :=
  let c := r.cmd
  let ws := (regEl x.fmt).w
  let wd := (regEl y.fmt).w
  let se := extremes c (sourcePos s n k c) (k == .indexed && !anyBit (cpOf c 5) 20 1)
  let de := extremes c (destPos s n k c) (k == .indexed && anyBit (cpOf c 5) 20 1)
  let src := footprint s n ctx n r x 1 ((8 * x.addr + se.1 * ws) / 8) ((8 * x.addr + se.2 * ws + ws - 1) / 8)
  let dst := (liveDests s n ctx k c).flatMap (fun t => footprint s n ctx t r (if k = .targets then targetEnd s t y (cpDsp c) else y) 2
    ((8 * y.addr + de.1 * wd) / 8) ((8 * y.addr + de.2 * wd + wd - 1) / 8))
  (src.map (·.1), dst.map (·.1), mixedFormats x.fmt src || mixedFormats y.fmt dst)

/-- A converting copy whose ends are mapped begins (R209, R245, R246). Where an element may start is judged from the zone's first byte in P
and from the row's in W, which holds 2,048 bytes (log entry 119). -/
def beginConvert (s : State) (n ctx : Nat) (k : CopyKind) (r : CopyRun) (x y : CopyEnd) : Begin :=
  let off (e : CopyEnd) : Bool := decide (8 * (e.addr % (if e.bank then 2048 else 65536)) % (regEl e.fmt).w ≠ 0)
  if off x || off y then .run (refusedRun r.cmd 2)
  else if convertRefused x.fmt y.fmt x.bank y.bank then .run (refusedRun r.cmd 1)
  else
    let f := convertFootprints s n ctx k r x y
    match f.1.find? isHeld, f.2.1.find? isHeld with
    | some h, _ => .held h false
    | none, some h => .held h true
    | none, none => .run (if f.2.2 then refusedRun r.cmd 1 else { cmd := r.cmd, src := x, dst := y, convert := true, total := cpN0 r.cmd * cpN1 r.cmd })

/-- How a plain, strided, indexed, target or fill copy begins: the staged values are checked before the ends are mapped (R244), each by
its first element (R248, 10 R211). A copy whose conversion depends on a page that is held waits for it. -/
def beginMove (s : State) (n ctx : Nat) (k : CopyKind) (r : CopyRun) : Begin :=
  let c := r.cmd
  let esz := cpEsz c
  let px := packedFirst s n ctx k r false
  let py := packedFirst s n ctx k r true
  let fr := (px.map (·.2)).getD .refused
  let tr := (py.map (·.2)).getD .refused
  let sf := (px.map (·.1.fmt)).getD 0x000B0000
  let df := (py.map (·.1.fmt)).getD 0x000B0000
  let conv : Bool := k != .filled && !isRaw sf && !isRaw df && !sameFormat sf df
  let waits : Bool := k != .filled && (isHeld fr || isHeld tr) && (isHeld fr || !isRaw sf) && (isHeld tr || !isRaw df)
  if stagingBad k c (conv || waits) then .run (refusedRun c 2)
  else if waits then (if isHeld fr then .held fr false else .held tr true)
  else
    let moved (dest : Bool) : Int := let p := firstPos s n k c dest; p.1 + p.2 * (esz : Int)
    let ends := if conv then (px, py) else (firstEnd s n ctx k r false (moved false) esz, firstEnd s n ctx k r true (moved true) esz)
    match ends with
    | (none, _) => .outside (BitVec.ofInt 64 (moved false))
    | (_, none) => .outside (BitVec.ofInt 64 (moved true))
    | (some x, some y) =>
      let x : CopyEnd := { x.1 with fmt := sf }
      let y : CopyEnd := { y.1 with fmt := df }
      if conv then beginConvert s n ctx k r x y else .run { cmd := c, src := x, dst := y, total := cpN0 c * cpN1 c }

/-- The run of a CPYW. -/
def beginRows (s : State) (n ctx : Nat) (c : Command) : CopyRun :=
  if stagingBad .rows c false then refusedRun c 2
  else if rowsUnallocated s n ctx c then refusedRun c 6
  else if rowsConvert s n c then refusedRun c 1
  else
    let q := getSeq s n
    let own : CopyEnd := if cpSsp c = 1 then { space := 1, lo := (windowOf q).1, hi := (windowOf q).2 } else { space := 2, lo := 0, hi := 0x40000 }
    { cmd := c, src := own, total := cpN0 c * (cpwSites c).length }

/-- The run of a CPYX. -/
def beginBlocks (s : State) (n : Nat) (c : Command) : Begin :=
  if stagingBad .blocks c false then .run (refusedRun c 2)
  else
    let q := getSeq s n
    let sa : Int := (cpOf c 0).toNat
    let da : Int := (cpOf c 1).toNat
    match endOf q (cpSsp c) sa sa 1 1, endOf q (cpDsp c) da da 1 2 with
    | none, _ => .outside (cpOf c 0)
    | _, none => .outside (cpOf c 1)
    | some x, some y => .run { cmd := c, src := x, dst := y, total := cpN0 c }

def addCopyRun (s : State) (n : Nat) (r : CopyRun) : State :=
  modSeq s n (fun q => { q with cpy := { q.cpy with running := q.cpy.running ++ [{ r with ready := s.clock + Config.freeClocks s.free }] } })

/-- CPYQ's start (R251): refused, the fatal error outside the window, or its write. CLR clears the counts that MODE 0 has written; with
MODE 1 it clears nothing (log entry 120). -/
def startQuery (s : State) (n : Nat) (c : Command) : State :=
  let w := cpOf c 0
  let q := getSeq s n
  let table : Bool := anyBit w 20 1
  let a := if table then fieldN w 6 14 * 64 else fieldN w 5 15 * 32
  let len := if table then 64 else 32
  if anyBit w 22 42 || ((copyHeader c.op).rf && anyBit (cpOf c 7) 56 8) then addCopyRun s n (refusedRun c 2)
  else if (a : Int) < (windowOf q).1 ∨ (windowOf q).2 < (a + len : Nat) then chargeFatal s n 0x01 6 c.bundle (BitVec.ofNat 64 a)
  else
    let cl := n % 128 / 16
    let lat (i : Nat) : Nat :=
      let d := i / 8
      8 + 4 * ((cl % 4 - d % 4) + (d % 4 - cl % 4)) + 6 * ((cl / 4 - d / 4) + (d / 4 - cl / 4))
    let bytes : List Byte := if table then (List.range 64).map (fun i => BitVec.ofNat 8 (lat i))
      else leBytes 4 q.cpy.completed.toNat ++ leBytes 4 q.cpy.failed.toNat ++ leBytes 8 q.cpy.refusals.toNat ++
        leBytes 8 q.cpy.elements.toNat ++ leBytes 8 q.sr.sched.toNat
    let s := writeBytes s (placeP n a) bytes
    let s := if !table && anyBit w 21 1 then
        modSeq s n (fun q => { q with cpy := { q.cpy with completed := 0, failed := 0, refusals := 0, elements := 0 } })
      else s
    addCopyRun s n { cmd := c }

/-- How a copy of a kind begins; `r` holds its command and what its beginning has met so far. -/
def beginCopy (s : State) (n ctx : Nat) (r : CopyRun) : Begin :=
  match copyKind r.cmd.op with
  | .rows => .run (beginRows s n ctx r.cmd)
  | .blocks => beginBlocks s n r.cmd
  | k => if stagingBad k r.cmd true then .run (refusedRun r.cmd 2) else beginMove s n ctx k r

def dropRun (s : State) (n serial : Nat) : State :=
  modSeq s n (fun q => { q with cpy := { q.cpy with running := q.cpy.running.filter (fun x => x.cmd.serial != serial) } })

/-- A beginning copy, already among the running ones as `r`, has its run, stops its context and neither completes nor posts (05 R118), or
waits on. An error reply that a pager's failure owes it is its first element's too (10 R221). -/
def enterRun (s : State) (n ctx : Nat) (r : CopyRun) : Begin → State
  | .run y => setRun s n { y with ready := s.clock + Config.freeClocks s.free, failR := r.failR, failW := r.failW }
  | .outside va => chargeFatal (dropRun s n r.cmd.serial) n 0x02 6 r.cmd.bundle va
  | .held x w => holdRun s n ctx r x w

/-- The next access of a running copy, or its beginning where that was held. -/
def copyAccess (s : State) (n : Nat) (r : CopyRun) : State :=
  let ctx := (getSeq s n).ctx.getD 16
  if !r.begun then enterRun s n ctx r (beginCopy s n ctx r)
  else match copyKind r.cmd.op with
  | .rows => moveRowElement s n r
  | .blocks => if cpxCompress r.cmd then compressElement s n ctx r else expandElement s n ctx r
  | k => moveElement s n ctx k r

/-- A copy about to begin: it has one access to make, its first. -/
def newRun (c : Command) : CopyRun := { cmd := c, total := 1, begun := false }

/-- A copy begins (R244, R245, R248). -/
def startCopy (s : State) (n : Nat) (c : Command) : State :=
  let q := getSeq s n
  let ctx := q.ctx.getD 16
  if copyKind c.op = .query then startQuery s n c
  else if cpRec c ∧ ((cpRaddr c : Int) < (windowOf q).1 ∨ (windowOf q).2 < (cpRaddr c + 32 : Nat)) then
    chargeFatal s n 0x01 6 c.bundle (BitVec.ofNat 64 (cpRaddr c))
  else enterRun (addCopyRun s n (newRun c)) n ctx (newRun c) (beginCopy s n ctx (newRun c))

/-- Whether the oldest queued copy may start: the clock after its issue, and a CPYQ once every earlier copy is complete
(R251). -/
def copyMayStart (s : State) (n : Nat) (c : Command) : Bool :=
  decide (c.clock < s.clock) &&
  (copyKind c.op != .query || ((getSeq s n).cpy.running.isEmpty && s.posts.all (fun p => p.seq != n || p.copyOf.isNone)))

/-- COPY_START: the oldest queued copy of sequencer `n` starts (R244, R256). -/
def execCopyStart (n : Nat) (s : State) : Out :=
  if 512 ≤ n then .fault (.noSuchUnit "sequencer" n)
  else match (getSeq s n).cpy.queue with
    | c :: rest =>
      if copyMayStart s n c then
        .next { startCopy (modSeq s n (fun q => { q with cpy := { q.cpy with queue := rest } })) n c with free := s.free + 1 }
      else .refused (.notEnabled "COPY_START")
    | [] => .refused (.notEnabled "COPY_START")

/-! ## Completion (R259 to R263) -/

def sat32 (n : Nat) : Nat := min n (2 ^ 32 - 1)

/-- The completion record (R263). -/
def copyRecord (r : CopyRun) (sched : Word) : List Byte :=
  leBytes 4 (r.status.toNat + 2 ^ 8 * r.flags.toNat + 2 ^ 16 * r.fp.toNat + 2 ^ 24 * r.xerr.toNat) ++
    leBytes 4 (sat32 r.written) ++ leBytes 4 (sat32 r.supp) ++ leBytes 4 (sat32 r.poison) ++ leBytes 4 r.xoff ++
    leBytes 4 (sat32 r.retry) ++ leBytes 8 sched.toNat

def writeCopyRecord (s : State) (n : Nat) (r : CopyRun) : State :=
  if cpRec r.cmd ∧ copyKind r.cmd.op ≠ .query then
    writeBytes s (placeP n (cpRaddr r.cmd)) (copyRecord r (getSeq s n).sr.sched)
  else s

/-- The counters of R251, which a CPYQ leaves alone, and the error policy of R261 at the end of a copy. -/
def countCopy (s : State) (n : Nat) (r : CopyRun) : State :=
  let fails (s : State) : State := if r.status = 0 then s else engineError s n 6 r.cmd.bundle
  if copyKind r.cmd.op = .query then fails s
  else
    let s := modSeq s n (fun q => { q with cpy := { q.cpy with completed := q.cpy.completed + 1, failed := if r.status = 0 then q.cpy.failed else q.cpy.failed + 1,
                                                               refusals := q.cpy.refusals + BitVec.ofNat 64 r.retry,
                                                               elements := q.cpy.elements + BitVec.ofNat 64 r.written } })
    fails s

/-- COPY_COMPLETE: a copy of sequencer `n` whose walk has ended writes its record and posts (R259, R260, R263). -/
def execCopyComplete (n : Nat) (s : State) : Out :=
  if 512 ≤ n then .fault (.noSuchUnit "sequencer" n)
  else match (getSeq s n).cpy.running.find? (fun r => decide (r.total ≤ r.next) && decide (r.ready ≤ s.clock)) with
    | some r =>
      let s := writeCopyRecord (dropRun s n r.cmd.serial) n r
      let h := copyHeader r.cmd.op
      if h.rf then
        .next { s with posts := s.posts ++ [{ fabric := (cpOf r.cmd 7).toNat, inc := 1, seq := n, ctx := (getSeq s n).ctx.getD 16,
                                              copyOf := some r, ready := s.clock }] }
      else
        let s := countCopy s n r
        .next (if h.pe then postFlag s n h.cf 1 else s)
    | none => .refused (.notEnabled "COPY_COMPLETE")

/-- RETRY_PERMIT: slice `slice` of die `die` grants the permit of the request it refused first (R262). -/
def execRetryPermit (die slice : Nat) (s : State) : Out :=
  if 4 ≤ die then .fault (.noSuchUnit "die" die)
  else if 64 ≤ slice then .fault (.noSuchUnit "slice" slice)
  else match s.refusals.find? (fun r => r.1 == die && r.2.1 == slice) with
    | some x =>
      let s := { s with refusals := s.refusals.erase x }
      .next (setWait s { seq := x.2.2.1, eng := 0, write := false, serial := x.2.2.2, page := 0 } 3)
    | none => .refused (.notEnabled "RETRY_PERMIT")

end Sys2Proof.Machine
end

