-- ==== Sys2Proof/Machine/ScalarMem.lean ====
section
/-! DEFINITION. Scalar loads, stores and atomics on P-space (02 R52 to R61). Orders are those of one total order of
all accesses (log entry 6), under which acquire and release forms differ from the plain ones in nothing else. -/

namespace Sys2Proof.Machine

/-- Whether an access of `w` bytes lies in the window (R52). -/
def inWindow (q : Seq) (ea w : Nat) : Bool :=
  decide (q.sr.winBase.toNat ≤ ea) && decide (ea + w ≤ q.sr.winBase.toNat + q.sr.winSize.toNat)

/-- The bytes of an access extended to 64 bits (R53). -/
def extend (signed : Bool) (w x : Nat) : Word := BitVec.ofInt 64 (if signed then sRead (8 * w) x else x)

/-- The effective address of base and offset (R52). -/
def effAddr (x : Word) (o : BitVec 13) : Word := x + o.signExtend 64

/-- The value a load of `w` bytes at `ea` returns, and its error record where the bytes are damaged (R53). -/
def loadValue (s : State) (u : Bundle) (signed : Bool) (w ea : Nat) : Scalar × List PeatEvent :=
  let p := placeP u.seq ea
  let bad := poisoned s p w
  ({ bits := extend signed w (readNat s p w), poison := bad }, if bad then [damage u.seq 2 1] else [])

/-- LD and LDA (R53, R56). -/
def loadOp (signed : Bool) (w : Nat) (d b : BitVec 6) (o : BitVec 13) (s : State) (u : Bundle) : Bundle :=
  let x := opd s u 0 b
  let ea := effAddr x.bits o
  if x.poison then addPoison u
  else if ea.toNat % w ≠ 0 then addFault u 5 0
  else if !inWindow u.start ea.toNat w then addFatal u 0x01 ea
  else
    let r := loadValue s u signed w ea.toNat
    setScalar { u with errs := u.errs ++ r.2 } d 4 r.1

/-- LDS (R54): a poisoned zero where LD would fault or stop, with no record. Damaged bytes that it reads inside the window are recorded as LD's
are (22 R383; log entry 129). -/
def loadSpecOp (signed : Bool) (w : Nat) (d b : BitVec 6) (o : BitVec 13) (s : State) (u : Bundle) : Bundle :=
  let x := opd s u 0 b
  let ea := effAddr x.bits o
  if x.poison || ea.toNat % w != 0 || !inWindow u.start ea.toNat w then setScalar u d 4 { bits := 0, poison := true }
  else
    let r := loadValue s u signed w ea.toNat
    setScalar { u with errs := u.errs ++ r.2 } d 4 r.1

/-- ST and STL, their checks in R55's order. -/
def storeOp (w : Nat) (d b : BitVec 6) (o : BitVec 13) (s : State) (u : Bundle) : Bundle :=
  let x := opd s u 0 b
  let v := opd s u 1 d
  let ea := effAddr x.bits o
  if x.poison then addPoison u
  else if ea.toNat % w ≠ 0 then addFault u 5 0
  else if v.poison then addPoison u
  else if !inWindow u.start ea.toNat w then addFatal u 0x01 ea
  else addStore u (placeP u.seq ea.toNat) (leBytes w v.bits.toNat)

/-- f(kind, old, v) of R58 on `w` bytes. -/
def amoFn (kind w old v : Nat) : Nat :=
  let m := 2 ^ (8 * w)
  match kind with
  | 0 => (old + v) % m
  | 1 => old &&& v
  | 2 => old ||| v
  | 3 => old ^^^ v
  | 4 => if sRead (8 * w) old ≤ sRead (8 * w) v then old else v
  | 5 => if sRead (8 * w) old ≤ sRead (8 * w) v then v else old
  | 6 => Nat.min old v
  | 7 => Nat.max old v
  | _ => v

/-- The checks and the access shared by AMO and CAS (R58, R59): `new old` is the value written, none for no write. -/
def atomicOp (w : Nat) (d a : BitVec 6) (argPoison : Bool) (new : Nat → Option Nat) (s : State) (u : Bundle) : Bundle :=
  let x := opd s u 0 a
  let ea := x.bits.toNat
  if x.poison then addPoison u
  else if ea % w ≠ 0 then addFault u 5 0
  else if argPoison then addPoison u
  else if !inWindow u.start ea w then addFatal u 0x01 x.bits
  else
    let r := loadValue s u true w ea
    let old := readNat s (placeP u.seq ea) w
    let u := setScalar { u with errs := u.errs ++ r.2 } d 6 r.1
    if r.1.poison then u
    else match new old with
      | some y => addStore u (placeP u.seq ea) (leBytes w y)
      | none => u

def amoOp (w : Nat) (d a b : BitVec 6) (k : BitVec 4) (s : State) (u : Bundle) : Bundle :=
  let y := opd s u 1 b
  atomicOp w d a y.poison (fun old => some (amoFn k.toNat w old (y.bits.toNat % 2 ^ (8 * w)))) s u

def casOp (w : Nat) (d a b c : BitVec 6) (s : State) (u : Bundle) : Bundle :=
  let y := opd s u 1 b
  let z := opd s u 2 c
  atomicOp w d a (y.poison || z.poison)
    (fun old => if old = y.bits.toNat % 2 ^ (8 * w) then some (z.bits.toNat % 2 ^ (8 * w)) else none) s u

/-- LD.i8 (02 R53). -/
def execLdI8 (d b : BitVec 6) (o : BitVec 13) (s : State) : Out :=
  runSlot 2 (.ldI8 d b o) (loadOp true 1 d b o) s

/-- LD.n8 (02 R53). -/
def execLdN8 (d b : BitVec 6) (o : BitVec 13) (s : State) : Out :=
  runSlot 2 (.ldN8 d b o) (loadOp false 1 d b o) s

/-- LD.i16 (02 R53). -/
def execLdI16 (d b : BitVec 6) (o : BitVec 13) (s : State) : Out :=
  runSlot 2 (.ldI16 d b o) (loadOp true 2 d b o) s

/-- LD.n16 (02 R53). -/
def execLdN16 (d b : BitVec 6) (o : BitVec 13) (s : State) : Out :=
  runSlot 2 (.ldN16 d b o) (loadOp false 2 d b o) s

/-- LD.i32 (02 R53). -/
def execLdI32 (d b : BitVec 6) (o : BitVec 13) (s : State) : Out :=
  runSlot 2 (.ldI32 d b o) (loadOp true 4 d b o) s

/-- LD.n32 (02 R53). -/
def execLdN32 (d b : BitVec 6) (o : BitVec 13) (s : State) : Out :=
  runSlot 2 (.ldN32 d b o) (loadOp false 4 d b o) s

/-- LD.i64 (02 R53). -/
def execLdI64 (d b : BitVec 6) (o : BitVec 13) (s : State) : Out :=
  runSlot 2 (.ldI64 d b o) (loadOp true 8 d b o) s

/-- LDS.i8 (02 R54). -/
def execLdsI8 (d b : BitVec 6) (o : BitVec 13) (s : State) : Out :=
  runSlot 2 (.ldsI8 d b o) (loadSpecOp true 1 d b o) s

/-- LDS.n8 (02 R54). -/
def execLdsN8 (d b : BitVec 6) (o : BitVec 13) (s : State) : Out :=
  runSlot 2 (.ldsN8 d b o) (loadSpecOp false 1 d b o) s

/-- LDS.i16 (02 R54). -/
def execLdsI16 (d b : BitVec 6) (o : BitVec 13) (s : State) : Out :=
  runSlot 2 (.ldsI16 d b o) (loadSpecOp true 2 d b o) s

/-- LDS.n16 (02 R54). -/
def execLdsN16 (d b : BitVec 6) (o : BitVec 13) (s : State) : Out :=
  runSlot 2 (.ldsN16 d b o) (loadSpecOp false 2 d b o) s

/-- LDS.i32 (02 R54). -/
def execLdsI32 (d b : BitVec 6) (o : BitVec 13) (s : State) : Out :=
  runSlot 2 (.ldsI32 d b o) (loadSpecOp true 4 d b o) s

/-- LDS.n32 (02 R54). -/
def execLdsN32 (d b : BitVec 6) (o : BitVec 13) (s : State) : Out :=
  runSlot 2 (.ldsN32 d b o) (loadSpecOp false 4 d b o) s

/-- LDS.i64 (02 R54). -/
def execLdsI64 (d b : BitVec 6) (o : BitVec 13) (s : State) : Out :=
  runSlot 2 (.ldsI64 d b o) (loadSpecOp true 8 d b o) s

/-- LDA.i32: LD with acquire (02 R56). -/
def execLdaI32 (d b : BitVec 6) (o : BitVec 13) (s : State) : Out :=
  runSlot 2 (.ldaI32 d b o) (loadOp true 4 d b o) s

/-- LDA.n32: LD with acquire (02 R56). -/
def execLdaN32 (d b : BitVec 6) (o : BitVec 13) (s : State) : Out :=
  runSlot 2 (.ldaN32 d b o) (loadOp false 4 d b o) s

/-- LDA.i64: LD with acquire (02 R56). -/
def execLdaI64 (d b : BitVec 6) (o : BitVec 13) (s : State) : Out :=
  runSlot 2 (.ldaI64 d b o) (loadOp true 8 d b o) s

/-- ST.i8 (02 R55). -/
def execStI8 (d b : BitVec 6) (o : BitVec 13) (s : State) : Out :=
  runSlot 2 (.stI8 d b o) (storeOp 1 d b o) s

/-- ST.i16 (02 R55). -/
def execStI16 (d b : BitVec 6) (o : BitVec 13) (s : State) : Out :=
  runSlot 2 (.stI16 d b o) (storeOp 2 d b o) s

/-- ST.i32 (02 R55). -/
def execStI32 (d b : BitVec 6) (o : BitVec 13) (s : State) : Out :=
  runSlot 2 (.stI32 d b o) (storeOp 4 d b o) s

/-- ST.i64 (02 R55). -/
def execStI64 (d b : BitVec 6) (o : BitVec 13) (s : State) : Out :=
  runSlot 2 (.stI64 d b o) (storeOp 8 d b o) s

/-- STL.i32: ST with release (02 R56). -/
def execStlI32 (d b : BitVec 6) (o : BitVec 13) (s : State) : Out :=
  runSlot 2 (.stlI32 d b o) (storeOp 4 d b o) s

/-- STL.i64: ST with release (02 R56). -/
def execStlI64 (d b : BitVec 6) (o : BitVec 13) (s : State) : Out :=
  runSlot 2 (.stlI64 d b o) (storeOp 8 d b o) s

/-- AMO.i32 (02 R58, R60, R61). -/
def execAmoI32 (d a b : BitVec 6) (k : BitVec 4) (o : BitVec 3) (s : State) : Out :=
  runSlot 2 (.amoI32 d a b k o) (amoOp 4 d a b k) s

/-- AMO.i64 (02 R58, R60, R61). -/
def execAmoI64 (d a b : BitVec 6) (k : BitVec 4) (o : BitVec 3) (s : State) : Out :=
  runSlot 2 (.amoI64 d a b k o) (amoOp 8 d a b k) s

/-- CAS.i32 (02 R59, R60, R61). -/
def execCasI32 (d a b c : BitVec 6) (x : BitVec 1) (s : State) : Out :=
  runSlot 2 (.casI32 d a b c x) (casOp 4 d a b c) s

/-- CAS.i64 (02 R59, R60, R61). -/
def execCasI64 (d a b c : BitVec 6) (x : BitVec 1) (s : State) : Out :=
  runSlot 2 (.casI64 d a b c x) (casOp 8 d a b c) s

end Sys2Proof.Machine
end

