-- ==== Sys2Proof/Machine/NetEngine.lean ====
section
/-! DEFINITION. The network engine: starting and completing network commands (13 R264 to R266), group definitions and
group loads (R271 to R276), remote flags (R277), fabric atomics (R278 to R281), page installs and the end of a wait
(R282, R283), and the translation of a held access (10 R217). -/

namespace Sys2Proof.Machine

/-! ## Staging and records (R266) -/

def npOf (c : Command) (i : Nat) : Word := at' c.stage i 0
def npRaddr (c : Command) : Nat := fieldN (npOf c 7) 4 16 * 16
def npRec (c : Command) : Bool := anyBit (npOf c 7) 20 1
/-- Whether np7 sets a reserved bit. -/
def npBad (c : Command) : Bool := anyBit (npOf c 7) 21 43

/-- cf and pe of a network command (01 R28). -/
def netHeader : Instr → Nat × Bool
  | .lsched c p => (c.toNat, p == 1)
  | .gld c p _ => (c.toNat, p == 1)
  | .gdef c p => (c.toNat, p == 1)
  | .fpost c p _ _ => (c.toNat, p == 1)
  | .namo c p _ _ _ _ => (c.toNat, p == 1)
  | .ncas c p _ _ _ _ => (c.toNat, p == 1)
  | .pgmap c p => (c.toNat, p == 1)
  | .pgdone c p => (c.toNat, p == 1)
  | _ => (0, false)

/-- The 16 bytes of a record. -/
def netRecord (r : NetRun) : List Byte :=
  leBytes 8 r.value.toNat ++ [BitVec.ofNat 8 r.status.toNat, if r.pois then 1 else 0] ++ leBytes 2 r.detail.toNat ++
    leBytes 2 r.count.toNat ++ [0, 0]

/-- The record written at RADDR; a VALUE of damaged data is stored poisoned (R278, 12 R255). -/
def writeNetRecord (s : State) (n : Nat) (r : NetRun) : State :=
  if npRec r.cmd then
    let p := placeP n (npRaddr r.cmd)
    let s := writeBytes s p (netRecord r)
    if r.valuePoison then storePoisoned s p (leBytes 8 r.value.toNat) else s
  else s

/-- Whether [a, a + w) of own P lies in the window. -/
def ownInside (q : Seq) (a w : Nat) : Bool := inWindow q a w

/-- A word of a table or descriptor in own P: its value, or unspecified bits where it is damaged (00_scope R6). -/
def imageWord (s : State) (n a w idx : Nat) : Nat :=
  if poisoned s (placeP n a) w then (Config.freeBits 64 s.free (3000 + idx)).toNat % 2 ^ (8 * w) else readNat s (placeP n a) w

/-- The records of the damaged words met in a range of own P, one for each (22 R383). -/
def imageDamage (s : State) (n a w : Nat) : State :=
  (List.range ((a + w + 7) / 8 - a / 8)).foldl (fun s i =>
    let p := placeP n (8 * (a / 8 + i))
    if poisoned s p 8 then recordDamage s p else s) s

/-! ## LSCHED (R267, R268) -/

def tableHeaderBad (h : Nat) : Bool := h % 512 == 0 || decide (256 < h % 512) || decide (256 < h / 512 % 512) || h / 2 ^ 18 != 0

def entryBad (period w : Nat) : Bool :=
  decide (period ≤ w % 256) || w / 2 ^ 12 % 16 != 0 || w / 2 ^ 16 % 2 ^ 16 == 0 || w / 2 ^ 32 % 256 == 0 || w / 2 ^ 40 != 0

def entryOf (w : Nat) : LodeEntry :=
  { cycle := w % 256, port := w / 256 % 16, rows := BitVec.ofNat 16 (w / 2 ^ 16), cols := BitVec.ofNat 8 (w / 2 ^ 32) }

def entriesClash (a b : LodeEntry) : Bool := a.cycle == b.cycle && (a.port == b.port || a.cols &&& b.cols != 0)

/-- The first entry, in order, that an earlier entry conflicts with: of several clashing pairs, the lowest higher index (R267; log entry 135). -/
def clashAt : Nat → List LodeEntry → List LodeEntry → Option Nat
  | _, _, [] => none
  | j, seen, e :: r => if seen.any (fun a => entriesClash a e) then some j else clashAt (j + 1) (seen ++ [e]) r

/-- The table image at TADDR: a status with its DETAIL, or the table (R267). Where NENT exceeds 256 the header is refused before the image's
extent is looked at (log entry 124). -/
def readTable (s : State) (n : Nat) (c : Command) : Except (Nat × Nat) LodeTable :=
  let q := getSeq s n
  let a := fieldN (npOf c 0) 0 20
  let h := imageWord s n a 8 0
  let nent := h / 512 % 512
  if npBad c || anyBit (npOf c 0) 20 44 || a % 8 ≠ 0 || !ownInside q a 8 then .error (1, 0xFFFF)
  else if nent ≤ 256 ∧ !ownInside q a (8 + 8 * nent) then .error (1, 0xFFFF)
  else if !(List.range 16).all (fun i => match q.ctx.bind (getCtx s) with
      | some x => x.seqs.contains (n / 16 * 16 + i)
      | none => false) then .error (6, 0xFFFF)
  else if tableHeaderBad h then .error (3, 0xFFFF)
  else
    let ws := (List.range nent).map (fun k => imageWord s n (a + 8 + 8 * k) 8 (k + 1))
    match ws.findIdx? (entryBad (h % 512)) with
    | some k => .error (4, k)
    | none =>
      let es := ws.map entryOf
      match clashAt 0 [] es with
      | some j => .error (5, j)
      | none => .ok { period := h % 512, entries := es }

/-- Whether a lode's running table has entries. -/
def lodeRuns (l : Lode) : Bool :=
  match l.table with
  | some t => !t.entries.isEmpty
  | none => false

/-- An accepted table waits for its switch (R268): 8 clocks on, or from the end of the running table's period. It is the issuing
context's. -/
def acceptTable (s : State) (n : Nat) (t : LodeTable) : State :=
  let l := getLode s (n / 16)
  let p := match l.table with
    | some u => u.period
    | none => 1
  let at_ := if lodeRuns l then
      (match l.waiting with
       | some w => w.2
       | none => l.origin + ((s.clock - l.origin) / p + 1) * p)
    else s.clock + 8
  setLode s (n / 16) { l with waiting := some ({ t with ctx := (getSeq s n).ctx }, at_) }

/-! ## Groups (R271 to R276) -/

/-- Whether the table of R273 has a combination of MODE, OP and FMT. -/
def groupCombines (mode op fmt : Nat) : Bool :=
  match mode with
  | 0 => op == 0 && [0, 6, 9].contains fmt
  | 1 => fmt == 0
  | _ => [6, 7, 8].contains fmt

/-- The header of GDEF's descriptor (R271). -/
def groupWord (s : State) (n : Nat) (c : Command) : Nat :=
  let a := fieldN (npOf c 0) 0 20
  imageWord s n a 8 0 + 2 ^ 64 * imageWord s n (a + 8) 8 1

/-- The checks of its staging and its header, before its members are read: how many these are. -/
def groupHead (s : State) (n : Nat) (c : Command) : Except Nat Nat :=
  let q := getSeq s n
  let a := fieldN (npOf c 0) 0 20
  let h := groupWord s n c
  let k := h / 2 ^ 32 % 2 ^ 10
  if npBad c || anyBit (npOf c 0) 20 44 || a % 16 ≠ 0 || !ownInside q a 16 then .error 1
  else if h / 2 ^ 6 % 4 ≠ 0 ∨ h / 2 ^ 42 ≠ 0 ∨ h / 2 ^ 8 % 4 = 3 ∨ h / 2 ^ 10 % 4 = 3 ∨ 10 ≤ h / 2 ^ 12 % 16 ∨ k = 0 ∨ 512 < k ∨
      (h / 2 ^ 10 % 4 ≠ 0 ∧ sRead 16 (h / 2 ^ 16) ≠ 0) then .error 1
  else if !ownInside q a (16 + 2 * k) then .error 1
  else .ok k

/-- GDEF's descriptor (R271): a status, or the group and its number. -/
def readGroup (s : State) (n : Nat) (c : Command) : Except Nat (Nat × Group) :=
  let q := getSeq s n
  let a := fieldN (npOf c 0) 0 20
  let h := groupWord s n c
  let op := h / 2 ^ 8 % 4
  let mode := h / 2 ^ 10 % 4
  let fmt := h / 2 ^ 12 % 16
  let ew := sRead 16 (h / 2 ^ 16)
  match groupHead s n c with
  | .error e => .error e
  | .ok k =>
    let ms := (List.range k).map (fun i => imageWord s n (a + 16 + 2 * i) 2 (i + 2))
    if ms.any (fun m => decide (512 ≤ m)) then .error 1
    else if !ms.all (fun m => match q.ctx.bind (getCtx s) with
        | some x => x.seqs.contains m
        | none => false) then .error 6
    else if ms.eraseDups.length ≠ k ∨ !groupCombines mode op fmt ∨ (mode = 0 ∧ !anyBit s.faccept 2 1) then .error 7
    else .ok (h % 64, { op := op, mode := mode, fmt := BitVec.ofNat 4 fmt, ew := ew, members := ms })

/-- One level of the rank tree: neighbours combine, an odd last passes up (R274). -/
def pairUp {α : Type} (f : α → α → α) : List α → List α
  | a :: b :: r => f a b :: pairUp f r
  | l => l

/-- The rank tree of at most 2^k members. -/
def rankTree {α : Type} (f : α → α → α) (d : α) : Nat → List α → α
  | 0, l => l.headD d
  | k + 1, l => rankTree f d k (pairUp f l)

def leafWin (g : Group) : Leaf → Win
  | .absent => { nanf := true, ncause := 7, count := 1 }
  | .damaged => { nanf := true, ncause := 6, count := 1 }
  | .code x st =>
    match g.fmt.toNat with
    | 9 => winOfWords (BitVec.ofNat 128 x) st
    | 0 => winAdd g.ew {} (decodeFloat fmtF32 x)
    | _ => winAdd g.ew {} (Num.ofInt (sRead 32 x))

def leafFixed : Leaf → Nat
  | .absent => (nanBits 7).toNat
  | .damaged => (nanBits 6).toNat
  | .code x _ => x

def leafInt : Leaf → Option Nat
  | .code x _ => some x
  | _ => none

/-- combine in fixed mode (R273). -/
def fixedCombine (op a b : Nat) : Nat :=
  match op with
  | 0 => (addCode 0 1 a b).1
  | o => (minmaxCode 0 (o == 1) a b).1

/-- combine in integer mode; none is the MARK tag (R274). -/
def intCombine (op fmt : Nat) (a b : Option Nat) : Option Nat :=
  match a, b with
  | some x, some y =>
    let w := elemWidth fmt
    match op with
    | 0 => some ((x + y) % 2 ^ w)
    | o => some (if (o == 1) == decide (readBy fmt x < readBy fmt y) then y else x)
  | _, _ => none

/-- How many elements a group load has, and their bytes. -/
def groupElems (g : Group) : Nat := match g.fmt.toNat with | 9 => 64 | 8 => 128 | _ => 256
def groupBytes (g : Group) : Nat := 1024 / groupElems g

/-- Whether a member contributes nothing at all (R275): it runs no task of the context, be it that its task has ended (log entry 128),
or its die cannot answer, or it is reached only over a failed link (22 R392; log entry 136). -/
def memberGone (s : State) (n ctx m : Nat) : Bool :=
  dieStopped s (m / 128) || diesCut s (n / 128) (m / 128) || !runsTask s ctx m

/-- A member's leaves as sequencer `n` reads them now (R272, R275). -/
def memberLeaves (s : State) (n ctx : Nat) (g : Group) (off m : Nat) : List Leaf :=
  if memberGone s n ctx m then List.replicate (groupElems g) .absent
  else
    let q := getSeq s m
    let w := groupBytes g
    (List.range (groupElems g)).map (fun k =>
      let a := off + w * k
      let t := off + 1024 + 8 * k
      let isW : Bool := g.fmt == 9
      if !inWindow q a w || (isW && !inWindow q t 8) then .damaged
      else if poisoned s (placeP m a) w || (isW && poisoned s (placeP m t) 8) then .damaged
      else .code (readNat s (placeP m a) w) (if isW then BitVec.ofNat 64 (readNat s (placeP m t) 8) else 0))

/-- The OFF of a group load (R272). -/
def gldOff (c : Command) : Nat := fieldN (npOf c 0) 0 20

/-- What a group load has read so far, each element by itself: what it read before, or, where a free value says so, what stands there now
(R276, 18 R339). -/
def readMembers (s : State) (n : Nat) (r : NetRun) (g : Group) : List (List Leaf) :=
  let ctx := (getSeq s n).ctx.getD 16
  g.members.zipIdx.map (fun m =>
    let now := memberLeaves s n ctx g (gldOff r.cmd) m.1
    match r.leaves[m.2]? with
    | none => now
    | some old =>
      let keep := Config.freeBits 256 s.free (2 ^ 30 + 1024 * r.cmd.serial + m.2)
      (old.zip now).zipIdx.map (fun y => if keep.getLsbD y.2 then y.1.1 else y.1.2))

/-- What each member gives in the end: an absent one no element at all (R275). -/
def wholeMembers (s : State) (n : Nat) (r : NetRun) (g : Group) : List (List Leaf) :=
  let ctx := (getSeq s n).ctx.getD 16
  ((readMembers s n r g).zip g.members).map (fun x =>
    if memberGone s n ctx x.2 || x.1.contains .absent then List.replicate (groupElems g) .absent else x.1)

/-- The words of a member's damaged elements (22 R386). -/
def damagedLeaves (s : State) (g : Group) (off m : Nat) (row : List Leaf) : List Nat :=
  let w := groupBytes g
  let words (a : Nat) (k : Nat) : List Nat := if inWindow (getSeq s m) a k then (List.range ((k + 7) / 8)).map (fun i => a / 8 + i) else []
  ((row.zipIdx.filter (fun x => x.1 == .damaged)).flatMap (fun x =>
    (words (off + w * x.2) w ++ (if g.fmt == 9 then words (off + 1024 + 8 * x.2) 8 else [])).filter (fun i => poisoned s (placeP m (8 * i)) 8))).eraseDups

/-- The record of the damaged P words that reading a member met, and the reply of a member's die in reset counted (21 R377). -/
def memberDamage (s : State) (g : Group) (off m : Nat) (row : List Leaf) : State :=
  if dieStopped s (m / 128) then
    strayReplies s (m / 128) 1
  else
    let l := damagedLeaves s g off m row
    if l.isEmpty then s else { s with events := s.events ++ [damage m 2 l.length] }

/-- Element k across the members. -/
def column (k : Nat) (l : List (List Leaf)) : List Leaf := l.map (fun r => at' r k .absent)

/-- OUT, RM and WADDR of a GLD (R272). -/
def gldVd (c : Command) : Nat := fieldN (npOf c 1) 0 6
def gldOut (c : Command) : Nat := fieldN (npOf c 1) 6 2
def gldMode (c : Command) : Mode := if bits (npOf c 1) 8 3 = 0 then c.vmode else bits (npOf c 1) 8 3
def gldWaddr (c : Command) : Nat := fieldN (npOf c 2) 0 20
def gldRaw (g : Group) (c : Command) : Bool := g.mode == 0 && g.fmt == 9 && gldOut c == 0

/-- Whether a GLD's staging is refused. -/
def gldBad (c : Command) : Bool :=
  npBad c || anyBit (npOf c 0) 20 44 || anyBit (npOf c 0) 0 6 || anyBit (npOf c 1) 11 53 || decide (48 ≤ gldVd c) || gldOut c == 3 ||
    decide (6 ≤ fieldN (npOf c 1) 8 3) || anyBit (npOf c 2) 20 44 || anyBit (npOf c 2) 0 3

/-- Whether OUT and WADDR do not fit the group. -/
def gldUnfit (q : Seq) (g : Group) (c : Command) : Bool :=
  (g.mode != 0 && gldOut c != 0) || (g.mode == 0 && g.fmt != 9 && gldOut c == 0) || (gldRaw g c && !ownInside q (gldWaddr c) 512)

/-- The roots of the window tree. -/
def rootWins (g : Group) (rows : List (List Leaf)) : List Win :=
  (List.range (groupElems g)).map (fun k => rankTree winMerge {} 9 ((column k rows).map (leafWin g)))

/-- The lanes that a GLD writes and their values (R273). -/
def gldResult (g : Group) (c : Command) (rows : List (List Leaf)) : Mask × VReg :=
  match g.mode with
  | 0 =>
    let ws := rootWins g rows
    if gldRaw g c then (allLanes, unelems 9 (ws.map (fun w => w.sum.toNat)))
    else
      let ty := if gldOut c = 1 then 0 else 1
      (maskOf (fun i => decide (i < groupElems g)),
       unelems ty (ws.map (fun w => (windowOut g.ew w (tyEl ty) (gldMode c) none).1)))
  | 1 =>
    (allLanes, unelems 0 ((List.range 256).map (fun k => rankTree (fixedCombine g.op) 0 9 ((column k rows).map leafFixed))))
  | _ =>
    (allLanes, unelems g.fmt.toNat ((List.range (groupElems g)).map (fun k =>
      (rankTree (intCombine g.op g.fmt.toNat) none 9 ((column k rows).map leafInt)).getD (markerOf (tyEl g.fmt.toNat)))))

/-- The flits of a group load's reads end the runs of failed replays of the links that they cross (22 R392). -/
def passMembers (s : State) (n : Nat) (g : Group) : State :=
  (g.members.filter (fun m => !dieStopped s (m / 128) && !diesCut s (n / 128) (m / 128))).foldl
    (fun s m => passLinks s (n / 128) (m / 128)) s

/-- A GLD's landing (R273 to R276): VD lands whole over every write of it issued before (03 R88), and each of its lanes, those outside the
result too, reads as unspecified bits until the completion post has been acquired (log entry 51). What an earlier one left open stays so
outside the result. -/
def landGroup (s : State) (n : Nat) (r : NetRun) (g : Group) : State × NetRun :=
  let off := gldOff r.cmd
  let rows := wholeMembers s n r g
  let y := gldResult g r.cmd rows
  let absent := (List.range g.members.length).filter (fun i => (at' rows i []).headD .absent == .absent)
  let stats := (rootWins g rows).flatMap (fun w => leBytes 8 (wstatOf w))
  let s1 := (g.members.zip rows).foldl (fun s x => memberDamage s g off x.1 x.2) (passMembers s n g)
  let s1 := if gldRaw g r.cmd then writeBytes s1 (placeP n (gldWaddr r.cmd)) stats else s1
  let h := netHeader r.cmd.op
  let s1 := modSeq s1 n (fun q =>
    let q := breakSource s.free q (BitVec.ofNat 6 (gldVd r.cmd))
    { q with
      v := q.v.set (gldVd r.cmd) (mergeLanes y.1 y.2 (at' q.v (gldVd r.cmd) [])),
      pending := landedOver (.vector (gldVd r.cmd)) s.clock (dropLanes (.vector (gldVd r.cmd)) y.1 q.pending),
      gldOpen := (settleGld q (gldVd r.cmd) y.1 0).gldOpen ++ [{ vd := gldVd r.cmd, flag := if h.2 then h.1 else 32, lanes := allLanes, clock := s.clock }] })
  let r := { r with pois := rows.any (fun l => l.any (· == .damaged)) }
  (s1, if absent.isEmpty then r
       else { r with status := 0x0A, count := BitVec.ofNat 16 absent.length, detail := BitVec.ofNat 16 (absent.headD 0) })

/-- A group load of sequencer `n` in progress reads on in a clock. -/
def tickGroup (s : State) (n : Nat) (q : Seq) : Seq :=
  { q with net := { q.net with running := q.net.running.map (fun r => match r.group with
      | some g => { r with leaves := readMembers s n r g }
      | none => r) } }

/-! ## Starting (R265) -/

def addNetRun (s : State) (n : Nat) (r : NetRun) : State :=
  modSeq s n (fun q => { q with net := { q.net with running := q.net.running ++ [{ r with ready := s.clock + Config.freeClocks s.free }] } })

/-- A command that completes in the clock of its start (R268: an accepted table posts at once). -/
def addNetNow (s : State) (n : Nat) (r : NetRun) : State :=
  modSeq s n (fun q => { q with net := { q.net with running := q.net.running ++ [{ r with ready := s.clock }] } })

/-- A command that ends with a status (R265). -/
def endsWith (s : State) (n : Nat) (c : Command) (status : Nat) : State := addNetRun s n { cmd := c, status := BitVec.ofNat 8 status }

/-- Whether a table's or a descriptor's header of `w` bytes at its aligned address may be read. -/
def headRead (s : State) (n : Nat) (c : Command) (w : Nat) : Bool :=
  let a := fieldN (npOf c 0) 0 20
  !npBad c && !anyBit (npOf c 0) 20 44 && a % w == 0 && ownInside (getSeq s n) a w

/-- The records of a table's damaged words: its header's where the staging lets it be read, and those of the entries that are then read. -/
def tableDamage (s : State) (n : Nat) (c : Command) (status : Nat) : State :=
  let a := fieldN (npOf c 0) 0 20
  if !headRead s n c 8 then s
  else imageDamage s n a (if status = 1 ∨ status = 3 ∨ status = 6 then 8 else 8 + 8 * (imageWord s n a 8 0 / 512 % 512))

/-- LSCHED starts: the table is refused with its status, or waits for its switch. -/
def startLsched (s : State) (n : Nat) (c : Command) : State :=
  match readTable s n c with
  | .error e => addNetRun (tableDamage s n c e.1) n { cmd := c, status := BitVec.ofNat 8 e.1, detail := BitVec.ofNat 16 e.2 }
  | .ok t => addNetNow (acceptTable (tableDamage s n c 0) n t) n { cmd := c }

/-- The records of a descriptor's damaged words: its header's, and those of the members where they are read. -/
def groupDamage (s : State) (n : Nat) (c : Command) : State :=
  let a := fieldN (npOf c 0) 0 20
  if !headRead s n c 16 then s
  else imageDamage s n a (match groupHead s n c with
    | .ok k => 16 + 2 * k
    | .error _ => 16)

/-- GDEF starts (R271). -/
def startGdef (s : State) (n : Nat) (c : Command) : State :=
  match readGroup s n c with
  | .error e => endsWith (groupDamage s n c) n c e
  | .ok g => addNetRun (modCtx (groupDamage s n c) ((getSeq s n).ctx.getD 16) (fun x => { x with groups := tset x.groups g.1 g.2 })) n { cmd := c }

/-- GLD starts (R272): staging that is refused answers before a group without a definition (log entry 125). -/
def startGld (s : State) (n : Nat) (c : Command) (g : Nat) : State :=
  let q := getSeq s n
  if gldBad c then endsWith s n c 1
  else match (q.ctx.bind (getCtx s)).bind (fun x => tfind x.groups g) with
    | none => endsWith s n c 9
    | some d => if gldUnfit q d c then endsWith s n c 1
      else addNetRun (passMembers s n d) n { cmd := c, group := some d, leaves := readMembers s n { cmd := c } d }

/-- FPOST starts (R277): its post leaves for the target. -/
def startFpost (s : State) (n : Nat) (c : Command) : State :=
  if npBad c || anyBit (npOf c 0) 56 8 || anyBit (npOf c 1) 16 48 then endsWith s n c 1
  else
    let s := { s with posts := s.posts ++ [{ fabric := fieldN (npOf c 0) 0 56, inc := fieldN (npOf c 1) 0 16, seq := n,
                                             ctx := (getSeq s n).ctx.getD 16, netOf := some c.serial, ready := s.clock + Config.freeClocks s.free }] }
    addNetRun s n { cmd := c, phase := 4 }

/-- NAMO and NCAS start (R278, R281): the range registers map the address; a .sc atomic takes its ticket. A misaligned address is refused before
it is looked up in them (log entry 138). -/
def startAtomic (s : State) (n : Nat) (c : Command) (sc : Bool) (w : Nat) : State :=
  let va := (npOf c 0).toNat
  if npBad c || va % w ≠ 0 then endsWith s n c 1
  else match rangeOf (getSeq s n) va w 3 with
    | none => chargeFatal s n 0x02 7 c.bundle (npOf c 0)
    | some r =>
      let t : Option Nat := if sc then some s.tickets else none
      addNetRun { s with tickets := if sc then s.tickets + 1 else s.tickets } n
        { cmd := c, fa := rgFbase r + (va - rgVbase r), phase := 0, ticket := t, ho := anyBit r 4 1 }

/-- The region of a page that sequencer `n` serves as its pager. -/
def servesPage (s : State) (n fa size : Nat) : Bool :=
  match (getSeq s n).ctx.bind (getCtx s) with
  | some x => x.pagers.any (fun r => r.seq == n && decide (r.first ≤ fa) && decide (fa + size ≤ r.first + 65536 * r.pages))
  | none => false

/-- The entry now at the place of an install. -/
def entryNow (s : State) (p : Nat) : Word := BitVec.ofNat 64 (readNat s p 8)

/-- Whether the entry that a PGMAP would replace is to be read, and is damaged (R282: MIG needs a valid leaf there; R216). -/
def oldDamaged (s : State) (e : Word) (p : Nat) : Bool := entMig e && poisoned s p 8

/-- What answers a PGMAP or a PGDONE on its way to its page's controller: "link failed" (22 R392), or the reply of a die in reset (21 R377, log
entry 107). -/
def pagerFails (s : State) (n fa die : Nat) : Option State :=
  if linkFailed s n fa then some s
  else if dieStopped s die then some (installStray (passLinks s (n / 128) (targetDie fa)) fa)
  else none

/-- PGMAP starts (R282); one that fails on its way has status 2; an entry that it reads damaged is recorded, and refuses it (R216). -/
def startPgmap (s : State) (n : Nat) (c : Command) : State :=
  let fa := fieldN (npOf c 0) 0 56
  let level := fieldN (npOf c 2) 0 1
  let e := npOf c 1
  let size := 2 ^ levelShift level
  let ctx := (getSeq s n).ctx.getD 16
  if !servesPage s n fa size then endsWith s n c 6
  else if npBad c || anyBit (npOf c 0) 56 8 || anyBit (npOf c 2) 1 63 || fa % size ≠ 0 then endsWith s n c 1
  else match pagerFails s n fa (homeDie fa) with
  | some t => endsWith t n c 2
  | none =>
    let s := passLinks s (n / 128) (targetDie fa)
    match getCtx s ctx with
    | none => endsWith s n c 6
    | some x =>
      match installPlace s x fa level with
      | .error d => endsWith (installDamage s fa d) n c 8
      | .ok p =>
        let old := entryNow s p
        let oldLeaf : Bool := entV old && (level == 0 || entLeaf old)
        if oldDamaged s e p then endsWith (installDamage s fa (some p)) n c 8
        else if !entryOk s x fa level e || (level == 1 && entV e && !entLeaf e) || (entMig e && !(entV e && oldLeaf)) then endsWith s n c 8
        else
          addNetRun (installEntry s ctx fa p level e) n { cmd := c, fa := fa, phase := 3, owed := owedOn s ctx fa size }

/-- PGDONE starts (R283). The pager that it checks first is the order of R282; R283 names none (log entry 139). -/
def startPgdone (s : State) (n : Nat) (c : Command) : State :=
  let fa := fieldN (npOf c 0) 0 56
  if !servesPage s n fa 1 then endsWith s n c 6
  else if npBad c || anyBit (npOf c 0) 56 8 || anyBit (npOf c 1) 1 63 || fa % 65536 ≠ 0 then endsWith s n c 1
  else match pagerFails s n fa (controllerDie fa) with
  | some t => endsWith t n c 2
  | none =>
    addNetRun (endWait (passLinks s (n / 128) (targetDie fa)) ((getSeq s n).ctx.getD 16) fa (anyBit (npOf c 1) 0 1)) n { cmd := c, fa := fa }

/-- A network command begins: its record's address is checked first (R266). -/
def startNet (s : State) (n : Nat) (c : Command) : State :=
  if npRec c ∧ !ownInside (getSeq s n) (npRaddr c) 16 then chargeFatal s n 0x01 7 c.bundle (BitVec.ofNat 64 (npRaddr c))
  else match c.op with
    | .lsched _ _ => startLsched s n c
    | .gdef _ _ => startGdef s n c
    | .gld _ _ g => startGld s n c g.toNat
    | .fpost _ _ _ _ => startFpost s n c
    | .namo _ _ o _ _ w => startAtomic s n c (o == 4) (if w = 1 then 8 else 4)
    | .ncas _ _ o _ _ w => startAtomic s n c (o == 4) (if w = 1 then 8 else 4)
    | .pgmap _ _ => startPgmap s n c
    | .pgdone _ _ => startPgdone s n c
    | _ => s

/-- The oldest command but LSENDs (R265). -/
def netHead (q : Seq) : Option Command := q.net.queue.find? (fun c => !isLsend c.op)

/-- Whether it may start: after its issue, one a clock, a PGDONE after every earlier PGMAP (R265). -/
def netMayStart (clock : Nat) (q : Seq) (c : Command) : Bool :=
  decide (c.clock < clock) && decide (q.net.lastStart < clock) &&
  (match c.op with
   | .pgdone _ _ => q.net.running.all (fun r => match r.cmd.op with
     | .pgmap _ _ => false
     | _ => true)
   | _ => true)

/-- NETWORK_COMMAND_START: the oldest network command of sequencer `n` starts (R265). -/
def execNetworkCommandStart (n : Nat) (s : State) : Out :=
  if 512 ≤ n then .fault (.noSuchUnit "sequencer" n)
  else match netHead (getSeq s n) with
    | some c =>
      if netMayStart s.clock (getSeq s n) c then
        let s1 := modSeq s n (fun q => { q with net := { q.net with queue := q.net.queue.eraseP (fun c => !isLsend c.op), lastStart := s.clock } })
        .next { startNet s1 n c with free := s.free + 1 }
      else .refused (.notEnabled "NETWORK_COMMAND_START")
    | none => .refused (.notEnabled "NETWORK_COMMAND_START")

/-! ## Translation of a held or arriving access (10 R217) -/

def setNetRun (s : State) (n : Nat) (r : NetRun) : State :=
  modSeq s n (fun q => { q with net := { q.net with running := q.net.running.map (fun x => if x.cmd.serial = r.cmd.serial then r else x) } })

def netFails (s : State) (n : Nat) (r : NetRun) : State := setNetRun s n { r with status := 2, phase := 2, wait := 0, ready := s.clock }

/-- The kinds of atomic that the host's PCIe performs (R279). -/
def hostKind : Instr → Bool
  | .namo _ _ _ _ k _ => k == 0 || k == 8
  | _ => true

/-- The request of an atomic is translated (R217): it proceeds, waits, or gets an error reply. -/
def netAccess (s : State) (n : Nat) (r : NetRun) : State :=
  let ctx := (getSeq s n).ctx.getD 16
  if r.wait = 2 ∨ r.wait = 4 then netFails s n r
  else
    let x := reach s n ctx r.fa 3
    let s := countReach s n ctx r.fa x
    let sent (p : Nat) : State := setNetRun s n { r with phase := 1, place := p, wait := 0, ready := s.clock + Config.freeClocks s.free }
    match x with
    | .place p => if spaceOf p = 3 ∧ !hostKind r.cmd.op then netFails s n r else sent p
    | .remote p => if faClass r.fa = 5 ∨ (faClass r.fa = 3 ∧ !hostKind r.cmd.op) then netFails s n r else sent p
    | .waits p => joinWait (setNetRun s n { r with wait := 1 }) ctx { seq := n, eng := 1, write := true, serial := r.cmd.serial, page := p }
    | .migrates p => modCtx (setNetRun s n { r with wait := 1 }) ctx
        (fun y => { y with migWaits := y.migWaits ++ [{ seq := n, eng := 1, write := true, serial := r.cmd.serial, page := p }] })
    | .blocked => setNetRun s n { r with ready := s.clock + 1 }
    | _ => netFails s n r

/-! ## Host-ordered accesses (18 R336) and the path to a package (22 R395) -/

/-- What a host-ordered access touches: whether it writes, and its fabric bytes (none: not known yet). -/
abbrev HostAccess := Bool × Option (Nat × Nat)

/-- The fabric bytes of the register that maps an end. -/
def endSpan (x : CopyEnd) : Nat × Nat := (fabricOf x x.lo, fabricOf x x.hi)

/-- Whether a copy that has not begun may have a host-ordered end. -/
def mayHost (q : Seq) (c : Command) : Bool :=
  (q.ranges.any (fun r => rgV r && anyBit r 4 1)) &&
  (match copyKind c.op with
   | .query => false
   | .rows => false
   | k => (k != .filled && cpSsp c == 0) || cpDsp c == 0)

/-- The host-ordered accesses that commands issued before number `serial` have still to perform. -/
def earlierHost (q : Seq) (serial : Nat) : List HostAccess :=
  let open_ (c : Command) : List HostAccess := if c.serial < serial ∧ mayHost q c then [(true, none), (false, none)] else []
  let both (fa : Nat) : List HostAccess := [(true, some (fa, fa + 8)), (false, some (fa, fa + 8))]
  q.cpy.queue.flatMap open_ ++
  q.cpy.running.flatMap (fun r =>
    if !r.begun then open_ r.cmd
    else if r.cmd.serial < serial ∧ r.next < r.total then
      (if r.src.ho then [(false, some (endSpan r.src))] else []) ++ (if r.dst.ho then [(true, some (endSpan r.dst))] else [])
    else []) ++
  q.net.queue.flatMap (fun c => match c.op with
    | .namo _ _ _ _ _ w => hostAtomic c (if w = 1 then 8 else 4) both
    | .ncas _ _ _ _ _ w => hostAtomic c (if w = 1 then 8 else 4) both
    | _ => []) ++
  q.net.running.flatMap (fun r => if r.cmd.serial < serial ∧ r.ho ∧ r.phase < 2 then both r.fa else [])
where
  /-- A queued atomic through a host-ordered range. -/
  hostAtomic (c : Command) (w : Nat) (both : Nat → List HostAccess) : List HostAccess :=
    if c.serial < serial then
      match rangeOf q (npOf c 0).toNat w 3 with
      | some r => if anyBit r 4 1 then both (rgFbase r + ((npOf c 0).toNat - rgVbase r)) else []
      | none => []
    else []

/-- Whether two extents of bytes meet. -/
def extentsMeet (a b : Nat × Nat) : Bool := decide (a.1 < b.2) && decide (b.1 < a.2)

/-- Whether two fabric addresses may be mapped to one frame, since two pages may map one (10 R222): translated addresses of one class, home
die and package. -/
def frameMates (a b : Nat) : Bool :=
  faPackage a == Config.ownPackage && a / 2 ^ 45 == b / 2 ^ 45 && decide (faClass a ≤ 2) && homeDie a == homeDie b

/-- Whether two extents of fabric bytes may touch one location. -/
def mayMeet (a : Option (Nat × Nat)) (b : Nat × Nat) : Bool :=
  match a with
  | some a => frameMates a.1 b.1 || extentsMeet a b
  | none => true

/-- A host-ordered write waits for every earlier host-ordered access; a read for the earlier reads and for the writes that it may not pass
(18 R336, log entry 92). -/
def copyInOrder (q : Seq) (r : CopyRun) : Bool :=
  !(r.src.ho || r.dst.ho) ||
  (let e := earlierHost q r.cmd.serial
   (!r.dst.ho || e.isEmpty) && (!r.src.ho || e.all (fun x => x.1 && !mayMeet x.2 (endSpan r.src))))

def netInOrder (q : Seq) (r : NetRun) : Bool := !r.ho || (earlierHost q r.cmd.serial).isEmpty

/-! ## Tickets (R281) -/

/-- The width of an atomic (R278). -/
def atomicWidth : Instr → Nat
  | .namo _ _ _ _ _ w => if w = 1 then 8 else 4
  | .ncas _ _ _ _ _ w => if w = 1 then 8 else 4
  | _ => 8

/-- Whether two atomics that are not both translated may touch one location: pages of one context may map one frame, and an atomic's place in
its page stays. -/
def mayShare (s : State) (n : Nat) (r : NetRun) (m : Nat) (y : NetRun) : Bool :=
  let e (z : NetRun) (k : Nat) : Nat × Nat := (z.fa % k, z.fa % k + atomicWidth z.cmd.op)
  if frameMates r.fa y.fa then (getSeq s n).ctx == (getSeq s m).ctx && extentsMeet (e r 65536) (e y 65536)
  else extentsMeet (e r (2 ^ 56)) (e y (2 ^ 56))

/-- Whether an atomic with an earlier ticket has the property. -/
def earlierTicket (s : State) (r : NetRun) (p : Nat → NetRun → Bool) : Bool :=
  match r.ticket with
  | none => false
  | some t => s.seqs.any (fun x => x.2.net.running.any (fun y => y.ticket.any (fun k => decide (k < t)) && p x.1 y))

/-- Whether a .sc atomic's request has to wait for one with an earlier ticket that has not been translated yet and may touch its location
(R281): requests for one location are translated in ticket order, so that none passes another through a page that waits or moves
(log entry 111). -/
def ticketBehind (s : State) (n : Nat) (r : NetRun) : Bool := earlierTicket s r (fun m y => y.phase == 0 && mayShare s n r m y)

/-- Whether a translated .sc atomic with an earlier ticket is still to perform at its place (R281). -/
def ticketWaits (s : State) (r : NetRun) : Bool :=
  earlierTicket s r (fun _ y => y.phase == 1 &&
    extentsMeet (r.place, r.place + atomicWidth r.cmd.op) (y.place, y.place + atomicWidth y.cmd.op))

/-- Whether sequencer `n` has a request on its way to the package of a fabric address: its later requests there are sent after its arrival (22 R395,
log entry 93). -/
def pathBusy (s : State) (n fa : Nat) : Bool :=
  let g := faPackage fa
  g != Config.ownPackage &&
  (s.posts.any (fun p => p.seq == n && faPackage p.fabric == g) ||
   (getSeq s n).net.running.any (fun r => r.phase == 1 && faPackage r.fa == g))

/-- A copy, or an atomic, of sequencer `n` whose next access may arrive now. -/
def copyWaits (s : State) (n : Nat) (r : CopyRun) : Bool :=
  decide (r.next < r.total) && r.wait != 1 && decide (r.ready ≤ s.clock) && copyInOrder (getSeq s n) r &&
    !(r.src.space == 0 && pathBusy s n r.src.fbase) && !(r.dst.space == 0 && pathBusy s n r.dst.fbase)

def netWaits (s : State) (n : Nat) (r : NetRun) : Bool :=
  r.phase == 0 && r.wait != 1 && decide (r.ready ≤ s.clock) && netInOrder (getSeq s n) r && !pathBusy s n r.fa && !ticketBehind s n r

/-- The next access of sequencer `n` that arrives at a controller. -/
def nextAccess (s : State) (n : Nat) : Option State :=
  let q := getSeq s n
  match q.cpy.running.find? (copyWaits s n) with
  | some r => some (copyAccess s n r)
  | none => match q.net.running.find? (netWaits s n) with
    | some r => some (netAccess s n r)
    | none => none

/-! ## Atomics at their targets -/

/-- The value an atomic writes (R278): none writes nothing. -/
def atomicNew (c : Command) (w old : Nat) : Option Nat :=
  match c.op with
  | .namo _ _ _ _ k _ => some (amoFn k.toNat w old ((npOf c 1).toNat % 2 ^ (8 * w)))
  | .ncas _ _ _ _ _ _ => if old = (npOf c 1).toNat % 2 ^ (8 * w) then some ((npOf c 2).toNat % 2 ^ (8 * w)) else none
  | _ => none

/-- The atomic at its place (R278, R279). -/
def performAtomic (s : State) (n : Nat) (r : NetRun) : State :=
  let w := atomicWidth r.cmd.op
  if poisoned s r.place w then
    setNetRun (recordDamage s r.place) n { r with value := 0, valuePoison := true, pois := true, phase := 2, ready := s.clock }
  else
    let old := readNat s r.place w
    let s1 := match atomicNew r.cmd w old with
      | some y => writeNat s r.place w y
      | none => s
    setNetRun s1 n { r with value := extend true w old, phase := 2, ready := s.clock }

/-! ## Requests whose wait has ended -/

/-- The access of a request that has been woken: it is performed in its turn, an atomic too unless the ticket order holds it
(R222, R281). -/
def wokenAccess (s : State) (h : HeldRequest) : State :=
  let q := getSeq s h.seq
  if 2 ≤ h.eng then (if h.write then retryStore s h.serial else retryRead s h)
  else if h.eng = 0 then
    match q.cpy.running.find? (fun r => r.cmd.serial == h.serial) with
    | some r => copyAccess s h.seq r
    | none => s
  else match q.net.running.find? (fun r => r.cmd.serial == h.serial) with
    | some r =>
      let s := netAccess s h.seq r
      (match (getSeq s h.seq).net.running.find? (fun r => r.cmd.serial == h.serial) with
       | some r => if r.phase = 1 ∧ !ticketWaits s r then performAtomic s h.seq r else s
       | none => s)
    | none => s

/-- The woken request that goes on next: the oldest, but a read of a halted context stands still (16 R314). -/
def wokenNext (s : State) : Option HeldRequest := s.woken.find? (fun h => h.write || h.eng == 2 || live s (getSeq s h.seq))

/-- A step for a request accepted before its die's links began to stop: those dies answer it (21 R376). -/
def asAccepted (s : State) (f : State → State) : State :=
  let busy (d : Nat) : Bool := (tget {} s.dies d).busy
  let t := f { s with dies := s.dies.map (fun p => (p.1, { p.2 with busy := false })) }
  { t with dies := t.dies.map (fun p => (p.1, { p.2 with busy := busy p.1 })) }

/-- The free values of a step are spent. -/
def spendFree (s : State) : State := { s with free := s.free + 1 }

/-- REQUEST_TRANSLATE: the next access of sequencer `n`'s engines is translated, and performed where it proceeds; requests
whose wait has ended come first, in arrival order (R217, R221, R222). -/
def execRequestTranslate (n : Nat) (s : State) : Out :=
  if 512 ≤ n then .fault (.noSuchUnit "sequencer" n)
  else match wokenNext s with
    | some h =>
      if h.seq = n then .next (spendFree (asAccepted { s with woken := s.woken.erase h } (fun t => wokenAccess t h)))
      else .refused (.notEnabled "REQUEST_TRANSLATE")
    | none => match nextAccess s n with
      | some t => .next (spendFree t)
      | none => .refused (.notEnabled "REQUEST_TRANSLATE")

/-! ## Atomics and posts arrive -/

/-- FABRIC_ATOMIC: a translated atomic of sequencer `n` is performed at its target. -/
def execFabricAtomic (n : Nat) (s : State) : Out :=
  if 512 ≤ n then .fault (.noSuchUnit "sequencer" n)
  else match (getSeq s n).net.running.find? (fun r => r.phase == 1 && decide (r.ready ≤ s.clock) && !ticketWaits s r) with
    | some r => .next (performAtomic s n r)
    | none => .refused (.notEnabled "FABRIC_ATOMIC")

/-- The end of a post's way: the copy's record and post are settled (12 R260), or the FPOST may complete. -/
def settlePost (s : State) (p : FlagPost) (ok : Bool) : State :=
  match p.copyOf, p.netOf with
  | some r, _ =>
    let r := if ok then r else { r with status := if r.status = 0 then 7 else r.status }
    countCopy (if ok then s else writeCopyRecord s p.seq r) p.seq r
  | none, some k =>
    modSeq s p.seq (fun q => { q with net := { q.net with running := q.net.running.map (fun r =>
      if r.cmd.serial = k then { r with phase := 2, ready := s.clock, status := if ok then r.status else 2 } else r) } })
  | none, none => s

/-- What a post meets at its target (R277, 12 R260). -/
def postReach (s : State) (p : FlagPost) : Reach :=
  if faClass p.fabric = 5 ∨ faPackage p.fabric ≠ Config.ownPackage then reach s p.seq p.ctx p.fabric 2 else .refused

/-- A post that has reached its target's flag, a flag of another package, or nothing (R277, 12 R260); links that stop do not accept
it yet (21 R376). -/
def arrivePost (s : State) (p : FlagPost) : State :=
  let x := postReach s p
  if x = .blocked then { s with posts := s.posts.map (fun y => if y = p then { p with ready := s.clock + 1 } else y) }
  else
    let s := countReach { s with posts := s.posts.erase p } p.seq p.ctx p.fabric x
    match x with
    | .flag m k => settlePost (postFlag s m k p.inc) p true
    | .remoteFlag => settlePost s p true
    | _ => settlePost s p false

/-- Whether a post of sequencer `n` may arrive: one to another package after every request sent there before it (22 R395), a copy's only in a
running clock of its context (16 R314). -/
def postMayArrive (s : State) (n : Nat) (p : FlagPost) : Bool :=
  let g := faPackage p.fabric
  p.seq == n && decide (p.ready ≤ s.clock) && (p.copyOf.isNone || live s (getSeq s n)) &&
  (g == Config.ownPackage ||
   (s.posts.find? (fun y => y.seq == n && faPackage y.fabric == g) == some p &&
    (getSeq s n).net.running.all (fun r => !(r.phase == 1 && faPackage r.fa == g))))

/-- FLAG_POST_ARRIVAL: the oldest post of sequencer `n` that may arrive does so (R277, 12 R260). -/
def execFlagPostArrival (n : Nat) (s : State) : Out :=
  if 512 ≤ n then .fault (.noSuchUnit "sequencer" n)
  else match s.posts.find? (postMayArrive s n) with
    | some p => .next (arrivePost s p)
    | none => .refused (.notEnabled "FLAG_POST_ARRIVAL")

/-! ## Completion (R265, R266) -/

def isGld : Instr → Bool
  | .gld _ _ _ => true
  | _ => false

/-- Whether a started command may complete: GLDs in issue order and once their reads are accepted, an install once what the old entry has
translated has performed (10 R218), a PGDONE once its requests have gone on. -/
def netMayComplete (s : State) (q : Seq) (r : NetRun) : Bool :=
  decide (r.ready ≤ s.clock) && (r.phase == 2 || (r.phase == 3 && !owes s r.owed)) &&
  (match r.cmd.op with
   | .gld _ _ _ => (q.net.running.find? (fun y => isGld y.cmd.op)).all (fun y => y.cmd.serial == r.cmd.serial) &&
       r.group.all (fun g => g.members.all (fun m => !dieStopping s (m / 128)))
   | .pgdone _ _ => s.woken.all (fun h => h.page / 65536 != r.fa / 65536)
   | _ => true)

/-- NETWORK_COMMAND_COMPLETE: a started command of sequencer `n` completes: a GLD lands, the record is written, the flag is
posted, and an error may escalate (R265, R266). -/
def execNetworkCommandComplete (n : Nat) (s : State) : Out :=
  if 512 ≤ n then .fault (.noSuchUnit "sequencer" n)
  else match (getSeq s n).net.running.find? (netMayComplete s (getSeq s n)) with
    | some r =>
      let s0 := modSeq s n (fun q => { q with net := { q.net with running := q.net.running.filter (fun x => x.cmd.serial != r.cmd.serial) } })
      let y : State × NetRun := match r.group with
        | some g => landGroup { s0 with free := s.free + 1 } n r g
        | none => ({ s0 with free := s.free + 1 }, r)
      let s1 := writeNetRecord y.1 n y.2
      let h := netHeader r.cmd.op
      let s2 := if h.2 then postFlag s1 n h.1 1 else s1
      .next (if (y.2.status : BitVec 8) = (0 : BitVec 8) then s2 else engineError s2 n 7 r.cmd.bundle)
    | none => .refused (.notEnabled "NETWORK_COMMAND_COMPLETE")

end Sys2Proof.Machine
end

