-- ==== Sys2Proof/Machine/Digest.lean ====
section
/-! DEFINITION. SHA-384, which chains the Peat log (22 R387). The manual names the function and no more: what it computes, from the roots
of primes that give its constants to the order of its bytes, is that of the published standard (PRESUMED, log entry 22). -/

namespace Sys2Proof.Machine

/-! ## Bytes, the first most significant -/

/-- A number from bytes, the first most significant. -/
def beNat (l : List Byte) : Nat := leNat l.reverse

/-- The bytes of a number, the first most significant. -/
def beBytes (n x : Nat) : List Byte := (leBytes n x).reverse

/-! ## Constants -/

/-- The eighty primes below 410. -/
def hashPrimes : List Nat := (List.range 410).filter (fun p => decide (2 ≤ p) && (List.range p).all (fun d => d < 2 || p % d != 0))

/-- The largest r with r^k ≤ n, found from bit `i` down over the bits already set in `r`. -/
def rootFrom (k n : Nat) : Nat → Nat → Nat
  | 0, r => r
  | i + 1, r => rootFrom k n i (if (r + 2 ^ i) ^ k ≤ n then r + 2 ^ i else r)

/-- The first 64 bits of the fraction of the k-th root of `p`: the root of p·2^(64k) without its whole part. -/
def rootFraction (k p : Nat) : Word := BitVec.ofNat 64 (rootFrom k (p * 2 ^ (64 * k)) 69 0)

/-- What a block's rounds add: one fraction of a cube root for each. -/
def roundFractions : List Word := hashPrimes.map (rootFraction 3)

/-- The value before the first block: square roots of the ninth to the sixteenth prime. -/
def firstValue : List Word := ((hashPrimes.drop 8).take 8).map (rootFraction 2)

/-! ## One block -/

/-- A word turned right by each number of places, the results added bit by bit. -/
def turns (l : List Nat) (x : Word) : Word := l.foldl (fun y n => y ^^^ x.rotateRight n) 0

/-- The eight working words as two rows of four: each round shifts a word into the head of both. -/
structure HashRows where
  up : List Word
  down : List Word

/-- One round with a fraction and a message word. -/
def HashRows.next (r : HashRows) (fraction word : Word) : HashRows :=
  let u (i : Nat) : Word := at' r.up i 0
  let e (i : Nat) : Word := at' r.down i 0
  let chosen := e 2 ^^^ (e 0 &&& (e 1 ^^^ e 2))
  let most := (u 0 &&& (u 1 ||| u 2)) ||| (u 1 &&& u 2)
  let enters := e 3 + turns [14, 18, 41] (e 0) + chosen + fraction + word
  { up := (enters + turns [28, 34, 39] (u 0) + most) :: r.up.take 3, down := (u 3 + enters) :: r.down.take 3 }

/-- The last sixteen message words, one clock on: the oldest has been used, and makes the newest with three others. -/
def slideWords (w : List Word) : List Word :=
  let x := at' w 1 0
  let y := at' w 14 0
  w.drop 1 ++ [at' w 0 0 + (turns [1, 8] x ^^^ (x >>> 7)) + at' w 9 0 + (turns [19, 61] y ^^^ (y >>> 6))]

/-- Rounds with the fractions of a list on a sliding window of message words. -/
def hashRounds : List Word → List Word → HashRows → HashRows
  | [], _, r => r
  | k :: ks, w, r => hashRounds ks (slideWords w) (r.next k (at' w 0 0))

/-- The value after a block of 128 bytes. -/
def absorbBlock (h : List Word) (b : List Byte) : List Word :=
  let w := (List.range 16).map (fun i => BitVec.ofNat 64 (beNat ((b.drop (8 * i)).take 8)))
  let r := hashRounds roundFractions w { up := h.take 4, down := h.drop 4 }
  (h.zip (r.up ++ r.down)).map (fun x => x.1 + x.2)

/-! ## A message -/

/-- A message filled up to whole blocks: a one bit, zeros, and its length in bits in the last 16 bytes. -/
def fillBlocks (m : List Byte) : List Byte :=
  m ++ 0x80 :: List.replicate ((239 - m.length % 128) % 128) 0 ++ beBytes 16 (8 * m.length)

/-- SHA-384 of a message: its 48 bytes. -/
def sha384 (m : List Byte) : List Byte :=
  let p := fillBlocks m
  let h := (List.range (p.length / 128)).foldl (fun h i => absorbBlock h ((p.drop (128 * i)).take 128)) firstValue
  (h.take 6).flatMap (fun w => beBytes 8 w.toNat)

end Sys2Proof.Machine
end

