-- ==== Sys2Proof/Machine/Kordin.lean ====
section
/-! DEFINITION. The front Kordin core's queues (20 R349 to R354, 19 R343, R344): what it reads and writes in memory,
enabling and disabling, polling, the packets, and completion signals. -/

namespace Sys2Proof.Machine

/-! ## The status word (R355) -/

/-- The context's status word is written, and its MSI-X vector raised on 2 and 3 (R355). -/
def writeCstat (s : State) (c v : Nat) : State :=
  match getCtx s c with
  | none => s
  | some x =>
    let s := coreStore s c x.cstat (leBytes 8 v)
    if v = 2 ∨ v = 3 then { s with msix := s.msix ++ [65 + c] } else s

/-! ## Queue registers (R349) -/

def getQueue (s : State) (q : Nat) : LQueue := tget {} s.queues q
def setQueue (s : State) (q : Nat) (x : LQueue) : State := { s with queues := tset s.queues q x }
def modQueue (s : State) (q : Nat) (f : LQueue → LQueue) : State := setQueue s q (f (getQueue s q))

def qLog (x : LQueue) : Nat := fieldN x.cfg 0 5
def qPri (x : LQueue) : Nat := fieldN x.cfg 5 2
def qCtx (x : LQueue) : Nat := fieldN x.cfg 7 4
def qEn (x : LQueue) : Bool := anyBit x.cfg 11 1

/-- Whether EN may be set. -/
def mayEnable (s : State) (x : LQueue) : Bool :=
  decide (1 ≤ qLog x) && decide (qLog x ≤ 16) && x.base.toNat % (64 * 2 ^ qLog x) == 0 && (getCtx s (qCtx x)).isSome

/-- EN written 1 on a disabled queue (R349). -/
def enableQueue (s : State) (q : Nat) : State :=
  let x := getQueue s q
  if qEn x || !mayEnable s x then s
  else setQueue s q { x with cfg := x.cfg ||| 0x800, enabling := true }

/-- EN written 0 on an enabled queue: it stops at the core's next polling slot (R349). -/
def disableQueue (s : State) (q : Nat) : State :=
  let x := getQueue s q
  if qEn x then setQueue s q { x with cfg := x.cfg &&& ~~~0x800, disabling := true } else s

/-- QUEUE_ENABLE: the host sets EN; a boot ROM that waits for an image offers no queue (R372). -/
def execQueueEnable (q : Nat) (s : State) : Out :=
  if 64 ≤ q then .fault (.noSuchUnit "queue" q) else .next (if s.mgmt.bootWaits then s else enableQueue s q)

/-- QUEUE_DISABLE: the host clears EN. -/
def execQueueDisable (q : Nat) (s : State) : Out :=
  if 64 ≤ q then .fault (.noSuchUnit "queue" q) else .next (disableQueue s q)

/-- NOTIFY: the value is recorded in QNOTE; the valid bit alone decides what is read (R344). -/
def execNotify (q v : Nat) (s : State) : Out :=
  if 64 ≤ q then .fault (.noSuchUnit "queue" q) else .next (modQueue s q (fun x => { x with note := BitVec.ofNat 32 v }))

/-- A QCTL write with RESET: heeded by a queue in its error state (R353). -/
def resetQueue (s : State) (q : Nat) (skip : Bool) : State :=
  modQueue s q (fun x => if x.state = 2 then { x with resetting := some skip } else x)

/-- QCTL_RESET (R353). -/
def execQctlReset (q skip : Nat) (s : State) : Out :=
  if 64 ≤ q then .fault (.noSuchUnit "queue" q) else .next (resetQueue s q (skip % 2 == 1))

/-- LOCK (R370, R396): FACCEPT is committed once; the second tier is laid out over the ports that are up. -/
def execLock (s : State) : Out :=
  if s.lock then .next s
  else .next { s with lock := true, faccept := s.faccept &&& Config.foffer,
                      cxl := s.cxl.map (fun x => (x.1, { x.2 with share := if x.2.st = 2 then x.2.cap else 0 })) }

/-! ## Checking packets (R343, R351, R352) -/

/-- The little-endian number in bytes i .. i + n − 1 of a packet. -/
def pk (p : List Byte) (i n : Nat) : Nat := leNat ((p.drop i).take n)

/-- The first nonzero byte of bytes i .. i + n − 1, refused as a reserved field. -/
def reservedAt (p : List Byte) (i n : Nat) : List (Nat × Nat) :=
  ((List.range n).filter (fun k => at' p (i + k) 0 != 0)).map (fun k => (i + k, 0x02))

/-- A failure at a byte where the condition holds. -/
def failAt (c : Bool) (byte cause : Nat) : List (Nat × Nat) := if c then [(byte, cause)] else []

/-- A signal or dependency reference (R352). -/
def badRef (fa : Nat) (dep : Bool) (own : Nat) : Bool :=
  fa != 0 && (fa % 8 != 0 || decide (2 ^ 56 ≤ fa) || (dep && (!signalClass fa || fa == own)))

/-- What reading a dependency or a range table finds (R352, R210, R371). -/
inductive Found where
  | ready | notYet | bad (cause : Nat)
  deriving DecidableEq, Repr

/-- A DEP read with acquire (R354). -/
def readDep (s : State) (q c fa : Nat) : Found :=
  if fa = 0 then .ready
  else match coreRead s q c fa 8 with
    | .bytes l => if leNat l = 0 then .ready else .notYet
    | .waits => .notYet
    | .failed => .bad 0x09

/-- A range register's value rules (10 R210, R371). One with V = 0 has its reserved bits and HO checked, and no other field (log entry 106). -/
def rangeBad (s : State) (r : BitVec 128) : Bool :=
  anyBit r 11 5 || anyBit r 120 8 || (anyBit r 4 1 && !anyBit s.faccept 3 1) ||
    rgV r && (decide (fieldN r 5 6 < 16) || decide (48 < fieldN r 5 6) || rgVbase r % rgSize r != 0 || rgFbase r % rgSize r != 0)

/-- Whether two valid registers overlap in virtual space. -/
def rangesOverlap (a b : BitVec 128) : Bool :=
  rgV a && rgV b && decide (rgVbase a < rgVbase b + rgSize b) && decide (rgVbase b < rgVbase a + rgSize a)

def anyOverlap : List (BitVec 128) → Bool
  | [] => false
  | r :: l => l.any (rangesOverlap r) || anyOverlap l

/-- The registers of a range table; some entries may lie in another page. -/
def readRanges (s : State) (a c fa : Nat) : Nat → Except Bool (List (BitVec 128))
  | 0 => .ok []
  | k + 1 => match coreRead s a c fa 16 with
    | .bytes l => match readRanges s a c (fa + 16) k with
      | .ok r => .ok (BitVec.ofNat 128 (leNat l) :: r)
      | .error e => .error e
    | .waits => .error true
    | .failed => .error false

/-- What the reads of a core leave behind, in order, up to the first that gives no bytes. -/
def noteReads (s : State) (a c : Nat) : List (Nat × Nat) → State
  | [] => s
  | (fa, n) :: r => match coreRead s a c fa n with
    | .bytes _ => noteReads (coreNote s a c fa n) a c r
    | _ => coreNote s a c fa n

/-- Whether reads in order wait for one that waits at its page already, or that links do not accept. -/
def readsHeld (s : State) (a c : Nat) : List (Nat × Nat) → Bool
  | [] => false
  | (fa, n) :: r => match coreRead s a c fa n with
    | .bytes _ => readsHeld s a c r
    | .waits => (match reach s (readerAt a) c fa 1 with
      | .waits p => (getCtx s c).any (fun y => y.pagers.any (fun g =>
          g.waits.contains { seq := a, eng := 2, write := false, serial := 0, page := p, ctx := c }))
      | _ => true)
    | .failed => false

/-- The tile count of a launch packet. -/
def tileCount (p : List Byte) : Nat := pk p 8 2 * pk p 10 2 * pk p 12 2

/-- The sequencers that a launch's tiles may go to. -/
def launchSeqs (x : Ctx) (pinned : Bool) (seq0 tiles : Nat) : List Nat :=
  if pinned then (List.range (min tiles 513)).map (fun i => seq0 + i) else x.seqs

/-- Whether W data of an image lies within the context's allocation at every site of a sequencer (R369). -/
def dataHeld (x : Ctx) (i : Image) (n : Nat) : Bool :=
  i.data.all (fun d => d.space != 2 || d.bytes.isEmpty ||
    (List.range ((d.offset + d.bytes.length - 1) / 2048 - d.offset / 2048 + 1)).all (fun k =>
      (List.range 8).all (fun j => holdsW x (siteOf n j) (d.offset / 2048 + k))))

def ringSpan (r : Pager) : Nat := 32 * r.slots

/-- Whether a task of an image on a pager sequencer would have its ring outside the window (R367). -/
def ringOutside (x : Ctx) (i : Image) (n : Nat) : Bool :=
  x.pagers.any (fun r => r.seq == n && !(decide (i.winBase.toNat ≤ r.ring) && decide (r.ring + ringSpan r ≤ i.winBase.toNat + i.winSize.toNat)))

/-- Whether a sequencer has a retired site (22 R391). -/
def seqRetired (s : State) (n : Nat) : Bool := (List.range 8).any (fun j => (getSite s (siteOf n j)).retired)

/-- The failures that concern placement, at SEQ0 (R352, R367, R369, 22 R391). -/
def placementFailures (s : State) (x : Ctx) (i : Image) (pinned : Bool) (seq0 tiles : Nat) : List (Nat × Nat) :=
  let ns := launchSeqs x pinned seq0 tiles
  failAt (ns.any (fun n => decide (512 ≤ n) || !x.seqs.contains n) || (!pinned && x.seqs.isEmpty)) 4 0x07 ++
    failAt (pinned && ns.any (seqRetired s)) 4 0x07 ++ failAt (!ns.all (dataHeld x i)) 4 0x07 ++
    failAt (pinned && ns.any (ringOutside x i)) 4 0x03

/-- The failures of a launch packet in byte order (R343, R352, R371); the range table counts as found. -/
def launchFailures (s : State) (c : Nat) (p : List Byte) (table : List (Nat × Nat)) : List (Nat × Nat) :=
  let pinned : Bool := pk p 1 1 / 2 % 2 == 1
  let seq0 := pk p 4 2 % 512
  failAt (decide (8 ≤ pk p 1 1)) 1 0x02 ++ failAt (!pinned && !anyBit s.faccept 4 1) 1 0x08 ++
    (match getCtx s c with
     | none => [(2, 0x05)]
     | some x => match x.images.find? (fun i => i.handle == pk p 2 2) with
       | none => [(2, 0x05)]
       | some i => failAt (!pinned && seq0 != 0) 4 0x03 ++ placementFailures s x i pinned seq0 (tileCount p)) ++
    failAt (decide (2 ≤ pk p 5 1)) 5 0x02 ++ failAt (decide (16 ≤ pk p 6 1)) 6 0x02 ++ failAt (decide (8 < pk p 6 1 % 16)) 6 0x03 ++
    failAt (pk p 7 1 != 0 && (decide (pk p 7 1 < 16) || decide (48 < pk p 7 1))) 7 0x03 ++
    failAt (pk p 8 2 == 0) 8 0x03 ++ failAt (!pinned && decide (2 ^ 32 - 1 < tileCount p)) 8 0x03 ++ failAt (pk p 10 2 == 0) 10 0x03 ++
    failAt (pk p 12 2 == 0) 12 0x03 ++ reservedAt p 14 2 ++ failAt (pk p 16 8 % 16 != 0 || decide (2 ^ 56 ≤ pk p 16 8)) 16 0x03 ++ table ++
    failAt (badRef (pk p 24 8) false 0) 24 0x04 ++ failAt (badRef (pk p 32 8) true (pk p 24 8)) 32 0x04 ++ reservedAt p 40 24

/-- Whether a range table is refused (10 R210). -/
def tableRefused (s : State) (l : List (BitVec 128)) : Bool := l.any (rangeBad s) || anyOverlap l

/-- The range table's part of the check: its failures, and whether it can be read now. -/
def checkTable (s : State) (q c : Nat) (p : List Byte) : List (Nat × Nat) × Bool :=
  let nr := pk p 6 1 % 16
  if 8 < nr ∨ pk p 16 8 % 16 ≠ 0 then ([], true)
  else match readRanges s q c (pk p 16 8) nr with
    | .ok l => (failAt (tableRefused s l) 16 0x06, true)
    | .error true => ([], false)
    | .error false => ([(16, 0x09)], true)

/-- The reads of a range table of `nr` registers. -/
def rangeReads (fa nr : Nat) : List (Nat × Nat) := (List.range nr).map (fun i => (fa + 16 * i, 16))

/-- The reads of a packet's range table. -/
def tableReads (p : List Byte) : List (Nat × Nat) :=
  let nr := pk p 6 1 % 16
  if 8 < nr ∨ pk p 16 8 % 16 ≠ 0 then [] else rangeReads (pk p 16 8) nr

/-- The stealable ranges of T tiles over the dies that hold sequencers of the context, one entry per die (R359). -/
def initialRanges (x : Ctx) (tiles : Nat) : List (Nat × Nat) :=
  let ds := (List.range 4).filter (fun d => x.seqs.any (fun n => n / 128 == d))
  (List.range 4).map (fun d =>
    match ds.findIdx? (· == d) with
    | some i => (i * tiles / ds.length, (i + 1) * tiles / ds.length)
    | none => (0, 0))

/-- The launch that a consumed packet becomes; its range registers are read through RTAB by the die core that places its first tile (19
R345). -/
def launchOf (s : State) (q : Nat) (x : LQueue) (y : Ctx) (p : List Byte) : Launch :=
  let pinned : Bool := pk p 1 1 / 2 % 2 == 1
  let t := tileCount p
  { id := s.serial, ctx := qCtx x, queue := q, index := x.index, prio := qPri x, handle := pk p 2 2, pinned := pinned,
    esc := pk p 1 1 / 4 % 2 == 1, seq0 := pk p 4 2 % 512, nx := pk p 8 2, ny := pk p 10 2, nz := pk p 12 2,
    wdog := (if pk p 7 1 = 0 then 32 else pk p 7 1), ranges := List.replicate 8 0, sig := pk p 24 8,
    rtab := (if pk p 6 1 % 16 = 0 then none else some (pk p 16 8, pk p 6 1 % 16)),
    unplaced := (if pinned then List.range t else []), rangeTable := (if pinned then [] else initialRanges y t) }

/-- The failures of a barrier packet. -/
def barrierFailures (p : List Byte) : List (Nat × Nat) :=
  failAt (decide (2 ≤ pk p 1 1)) 1 0x02 ++ reservedAt p 2 6 ++
    ([8, 16, 24, 32].flatMap (fun i => failAt (badRef (pk p i 8) true (pk p 40 8)) i 0x04)) ++
    failAt (badRef (pk p 40 8) false 0) 40 0x04 ++ reservedAt p 48 16

/-- The failures of a signal set packet. -/
def signalSetFailures (p : List Byte) : List (Nat × Nat) :=
  failAt (decide (2 ≤ pk p 1 1)) 1 0x02 ++ reservedAt p 2 6 ++ failAt (pk p 8 8 == 0) 8 0x03 ++
    failAt (badRef (pk p 8 8) false 0) 8 0x04 ++ reservedAt p 24 40

/-- The failures of a packet of any opcode in byte order (R352); `table` are those of a launch's range table. -/
def packetFailures (s : State) (c : Nat) (p : List Byte) (table : List (Nat × Nat)) : List (Nat × Nat) :=
  match (p.headD 0).toNat with
  | 1 => launchFailures s c p table
  | 2 => barrierFailures p
  | 3 => signalSetFailures p
  | _ => [(0, 0x01)]

/-! ## Errors and consumption (R350, R352, R353) -/

/-- The 32-byte error record. -/
def queueRecord (q cause byte index clock : Nat) : BitVec 256 :=
  BitVec.ofNat 256 (cause + 2 ^ 8 * byte + 2 ^ 16 * q + 2 ^ 64 * (index % 2 ^ 64) + 2 ^ 128 * (clock % 2 ^ 64))

/-- A queue enters its error state (R352); `past` marks cause 0x0A, whose packet is already consumed. -/
def queueError (s : State) (q cause byte index : Nat) (past : Bool) : State :=
  let s := modQueue s q (fun x => { x with state := 2, qerr := queueRecord q cause byte index (timeNow s), polled := none, past := past })
  { s with msix := s.msix ++ [q] }

/-- The fabric address of the packet at the read index. -/
def slotAddr (x : LQueue) : Nat := x.base.toNat + 64 * (x.index % 2 ^ qLog x)

/-- What follows a packet's consumption (R351, 19 R345): a launch's tiles become placeable, or a signal is changed. -/
def actOn (s : State) (c : Nat) : PacketAct → State
  | .none => s
  | .launch l => { s with launches := s.launches ++ [l] }
  | .signal fa v g => changeSignal s c fa (leBytes 8 v) g

/-- A write of a packet's consumption, and what comes after it: at once, or, where a controller holds it, later (10 R217, R222). -/
def storeThen (s : State) (q fa : Nat) (l : List Byte) (indexed : Bool) (act : PacketAct) (k : State → State) : State :=
  let c := qCtx (getQueue s q)
  let t := coreStore s c fa l
  if isHeld (reach s hub c fa 2) then modQueue t q (fun x => { x with consuming := some { serial := t.free, indexed := indexed, act := act } }) else k t

/-- The read index goes on and is written, and the packet is then consumed (R350). -/
def advanceIndex (s : State) (q : Nat) (act : PacketAct) : State :=
  let x := getQueue s q
  let i := (x.index + 1) % 2 ^ 64
  storeThen (setQueue s q { x with index := i, polled := none, depOk := [], consuming := none }) q x.ridx.toNat (leBytes 8 i) true act
    (fun s => actOn s (qCtx x) act)

/-- A packet is consumed: V := 0 in its header, then the read index, in that order (R350), then what it asks for. Of a header that cannot
be read, which only a SKIP meets (R353), byte 1 is written 0 (log entry 113). -/
def consume (s : State) (q : Nat) (act : PacketAct) : State :=
  let x := getQueue s q
  let a := slotAddr x
  match coreRead s q (qCtx x) a 2 with
  | .bytes l => storeThen (setQueue s q { x with polled := none }) q a (leBytes 2 (leNat l - (if leNat l / 256 % 2 = 1 then 256 else 0))) false act
      (fun s => advanceIndex s q act)
  | _ => storeThen (setQueue s q { x with polled := none }) q (a + 1) [0] false act (fun s => advanceIndex s q act)

/-- A consumption that a held write had stopped goes on once that has landed, or has been answered with an error. -/
def resumeConsuming (s : State) (q : Nat) (k : Consuming) : State :=
  if s.coreStores.any (fun y => y.serial == k.serial) then s
  else if k.indexed then actOn (modQueue s q (fun x => { x with consuming := none })) (qCtx (getQueue s q)) k.act
  else advanceIndex s q k.act

/-- The packet's 64 bytes. -/
def packetOf (s : State) (q : Nat) : CoreGot := let x := getQueue s q; coreRead s q (qCtx x) (slotAddr x) 64

/-- The first byte of a packet, from byte 2 on, that cannot be read. -/
def unreadableByte (s : State) (q c fa : Nat) : Nat :=
  ((List.range 62).map (fun i => i + 2)).find? (fun i => coreRead s q c (fa + i) 1 == .failed) |>.getD 2

/-- A packet of which byte `k` is the first that cannot be read: the failure that its bytes before have, or else that one (R352). Its range
table is read where the packet names it before. -/
def pollDamaged (s : State) (q k : Nat) (x : LQueue) : State :=
  let c := qCtx x
  let p := match coreRead s q c (slotAddr x) k with
    | .bytes l => l ++ List.replicate (64 - k) 0
    | _ => List.replicate 64 0
  let reads : Bool := decide (24 ≤ k) && p.headD 0 == 1
  let t := if reads then checkTable s q c p else ([], true)
  let u := if reads then noteReads s q c (tableReads p) else s
  let f := ((packetFailures s c p t.1).find? (fun f => decide (f.1 < k))).getD (k, 0x09)
  if t.2 || decide (f.1 < 16) then queueError u q f.2 f.1 x.index false else u

/-- The packet at the read index is looked at (R350): nothing with V = 0; unreadable or of an unknown opcode it is an
error; otherwise it is acted on in this slot. -/
def pollPacket (s : State) (q : Nat) : State :=
  let x := getQueue s q
  let c := qCtx x
  let a := slotAddr x
  match coreRead s q c a 2 with
  | .failed => queueError (coreNote s q c a 2) q 0x09 0 x.index false
  | .waits => coreNote s q c a 2
  | .bytes h =>
    let s := coreNote s q c a 2
    if leNat h / 256 % 2 = 0 then s
    else match packetOf s q with
      | .failed => pollDamaged (coreNote s q c (a + 2) 62) q (unreadableByte s q c a) x
      | .waits => coreNote s q c a 64
      | .bytes p =>
        let op := (p.headD 0).toNat
        let s := coreNote s q c (a + 2) 62
        if op = 1 ∨ op = 2 ∨ op = 3 then setQueue s q { x with polled := some op }
        else queueError s q 0x01 0 x.index false

/-- A queue in STATE 1 at its slot: what has failed of a consumed packet first (R354, log entry 56), then the next packet. -/
def pollRunning (s : State) (q : Nat) : State :=
  let x := getQueue s q
  match x.lateFails with
  | b :: rest => queueError (setQueue s q { x with lateFails := rest }) q b.1 b.2.1 b.2.2 true
  | [] => pollPacket s q

/-- The polling slot of an enabled queue (R349, R350, R353). -/
def pollQueue (s : State) (q : Nat) : State :=
  let x := getQueue s q
  if x.enabling then
    let t := coreNote s q (qCtx x) x.ridx.toNat 8
    match coreRead s q (qCtx x) x.ridx.toNat 8 with
    | .bytes l => pollRunning (setQueue t q { x with enabling := false, state := 1, index := leNat l, depOk := if leNat l = x.index then x.depOk else [] }) q
    | .waits => t
    | .failed => queueError (setQueue t q { x with enabling := false }) q 0x09 0xFF x.index false
  else if x.state = 2 then
    match x.resetting with
    | none => s
    | some skip =>
      let skips : Bool := skip && !x.past
      if skips && coreRead s q (qCtx x) (slotAddr x) 2 == .waits then coreNote s q (qCtx x) (slotAddr x) 2
      else
        let s := setQueue s q { x with resetting := none, state := 1, past := false }
        let s := if skips then consume s q .none else s
        if (getQueue s q).consuming.isSome then s else pollRunning s q
  else pollRunning s q

/-- Whether the front core runs: its firmware, stage 2, has been measured (R372, log entry 71). -/
def frontRuns (s : State) : Bool := decide (3 ≤ s.mgmt.booted) && !s.mgmt.bootWaits

/-- The slot of a queue whose last packet has been consumed (R349). -/
def pollSlot (s : State) (q : Nat) (x : LQueue) : Out :=
  let s := if x.disabling then setQueue s q { x with disabling := false, state := 0, polled := none, resetting := none } else s
  if qEn x then .next (pollQueue s q)
  else if x.disabling then .next s
  else .refused (.notEnabled "QUEUE_POLL")

/-- QUEUE_POLL: the front core's polling slot of queue `q` (R350), where a consumption that was held goes on first; none before the front core's
firmware has been measured (R372). -/
def execQueuePoll (q : Nat) (s : State) : Out :=
  if 64 ≤ q then .fault (.noSuchUnit "queue" q)
  else if !frontRuns s then .refused (.notEnabled "QUEUE_POLL")
  else
    let x := { getQueue s q with lastPoll := s.clock + 1 }
    match x.consuming with
    | some k => .next (resumeConsuming (setQueue s q x) q k)
    | none => pollSlot (setQueue s q x) q x

/-! ## The packets (R351) -/

/-- The step on a packet of opcode `op` that has just been polled. -/
def packetStep (name : String) (op q : Nat) (f : LQueue → List Byte → State → State) (s : State) : Out :=
  if 64 ≤ q then .fault (.noSuchUnit "queue" q)
  else
    let x := getQueue s q
    if x.polled = some op then
      match packetOf s q with
      | .bytes p => .next (f x p (setQueue s q { x with polled := none }))
      | _ => .next (setQueue s q { x with polled := none })
    else .refused (.notEnabled name)

/-- LAUNCH: the packet is checked, waits for DEP, and is consumed; its tiles become placeable (R351, R352). While its range table cannot be read
yet, a failure of a later byte is not known to be the first. -/
def execLaunch (q : Nat) (s : State) : Out :=
  packetStep "LAUNCH" 1 q (fun x p s =>
    let c := qCtx x
    let t := checkTable s q c p
    let u := noteReads s q c (tableReads p)
    match launchFailures s c p t.1 with
    | f :: _ => if t.2 || decide (f.1 < 16) then queueError u q f.2 f.1 x.index false else u
    | [] =>
      let dep := pk p 32 8
      if !t.2 then u
      else
        let v := if dep = 0 then u else coreNote u q c dep 8
        match readDep u q c dep with
        | .bad e => queueError v q e 32 x.index false
        | .notYet => v
        | .ready => match getCtx s c with
          | some y => consume { v with serial := v.serial + 1 } q (.launch (launchOf v q x y p))
          | none => v) s

/-- The bytes of a barrier's DEPs that have still to be read: each DEP that has read 0 once is not read again (R354). `met` holds the addresses
of those. -/
def openDeps (p : List Byte) (met : List Nat) : List Nat := [8, 16, 24, 32].filter (fun i => pk p i 8 != 0 && !met.contains (pk p i 8))

/-- What the reads of those DEPs leave behind, each of them (21 R377, 22 R383, 10 R219). -/
def noteDeps (s : State) (q c : Nat) (l : List Nat) : State := l.foldl (fun s d => coreNote s q c d 8) s

/-- BARRIER: waits until every DEP has read 0, then decrements SIG (R351). -/
def execBarrier (q : Nat) (s : State) : Out :=
  packetStep "BARRIER" 2 q (fun x p s =>
    let c := qCtx x
    match barrierFailures p with
    | f :: _ => queueError s q f.2 f.1 x.index false
    | [] =>
      let l := openDeps p x.depOk
      let rs := l.map (fun i => (i, readDep s q c (pk p i 8)))
      let met := (rs.filter (fun r => r.2 == .ready)).map (fun r => pk p r.1 8)
      let u := modQueue (noteDeps s q c (l.map (fun i => pk p i 8))) q (fun x => { x with depOk := x.depOk ++ met })
      match rs.find? (fun r => match r.2 with
          | .bad _ => true
          | _ => false) with
      | some r => queueError u q 0x09 r.1 x.index false
      | none =>
        let sig := pk p 40 8
        if rs.all (fun r => r.2 == .ready) then
          consume u q (if sig = 0 then .none else .signal sig 0 { queue := q, byte := 40, index := x.index, dec := true })
        else u) s

/-- SIGNAL_SET: VALUE is written to SIG with release (R351). -/
def execSignalSet (q : Nat) (s : State) : Out :=
  packetStep "SIGNAL_SET" 3 q (fun x p s =>
    match signalSetFailures p with
    | f :: _ => queueError s q f.2 f.1 x.index false
    | [] => consume s q (.signal (pk p 8 8) (pk p 16 8) { queue := q, byte := 8, index := x.index, dec := false })) s

/-! ## The end of a launch (R354) -/

/-- Whether every tile task of a launch has completed. -/
def launchDone (l : Launch) : Bool :=
  l.running == 0 && l.unplaced.isEmpty && l.rangeTable.all (fun r => decide (r.2 ≤ r.1))

/-- Whether a launch's completion may be reported: its context has not stopped (R354). -/
def reportable (s : State) (l : Launch) : Bool :=
  launchDone l && (match getCtx s l.ctx with
    | some x => decide (x.life < 3)
    | none => false)

/-- SIGNAL_DECREMENT: every tile task of launch `id` has completed; its SIG is decremented (R351, R354). -/
def execSignalDecrement (id : Nat) (s : State) : Out :=
  match s.launches.find? (fun l => l.id == id) with
  | some l =>
    if reportable s l then
      let s := { s with launches := s.launches.filter (fun x => x.id != id) }
      .next (if l.sig = 0 then s
             else changeSignal s l.ctx l.sig [] { queue := l.queue, byte := 24, index := l.index, dec := true })
    else .refused (.notEnabled "SIGNAL_DECREMENT")
  | none => .refused (.notEnabled "SIGNAL_DECREMENT")

end Sys2Proof.Machine
end

