-- ==== Sys2Proof/Machine/PeatLog.lean ====
section
/-! DEFINITION. The Peat log (22 R383 to R390): appending records to the two mirrors, heads and seals, what scrub finds, and
site retirement (R391). -/

namespace Sys2Proof.Machine

/-- Byte `off` of a die's reserved W-space (20 R362, 21 R376, 22 R385; log entry 9): the context save areas of 256 MiB each,
the staithe save area, the Peat log's mirror; 4,521,984 bytes of it at each site in turn, so that each aligned 2 MiB lies at one site. -/
def reservedPlace (die off : Nat) : Nat := placeW (die * 1024 + off / 6291456) (2048 * Config.reservedPos + off % 6291456)

def saveAreaPlace (die ctx off : Nat) : Nat := reservedPlace die (ctx * 2 ^ 28 + off)
def staithePlace (die off : Nat) : Nat := reservedPlace die (16 * 2 ^ 28 + off)
def mirrorPlace (die k : Nat) : Nat := reservedPlace die (17 * 2 ^ 28 + 64 * k)

/-- How many records a volume holds. -/
def peatSize : Nat := 1048576

/-- The first word of a record (R386). -/
def peatWord (seq : Nat) (e : PeatEvent) : Nat :=
  seq + 2 ^ 20 * e.die + 2 ^ 23 * e.unit + 2 ^ 27 * e.loc + 2 ^ 37 * e.bank + 2 ^ 42 * e.kind + 2 ^ 48 * e.syn + 2 ^ 51 * min e.count 8191

/-- The initial C of a volume (R387). -/
def volumeChain (vol : Nat) : List Byte := sha384 (leBytes 8 vol ++ List.replicate 8 0)

/-- CHAIN of the last record, or the volume's initial C. -/
def lastChain (p : Peat) : List Byte :=
  match p.chain with
  | some c => beBytes 48 c.toNat
  | none => volumeChain p.vol.toNat

/-- A record performed: written to both mirrors (R385), or counted in PLLOST when the log is full (R383, R388). CHAIN stands with the
digest's first byte at the lowest address, as the standard orders it (log entry 22). -/
def appendPeat (s : State) (e : PeatEvent) : State :=
  let p := s.peat
  if peatSize ≤ p.count then
    { s with peat := { p with lost := p.lost + 1 }, msix := if p.lost = 0 then s.msix ++ [64] else s.msix }
  else
    let head := leBytes 8 (peatWord p.count e) ++ leBytes 8 (timeNow s)
    let c := sha384 (lastChain p ++ head)
    let s := writeBytes s (mirrorPlace 0 p.count) (head ++ c)
    let s := writeBytes s (mirrorPlace 3 p.count) (head ++ c)
    { s with peat := { p with count := p.count + 1, void := false, chain := some (BitVec.ofNat 384 (beNat c)) } }

/-- The order of the events of one clock: die, unit, location (R383); the three records of an admission stay together
after the other link records of their die (21 R379). -/
def eventKey (e : PeatEvent) : Nat :=
  if e.kind = 0x21 ∨ e.kind = 0x22 then e.die * 2 ^ 20 + 9 * 2 ^ 13 + 5000 else e.die * 2 ^ 20 + e.unit * 2 ^ 13 + e.loc

def insertEvent (e : PeatEvent) : List PeatEvent → List PeatEvent
  | [] => [e]
  | x :: r => if eventKey e < eventKey x then e :: x :: r else x :: insertEvent e r

def sortEvents (l : List PeatEvent) : List PeatEvent := l.foldl (fun r e => insertEvent e r) []

/-- A damaged word that a fill was to read in its clock, which it has read now: an uncorrectable event of its site (R391). -/
def countFillWord (s : State) (e : PeatEvent) : State :=
  if e.unit = 1 ∧ e.due ≠ 0 then
    let x := getSite s (e.die * 1024 + e.loc)
    setSite s (e.die * 1024 + e.loc) { x with uncorrectable := x.uncorrectable + 1 }
  else s

/-- The events detected by this clock enter the log; those detected later stay. -/
def logEvents (s : State) : State :=
  let now := sortEvents (s.events.filter (fun e => decide (e.due ≤ s.clock)))
  now.foldl (fun s e => appendPeat (countFillWord s e) e) { s with events := s.events.filter (fun e => decide (s.clock < e.due)) }

/-- LAST as a head gives it (R389). -/
def peatLast (p : Peat) : Nat := if p.count = 0 then 0xFFFFFFFF else p.count - 1

/-- The 2,048 bytes of a head (R389). -/
def headBytes (p : Peat) (clock : Nat) : List Byte :=
  let m := leBytes 4 (peatLast p) ++ leBytes 4 p.vol.toNat ++ leBytes 8 p.lost.toNat ++ lastChain p ++ leBytes 8 clock
  m ++ (List.range 96).map (Config.ecdsaByte m) ++ (List.range 1772).map (Config.lmsByte p.keys m) ++ List.replicate 108 0

/-- HEAD (R389): the head is written at PLHBUF, a class 3 address; then BUSY clears. -/
def execHead (s : State) : Out :=
  let p := { s.peat with busy := 0 }
  let a := p.hbuf.toNat
  if 2 ^ 20 ≤ p.keys then .next { s with peat := { p with result := 4 } }
  else if faClass a ≠ 3 ∨ a % 64 ≠ 0 ∨ 2 ^ 56 ≤ a then .next { s with peat := { p with result := 3 } }
  else
    match coreWrite s 16 a (headBytes p (timeNow s)) with
    | some t => .next { t with peat := { p with result := 0, head := some (peatLast p), keys := p.keys + 1 } }
    | none => .next { s with peat := { p with result := 3 } }

/-- SEAL (R390): accepted only on a head that is still the log's end. -/
def execSeal (s : State) : Out :=
  let p := { s.peat with busy := 0 }
  match p.head with
  | none => .next { s with peat := { p with result := 2 } }
  | some l =>
    if l ≠ peatLast p then .next { s with peat := { p with result := 1 } }
    else
      let s := (List.range 32).foldl (fun s k => clearRange (clearRange s (mirrorPlace 0 (32768 * k)) 0x200000) (mirrorPlace 3 (32768 * k)) 0x200000) s
      .next { s with peat := { p with result := 0, head := none, count := 0, void := true, chain := none, vol := p.vol + 1, lost := 0 } }

/-! ## Errors of a word, and scrub (R382, R384) -/

/-- The source of a protected word: of W, P, E, instruction memory, a staithe; of the micro-step stores (space 8: 2,048 bytes for each
sequencer), the latches (9: 32 KiB for each latch, 8 bytes an element), the pending-write tables (10: 128 entries of 1,024 bytes) and the
stream records (11: 1,024 bytes of lanes for each of z0..z7). None elsewhere. The manual gives the last four no place (log entry 86). -/
def scrubSource (p : Nat) : Option PeatEvent :=
  let o := p % 2 ^ 48
  let e : PeatEvent := { die := 0, unit := 0, loc := 0, kind := 3, count := 1 }
  let ofSeq (unit size : Nat) : Option PeatEvent :=
    if o < 512 * size then some { e with die := o / size / 128, unit := unit, loc := o / size } else none
  match spaceOf p with
  | 0 => if o < 4096 * 0xC000000 then
      some { e with die := o / 0xC000000 / 1024, unit := 1, loc := o / 0xC000000 % 1024, bank := o % 0xC000000 / 2048 % 32 }
    else none
  | 1 => if o < 2 ^ 30 then some { e with die := o / 2 ^ 28, unit := 5, loc := o % 2 ^ 28 / 2 ^ 22 } else none
  | 4 => ofSeq 2 (2 ^ 20)
  | 5 => ofSeq 3 (2 ^ 18)
  | 6 => ofSeq 4 (2 ^ 16)
  | 8 => ofSeq 11 (2 ^ 11)
  | 9 => if o < 2 ^ 29 then some { e with die := o / 2 ^ 27, unit := 6, loc := o / 2 ^ 17 % 1024 } else none
  | 10 => ofSeq 11 (2 ^ 17)
  | 11 => ofSeq 11 (2 ^ 13)
  | _ => none

/-- Whether a place is of memory or of the micro-step store, which scrub visits. -/
def isSram (p : Nat) : Bool := decide (spaceOf p ≤ 8)

/-- Lanes 2k and 2k + 1, the two that share a protected word. -/
def wordLanes (k : Nat) : Mask := (3 : Mask) <<< (2 * k)

/-- An entry of the pending-write table with word `k` damaged: a scalar value takes its poison bit, other values, a generator parameter
among them, read as unspecified bits there (R382, log entry 86). `pos` names the free values. -/
def damagePending (fr pos k : Nat) (e : Pending) : Pending :=
  match e.dest with
  | .vector _ => { e with vec := freeLanes fr pos (wordLanes k) e.vec }
  | .param _ _ => if k = 0 then { e with value := { bits := Config.freeBits 64 fr (pos + 3) } } else e
  | .mask _ => { e with mvec := e.mvec ^^^ (Config.freeBits 256 fr (pos + 1) &&& (BitVec.ofNat 256 (2 ^ 64 - 1) <<< (64 * k))) }
  | _ => { e with value := { e.value with poison := true } }

/-- A stream record with word `k` of its lanes damaged: their values are unspecified. -/
def damageStream (fr k : Nat) (z : Stream) : Stream :=
  { z with value := freeLanes fr 9502 (wordLanes k) z.value, spoilt := z.spoilt ||| wordLanes k }

/-- An element of a latch that an error has taken: nan(0x6) (R382). -/
def damageLatch (i : Nat) (l : List Num) : List Num :=
  (l ++ List.replicate (i + 1 - l.length) (Num.fin false 0 0)).set i (Num.nanOf 6)

/-- A word of a structure other than memory that is found uncorrectable (R382). -/
def damageWord (s : State) (place : Nat) : State :=
  let o := place % 2 ^ 48
  match spaceOf place with
  | 8 => modSeq s (o / 2 ^ 11) (fun q => { q with microBad := if q.microBad.contains (o / 8 % 256) then q.microBad else q.microBad ++ [o / 8 % 256] })
  | 9 => let x := getSite s (o / 2 ^ 17)
         setSite s (o / 2 ^ 17) { x with latch := x.latch.set (o / 2 ^ 15 % 4) (damageLatch (o / 8 % 4096) (at' x.latch (o / 2 ^ 15 % 4) [])) }
  | 10 => modSeq s (o / 2 ^ 17) (fun q => { q with pending := q.pending.zipIdx.map (fun x =>
            if x.2 = o / 1024 % 128 then damagePending s.free 9500 (o / 8 % 128) x.1 else x.1) })
  | 11 => modSeq s (o / 2 ^ 13) (fun q => { q with z := q.z.zipIdx.map (fun x =>
            if x.2 = o / 1024 % 8 then damageStream s.free (o / 8 % 128) x.1 else x.1) })
  | _ => { s with poison := markWord s.poison (place / 8) }

/-- SCRUB reads the word at a place and finds it clean (0), corrected in one bit (1) or one symbol (2), or uncorrectable (3):
no value changes, an uncorrectable word is marked, and what is found is recorded (R384, R383). The same step stands for an error met at
a word by another read, which is corrected in one bit (4) or in a symbol of k bits (4 + k), or, in a structure that scrub does not visit,
uncorrectable (3) (R382, R386 KIND 0x01, log entry 86). -/
def execScrub (place found : Nat) (s : State) : Out :=
  match scrubSource place with
  | none => .fault (.noSuchUnit "word" place)
  | some e =>
    let noted (e : PeatEvent) : State := { s with events := s.events ++ [e] }
    if found = 0 then .next s
    else if found = 1 ∧ isSram place then .next (noted { e with kind := 3, syn := 1 })
    else if found = 2 ∧ e.unit = 1 then .next (noted { e with kind := 3, syn := 2 })
    else if found = 3 then
      let t := damageWord (noted { e with kind := if isSram place then 4 else 2, syn := 3 }) place
      if e.unit = 1 then
        let x := getSite t (place / 0xC000000)
        .next (setSite t (place / 0xC000000) { x with uncorrectable := x.uncorrectable + 1 })
      else .next { t with free := t.free + 1 }
    else if found = 4 then .next (noted { e with kind := 1, syn := 1 })
    else if 5 ≤ found ∧ found ≤ 20 ∧ e.unit = 1 then .next (noted { e with kind := 1, syn := 2, count := found - 4 })
    else .refused (.notEnabled "SCRUB")

/-! ## Retirement (R391) -/

/-- Whether a context holds a site: a reserved sequencer has it in its segment, or a W grant covers it. -/
def holdsSite (x : Ctx) (site : Nat) : Bool :=
  x.seqs.any (fun n => (List.range 8).any (fun j => siteOf n j == site)) ||
    x.grants.any (fun g => g.cls == 0 && grantHasW g site (fieldN g.a1 0 17))

/-- A context that holds a retired site stops with cause 0x0B (05 R118); the record comes from the site's sequencer, with no slot and
that sequencer's pc as its bundle: the manual names neither (log entry 84). -/
def stopForSite (site : Nat) (s : State) (c : Nat) : State :=
  match getCtx s c with
  | none => s
  | some x =>
    if !holdsSite x site || decide (3 ≤ x.life) then s
    else
      let n := (siteOwner site).1
      stopCharged s c n 0x0B 0xFF (getSeq s n).pc (BitVec.ofNat 64 (packageSite site))

/-- The fills under way at a retired site get error replies from this clock on, read no further word, and their commands end in a fault
(log entry 79). -/
def dropFills (s : State) (site : Nat) : State :=
  let o := siteOwner site
  let s := { s with events := s.events.filter (fun e => !(e.unit == 1 && e.die * 1024 + e.loc == site && e.due != 0 && decide (s.clock ≤ e.due))) }
  modMx s o.1 (fun m =>
    (m.fills.filter (fun f => f.site == o.2)).foldl (fun m f => dropOwner m f.owner) { m with fills := m.fills.filter (fun f => f.site != o.2) })

/-- A site is retired: its holders stop, the fills there fail, and one record is appended. -/
def retireSite (s : State) (site : Nat) : State :=
  if (getSite s site).retired then s
  else
    let s := dropFills (setSite s site { getSite s site with retired := true }) site
    let s := (s.ctxs.map (·.1)).foldl (stopForSite site) s
    { s with events := s.events ++ [{ die := site / 1024, unit := 0, loc := site % 1024, kind := 0x18 }] }

/-- RETIRE: the driver retires the site with a package site number (R391). -/
def execRetire (site : Nat) (s : State) : Out :=
  if 4096 ≤ site then .fault (.noSuchUnit "site" site) else .next (retireSite s (siteOfPackage site))

/-- THRESHOLD_RETIREMENT: the hub retires a site whose uncorrectable events reach the threshold (R391). -/
def execThresholdRetirement (site : Nat) (s : State) : Out :=
  if 4096 ≤ site then .fault (.noSuchUnit "site" site)
  else
    let x := getSite s (siteOfPackage site)
    if 0 < x.uncorrectable ∧ Config.retireThreshold ≤ x.uncorrectable ∧ !x.retired then .next (retireSite s (siteOfPackage site))
    else .refused (.notEnabled "THRESHOLD_RETIREMENT")

end Sys2Proof.Machine
end

