-- ==== Sys2Proof/Machine/Sync.lean ====
section
/-! DEFINITION. The sync slot (03 R77 to R87): NOP, waits and posts, QUIET, SEGB, BRK, TRAPI, DRAIN and END. -/

namespace Sys2Proof.Machine

/-- NOP (01 R13). -/
def execNop (s : State) : Out := runSlot 0 .nop (fun _ u => u) s

/-- The test of a WAIT on a flag at the start of the clock (03 R78). -/
def waitMet (q : Seq) (f : BitVec 5) (t : BitVec 16) : Bool := decide (t.toNat ≤ (at' q.f f.toNat 0).toNat)

/-- The watchdog detail of an unmet wait (05 R118). -/
def waitDetail (f : BitVec 5) (t : BitVec 16) : Word := f.setWidth 64 ||| (t.setWidth 64 <<< 16)

/-- An acquire that is met (03 R79): what the posts performed on flag `f` before this clock released is seen, group loads among it
(13 R276) and decisions (11 R231). -/
def acquire (clock : Nat) (f : BitVec 5) (q : Seq) : Seq :=
  { q with gldOpen := q.gldOpen.filter (fun g => !(g.flag == f.toNat && decide (g.clock < clock))),
           maskOpen := q.maskOpen.filter (fun g => !(g.flag == f.toNat && decide (g.clock < clock))) }

/-- The bundle once its wait of order `o` is met: an acquire covers the bundle's other slots too (01 R17). -/
def metWait (s : State) (u : Bundle) (f : BitVec 5) (o : BitVec 3) : Bundle :=
  if o = 1 then { u with start := acquire s.clock f u.start, work := acquire s.clock f u.work } else u

/-- WAIT (03 R78, R79): stall until flag f reaches the threshold. -/
def execWait (f : BitVec 5) (o : BitVec 3) (t : BitVec 16) (s : State) : Out :=
  runSlot 0 (.wait f o t) (fun s u => if waitMet u.start f t then metWait s u f o else addStall u (waitDetail f t)) s

/-- WAITC (03 R77, R78): as WAIT; once met, the flag's base becomes old − threshold. -/
def execWaitc (f : BitVec 5) (o : BitVec 3) (t : BitVec 16) (s : State) : Out :=
  runSlot 0 (.waitc f o t) (fun s u =>
    if waitMet u.start f t then mapWork (metWait s u f o) (fun q => { q with fBase := some (f.toNat, some t) })
    else addStall u (waitDetail f t)) s

/-- POST (03 R77, R80). -/
def execPost (f : BitVec 5) (o sc : BitVec 3) (n : BitVec 16) (s : State) : Out :=
  runSlot 0 (.post f o sc n) (fun _ u =>
    mapWork u (fun q => { q with fInc := q.fInc.set f.toNat (at' q.fInc f.toNat 0 + n.toNat) })) s

/-- The group loads whose posts a CLRF of flag `f` removes: those of earlier clocks, for one of its own clock counts after the
clear (03 R77, R79). -/
def removePosts (clock : Nat) (f : BitVec 5) (l : List GldOpen) : List GldOpen :=
  l.map (fun g => if g.flag = f.toNat ∧ g.clock < clock then { g with flag := 32 } else g)

/-- The same for decisions that have landed ahead of their deadline. -/
def removeDecisions (clock : Nat) (f : BitVec 5) (l : List MaskOpen) : List MaskOpen :=
  l.map (fun g => if g.flag = f.toNat ∧ g.clock < clock then { g with flag := 32 } else g)

/-- CLRF (03 R77, R81). A post that it removes from the flag is contained in no later value (R79). -/
def execClrf (f : BitVec 5) (s : State) : Out :=
  runSlot 0 (.clrf f) (fun s u => mapWork u (fun q =>
    { q with fBase := some (f.toNat, none), gldOpen := removePosts s.clock f q.gldOpen, maskOpen := removeDecisions s.clock f q.maskOpen })) s

/-- QUIET (03 R85): judged at the bundle's commit. -/
def execQuiet (l : BitVec 16) (s : State) : Out := runSlot 0 (.quiet l) (fun _ u => { u with quiet := some l }) s

/-- The image that a sequencer's task runs (20 R366). -/
def imageOf (s : State) (q : Seq) : Option Image :=
  match q.launch, q.ctx with
  | some id, some c =>
    match s.launches.find? (fun l => l.id == id), getCtx s c with
    | some l, some x => x.images.find? (fun i => i.handle == l.handle)
    | _, _ => none
  | _, _ => none

/-- The entry of a segment table (20 R369): load, length, source. -/
def segmentEntry (s : State) (q : Seq) (k : Nat) : Option (Nat × Nat × Nat) :=
  match imageOf s q with
  | some i => (i.segs[k]?).join
  | none => none

/-- SEGB (03 R86, 05 R120): nothing where the segment is resident or being fetched, BAD where its entry is invalid. -/
def execSegb (k : BitVec 6) (s : State) : Out :=
  runSlot 0 (.segb k) (fun s u => mapWork u (fun q =>
    let q := { q with sr := { q.sr with segLast := k } }
    match segmentEntry s q k.toNat with
    | none => { q with sr := { q.sr with segBad := true } }
    | some (load, len, src) =>
      if q.segRes.getLsbD k.toNat || q.segFetch.any (fun f => f.seg == k.toNat) then q
      else { q with segFetch := q.segFetch ++ [{ seg := k.toNat, load := load, len := len, src := src,
                                                 left := Config.freeClocks s.free }] })) s

/-- BRK (03 R87): the bundle fault 0x07, or a debug halt under break-enable. -/
def execBrk (c : BitVec 16) (s : State) : Out := runSlot 0 (.brk c) (fun _ u => addFault u 7 c) s

/-- TRAPI (03 R87): the bundle fault 0x06. -/
def execTrapi (c : BitVec 16) (s : State) : Out := runSlot 0 (.trapi c) (fun _ u => addFault u 6 c) s

/-- DRAIN (03 R83): commits at once; the next bundle is held until every store, copy and network command issued so
far is performed. -/
def execDrain (sc : BitVec 3) (s : State) : Out := runSlot 0 (.drain sc) (fun _ u => { u with drains := some sc }) s

/-- END (03 R84). -/
def execEndOp (s : State) : Out := runSlot 0 .endOp (fun _ u => { u with ends := true }) s

end Sys2Proof.Machine
end

