-- ==== Sys2Proof/Machine/Placement.lean ====
section
/-! DEFINITION. The die cores: placing tiles and starting tasks (20 R358, R359, R369, 05 R104, 08 R176), the landing of a
segment (05 R120), the watchdog (05 R119) and the completion of a task (03 R84). -/

namespace Sys2Proof.Machine

/-! ## Starting a task -/

/-- Latches as an admission leaves them: every element +0 (08 R176). -/
def admitSite (s : State) (x : Nat) : State :=
  setSite s x { getSite s x with latch := [[], [], [], []], latchW := [0, 0, 0, 0], latchScale := [[], [], [], []] }

/-- A site admitted to context `c` again, with the bank formats that it left there (16 R312). -/
def admitAgain (c : Nat) (s : State) (x : Nat) : State :=
  match getCtx s c with
  | none => s
  | some y =>
    let s := setCtx (admitSite s x) c { y with sites := y.sites ++ [x], banks := tdel y.banks x }
    match tfind y.banks x with
    | some b => setSite s x { getSite s x with bank := b }
    | none => s

/-- A site of a placed task: admitted where the context first comes to it, or first after its save, and given the image's bank formats
and W data where the image first comes to it (20 R369). Latches of a context that another was admitted over stand as the other left them (08 R176,
log entry 100). -/
def placeSite (c : Nat) (i : Image) (s : State) (x : Nat) : State :=
  match getCtx s c with
  | none => s
  | some y =>
    let s := if y.sites.contains x then s else admitAgain c s x
    if (y.images.find? (fun k => k.handle == i.handle)).any (fun k => k.placedSites.contains x) then s
    else
      let s := setSite s x { getSite s x with bank := i.banks }
      let s := (i.data.filter (fun d => d.space == 2)).foldl (fun s d => writeBytes s (placeW x d.offset) d.bytes) s
      modCtx s c (fun y => { y with images := y.images.map (fun k =>
        if k.handle = i.handle then { k with placedSites := k.placedSites ++ [x] } else k) })

/-- The tile coordinates of linear index `j` (19 R343). -/
def tileWord (l : Launch) (j : Nat) : BitVec 48 :=
  BitVec.ofNat 48 (j % l.nx + 2 ^ 16 * (j / l.nx % l.ny) + 2 ^ 32 * (j / (l.nx * l.ny)))

/-- The state of a placed task, at its start (05 R104, R105, 03 R77, 08 R187). Rows on the links of the segment stay: only the end of the task
that receives them discards them (08 R195). -/
def freshTask (old : Seq) (l : Launch) (i : Image) (j : Nat) : Seq :=
  { pc := i.entry, status := .placed, ctx := some l.ctx, launch := some l.id, f := i.flags, zones := i.zones, ranges := l.ranges,
    micro := i.steps, routines := i.routines,
    sr := { tvec := i.tvec, tile := tileWord l j, winBase := i.winBase, winSize := i.winSize, wdog := BitVec.ofNat 6 l.wdog },
    mx := { incoming := old.mx.incoming, sent := old.mx.sent } }

/-- The code of segment 0 as a die holds it (20 R366). -/
def residentCode (i : Image) (d : Nat) : List Byte := ((i.slices.find? (fun x => x.1 == d)).map (·.2)).getD i.code

/-- At an image's first placement on a die, segment 0 is copied into a slice of it, where it stays while the handle is registered (20
R366). -/
def placeSlice (c : Nat) (i : Image) (d : Nat) (s : State) : State :=
  modCtx s c (fun y => { y with images := y.images.map (fun k =>
    if k.handle = i.handle ∧ !k.slices.any (fun x => x.1 == d) then { k with slices := k.slices ++ [(d, k.code)] } else k) })

/-- P is cleared in the window and preloaded, E preloaded, and segment 0 loaded (20 R369). -/
def preload (s : State) (n : Nat) (i : Image) : State :=
  let s := clearRange s (placeP n i.winBase.toNat) i.winSize.toNat
  let s := i.data.foldl (fun s d =>
    if d.space = 0 then writeBytes s (placeP n d.offset) d.bytes
    else if d.space = 1 then writeBytes s (placeE n d.offset) d.bytes else s) s
  match i.segs.head?.join with
  | some (load, _, _) => writeBytes s (placeI n (32 * load)) (residentCode i (n / 128))
  | none => s

/-- The context's first task starts it (R355). -/
def startContext (s : State) (c : Nat) : State :=
  match getCtx s c with
  | some x => if x.life = 0 then writeCstat (setCtx s c { x with life := 1, started := s.clock }) c 1 else s
  | none => s

/-- Tile `j` of a launch is placed on sequencer `n`: it starts at the end of this clock (16 R403, log entry 67), and issues its first
bundle in the next, sr.sched being 0. -/
def startTask (s : State) (l : Launch) (i : Image) (j n : Nat) : State :=
  let s := startContext s l.ctx
  let s := placeSlice l.ctx i (n / 128) ((List.range 8).foldl (fun s k => placeSite l.ctx i s (siteOf n k)) s)
  let s := preload s n i
  setSeq s n (freshTask (getSeq s n) l i j)

/-- A registered pager of its context (16 R306). -/
def isPager (x : Ctx) (n : Nat) : Bool := x.pagers.any (fun r => r.seq == n)

/-- A placed task starts (16 R403): at once where no pre-emption of its context has begun, else once ARM has been sent to its sequencer.
Armed, it reports r = 0 before N is formed, and takes H := N after. A pager receives no ARM (16 R306). -/
def beginPlaced (s : State) (n : Nat) (q : Seq) : Seq :=
  match q.ctx.bind (getCtx s) with
  | none => q
  | some x =>
    if q.status ≠ .placed ∨ x.halted then q
    else if isPager x n then { q with status := .running }
    else match x.cut with
      | .none => { q with status := .running }
      | .reporting _ => if q.hold.isSome then { q with status := .running, hold := some 0, reported := some 0 } else q
      | .released t => if q.hold.isSome then { q with status := .running, hold := some t, reported := none } else q

/-! ## Which tile is placed next -/

/-- A claim of die `d` (R359): the tile and the table after it; an empty die first steals half of the largest range. -/
def claim (rt : List (Nat × Nat)) (d : Nat) : Option (Nat × List (Nat × Nat)) :=
  let e := at' rt d (0, 0)
  if e.1 < e.2 then some (e.1, rt.set d (e.1 + 1, e.2))
  else
    let size (v : Nat) : Nat := let f := at' rt v (0, 0); f.2 - f.1
    let v := (List.range 4).foldl (fun b v => if size b < size v then v else b) 0
    let f := at' rt v (0, 0)
    if f.2 ≤ f.1 then none
    else
      let k := (f.2 - f.1 + 1) / 2
      some (f.2 - k, (rt.set v (f.1, f.2 - k)).set d (f.2 - k + 1, f.2))

/-- Whether no task is resident on a sequencer. -/
def seqFree (s : State) (n : Nat) : Bool := (getSeq s n).status == .idle

/-- Whether tiles of a context may be placed now: it is not saved, stopped, halted or being pre-empted (16 R304, R314). -/
def ctxPlaces (x : Ctx) : Bool := decide (x.life ≤ 1) && !x.halted && x.cut == .none

/-- The lowest free sequencer of a context on a die, sites in service (log entry 21). -/
def freeSeqOf (s : State) (x : Ctx) (d : Nat) : Option Nat :=
  (List.range 128).findSome? (fun k =>
    let n := 128 * d + k
    if x.seqs.contains n && seqFree s n && !seqRetired s n then some n else none)

/-- The number of die `d`'s core as a reader. -/
def dieReader (d : Nat) : Nat := 65 + d

/-- The reads of a launch's range table that are still to be made. -/
def launchReads (l : Launch) : List (Nat × Nat) := (l.rtab.map (fun t => rangeReads t.1 t.2)).getD []

/-- The range registers of a launch, as die `d`'s core reads them (19 R345); false is an error reply, true a wait. -/
def launchRanges (s : State) (d : Nat) (l : Launch) : Except Bool (List (BitVec 128)) :=
  match l.rtab with
  | none => .ok l.ranges
  | some t => readRanges s (dieReader d) l.ctx t.1 t.2

/-- The next tile of a launch for die `d`: the tile, its sequencer and the launch after it (R358, R359). A launch whose range table waits at
its page lets others go first. -/
def nextTile (s : State) (d : Nat) (l : Launch) : Option (Nat × Nat × Launch) :=
  match getCtx s l.ctx with
  | none => none
  | some x =>
    if !ctxPlaces x || readsHeld s (dieReader d) l.ctx (launchReads l) then none
    else if l.pinned then
      match l.unplaced.find? (fun j => (l.seq0 + j) / 128 == d) with
      | some j => if seqFree s (l.seq0 + j) && x.seqs.contains (l.seq0 + j) then some (j, l.seq0 + j, { l with unplaced := l.unplaced.erase j, running := l.running + 1 }) else none
      | none => none
    else match freeSeqOf s x d with
      | some n => match claim l.rangeTable d with
        | some t => some (t.1, n, { l with rangeTable := t.2, running := l.running + 1 })
        | none => none
      | none => none

/-- Launches highest priority first, older first within one. -/
def insertLaunch (l : Launch) : List Launch → List Launch
  | [] => [l]
  | x :: r => if x.prio < l.prio then l :: x :: r else x :: insertLaunch l r

def byPriority (l : List Launch) : List Launch := l.foldl (fun r x => insertLaunch x r) []

/-- Whether die `d`'s core runs: its firmware, stage 3 + d, has been measured (R372, log entry 71). -/
def dieRuns (s : State) (d : Nat) : Bool := decide (4 + d ≤ s.mgmt.booted)

/-- The tile that die `d` places now. -/
def tileDue (s : State) (d : Nat) : Option (Nat × Nat × Launch) :=
  if (tget {} s.dies d).st ≠ 0 ∨ !dieRuns s d then none else (byPriority s.launches).findSome? (nextTile s d)

/-- A launch that no tile of has been placed is refused by the die core that reads its range table: its queue, when it next runs at its slot,
enters the error state with the failure (10 R210, R352, log entry 56). -/
def refuseLaunch (s : State) (l : Launch) (cause : Nat) : State :=
  modQueue { s with launches := s.launches.filter (fun x => x.id != l.id) } l.queue (fun x => { x with lateFails := x.lateFails ++ [(cause, 16, l.index)] })

/-- Tile `j` of launch `l`, as it is after this placement, goes to sequencer `n` of die `d`, whose core first reads the launch's range table
where no core has yet (19 R345 step 5). -/
def placeTile (s : State) (d j n : Nat) (l : Launch) (i : Image) : State :=
  let t := noteReads s (dieReader d) l.ctx (launchReads l)
  match launchRanges s d l with
  | .error true => t
  | .error false => refuseLaunch t l 0x09
  | .ok r =>
    if tableRefused s r then refuseLaunch t l 0x06
    else
      let l := { l with ranges := r ++ List.replicate (8 - r.length) 0, rtab := none }
      startTask { t with launches := t.launches.map (fun x => if x.id = l.id then l else x) } l i j n

/-- TILE_PLACEMENT: die core `die` places the next tile, whose task starts with the next clock (R358, R359, 05 R104). -/
def execTilePlacement (die : Nat) (s : State) : Out :=
  if 4 ≤ die then .fault (.noSuchUnit "die" die)
  else match tileDue s die with
    | some (j, n, l) =>
      match (getCtx s l.ctx).bind (fun x => x.images.find? (fun i => i.handle == l.handle)) with
      | some i => .next (placeTile s die j n l i)
      | none => .refused (.notEnabled "TILE_PLACEMENT")
    | none => .refused (.notEnabled "TILE_PLACEMENT")

/-! ## Segments (05 R120) -/

/-- One bundle of a source, 32 bytes, into instruction memory; the error is the page that the access waits on, if any. Damaged or unanswered
it is marked. A segment is fetched from staithes only (10 R204, log entry 83). -/
def fetchBundle (s : State) (c n fa dst : Nat) (failed : List Nat) : Except (Option Nat) (State × Bool) :=
  let sent : Bool := faClass fa == 1 && !failed.contains (pageOf fa)
  let x := if sent then reach s n c fa 1 else .refused
  let s' := if sent then countReach s n c fa x else s
  let from_ (p : Nat) : State × Bool :=
    if poisoned s p 32 then (storePoisoned ((damagedIn s p 32).foldl recordDamage s') (placeI n dst) (readBytes s p 32), true)
    else (writeBytes s' (placeI n dst) (readBytes s p 32), false)
  match x with
  | .waits p => .error (some p)
  | .blocked => .error none
  | .place p => .ok (from_ p)
  | .remote p => .ok (from_ p)
  | _ => .ok (storePoisoned s' (placeI n dst) (List.replicate 32 0), true)

/-- The bundles of a source in order, and whether any is damaged or unanswered. -/
def fetchBundles (c n : Nat) (failed : List Nat) : Nat → Nat → Nat → State → Bool → Except (Option Nat) (State × Bool)
  | 0, _, _, s, bad => .ok (s, bad)
  | k + 1, fa, dst, s, bad => match fetchBundle s c n fa dst failed with
    | .ok x => fetchBundles c n failed k (fa + 32) (dst + 32) x.1 (bad || x.2)
    | .error p => .error p

/-- A segment fetch of sequencer `n`. -/
def fetchSegment (s : State) (n : Nat) (f : SegFetch) : Except (Option Nat) (State × Bool) :=
  fetchBundles ((getSeq s n).ctx.getD 16) n f.failed f.len f.src (32 * f.load) s false

/-- The request of a segment fetch that waits at a page (10 R219). -/
def segRequest (n : Nat) (f : SegFetch) (page : Nat) : HeldRequest := { seq := n, eng := 3, write := false, serial := f.seg, page := page }

/-- Whether a fetch whose time has run out can land, or has still to join the requests that wait on a page. -/
def segmentReady (s : State) (n : Nat) (f : SegFetch) : Bool :=
  match fetchSegment s n f with
  | .ok _ => true
  | .error (some p) => (((getSeq s n).ctx.bind (getCtx s)).bind (fun x => regionOf x p)).any (fun r => !r.waits.contains (segRequest n f p))
  | .error none => false

/-- Segments whose range a fetch of [load, load + len) writes. -/
def overlapped (s : State) (q : Seq) (load len : Nat) : BitVec 64 :=
  BitVec.ofNat 64 ((List.range 64).foldl (fun a k =>
    match segmentEntry s q k with
    | some (l, m, _) => if l < load + len ∧ load < l + m then a + 2 ^ k else a
    | none => a) 0)

/-- SEGMENT_LANDING: the oldest segment fetch of sequencer `n` whose time has run out lands (05 R120), or joins the requests that wait on a
page of its source (10 R219). -/
def execSegmentLanding (n : Nat) (s : State) : Out :=
  if 512 ≤ n then .fault (.noSuchUnit "sequencer" n)
  else
    let q := getSeq s n
    match q.segFetch.find? (fun f => f.left == 0) with
    | none => .refused (.notEnabled "SEGMENT_LANDING")
    | some f =>
      if !segmentReady s n f then .refused (.notEnabled "SEGMENT_LANDING")
      else match fetchSegment s n f with
      | .error p => .next (p.elim s (fun p => joinWait s (q.ctx.getD 16) (segRequest n f p)))
      | .ok (t, bad) =>
        let gone := overlapped s q f.load f.len
        .next (modSeq t n (fun q => { q with segFetch := q.segFetch.erase f, segRes := (q.segRes &&& ~~~gone) ||| (1 <<< f.seg),
                                             sr := { q.sr with segErr := q.sr.segErr || bad } }))

/-! ## The watchdog (05 R119) -/

/-- Whether a sequencer has stalled for 2^K clocks. -/
def watchdogDue (q : Seq) : Bool := q.status == .running && decide (2 ^ q.sr.wdog.toNat ≤ q.stallCount)

/-- WATCHDOG_EXPIRY: the context of sequencer `n` stops with cause 0x04. -/
def execWatchdogExpiry (n : Nat) (s : State) : Out :=
  if 512 ≤ n then .fault (.noSuchUnit "sequencer" n)
  else
    let q := getSeq s n
    if watchdogDue q then .next (stopContext s n 0x04 q.stallSlot q.pc q.stallDetail)
    else .refused (.notEnabled "WATCHDOG_EXPIRY")

/-! ## The end of a task (03 R84) -/

/-- Whether every engine command of a sequencer has completed or faulted and every post has been performed. -/
def enginesIdle (s : State) (n : Nat) : Bool :=
  let q := getSeq s n
  q.mx.queue.isEmpty && q.mx.running.isEmpty && q.mx.routine.isNone && q.mx.fills.isEmpty && q.mx.edgeBuf.isEmpty &&
    q.cpy.queue.isEmpty && q.cpy.running.isEmpty && q.net.queue.isEmpty && q.net.running.isEmpty && s.posts.all (fun p => p.seq != n)

/-- The rows left on the link into a sequencer whose task ends are discarded (08 R195); rows still in the sender's beds are on no
link yet. -/
def dropRows (s : State) (n : Nat) : State :=
  let s := modMx s n (fun m => { m with incoming := [], discardIn := 0 })
  match westOf n with
  | some w => modMx s w (fun m => { m with sent := m.sent.filter (fun r => decide (s.clock < r.sentAt)) })
  | none => s

/-- TASK_COMPLETION: the ended task of sequencer `n` has drained and reports (R84). -/
def execTaskCompletion (n : Nat) (s : State) : Out :=
  if 512 ≤ n then .fault (.noSuchUnit "sequencer" n)
  else
    let q := getSeq s n
    if q.status == .ending && enginesIdle s n then
      let s := modSeq (dropRows s n) n (fun q => { q with status := .idle, launch := none, hold := none, reported := none })
      .next { s with launches := s.launches.map (fun l => if q.launch = some l.id then { l with running := l.running - 1 } else l) }
    else .refused (.notEnabled "TASK_COMPLETION")

end Sys2Proof.Machine
end

