-- ==== Sys2Proof/Machine/Mailbox.lean ====
section
/-! DEFINITION. The context mailbox (20 R360 to R369): creating and freeing contexts, sequencers, storage, table areas,
installs, images and pager regions. Each command takes effect whole in one step. -/

namespace Sys2Proof.Machine

/-- CMSTAT after a command (R360). -/
def cmDone (s : State) (status result : Nat) : State := { s with cmstat := BitVec.ofNat 64 (2 ^ 8 * status + 2 ^ 32 * result) }

/-- What a command answers: a status, or its effect and RESULT. -/
abbrev CmResult := Except Nat (State × Nat)

def cmEnd (s : State) (r : CmResult) : State :=
  match r with
  | .ok t => cmDone t.1 0 t.2
  | .error e => cmDone s e 0

/-- A command on context `c` (R360, R361): features first, then the context. -/
def onContext (s : State) (c : Nat) (f : Ctx → CmResult) : State :=
  if !s.lock then cmDone s 0x01 0
  else match getCtx s c with
    | none => cmDone s 0x07 0
    | some x => cmEnd s (f x)

/-- Whether the mailbox is carrying out a command. -/
def cmBusy (s : State) : Bool := anyBit s.cmstat 0 1

/-- The front core carries out the command that CMCMD names (R360): none where the mailbox holds another one. -/
def mailboxCommand (name : String) (holds : Word → Bool) (f : Word → State → State) (s : State) : Out :=
  match s.cmcmd with
  | some w => if holds w then .next (f w { s with cmcmd := none }) else .refused (.notEnabled name)
  | none => .refused (.notEnabled name)

/-- A command that stands over because a read that it takes waits at its page (10 R217): bit 12 says that this clock's slot has looked
at it. -/
def stands (w : Word) : Word := w ||| 0x1000

/-- As mailboxCommand, for a command that never stands over. -/
def mailboxStep (name : String) (holds : Word → Bool) (f : State → State) (s : State) : Out := mailboxCommand name holds (fun _ => f) s

/-- Whether a CMCMD value is command `cmd` of context `c`. -/
def isCommand (cmd c : Nat) (w : Word) : Bool := fieldN w 0 8 == cmd && fieldN w 8 4 == c

/-! ## CREATE (R362) -/

def freeContext (s : State) : Option Nat := (List.range 16).find? (fun c => (getCtx s c).isNone)

def createContext (s : State) : State :=
  let a := s.cmarg0.toNat
  if !s.lock then cmDone s 0x01 0
  else if a % 8 ≠ 0 ∨ 2 ^ 56 ≤ a ∨ !signalClass a ∨ anyBit s.cmarg1 1 63 ∨ s.cmarg2 ≠ 0 then cmDone s 0x03 0
  else match freeContext s with
    | none => cmDone s 0x02 0
    | some c => cmDone (writeCstat (setCtx s c { cstat := a, esc := anyBit s.cmarg1 0 1 }) c 0) 0 c

/-- CREATE. -/
def execCreate (s : State) : Out := mailboxStep "CREATE" (fun w => fieldN w 0 8 == 1) createContext s

/-! ## Clearing storage (R364) -/

/-- The package sites of a W grant's rectangle, as die sites. -/
def grantSites (g : Grant) : List Nat :=
  (List.range (fieldN g.a0 14 7)).flatMap (fun r => (List.range (fieldN g.a0 21 7)).map (fun k =>
    siteOfPackage (64 * (fieldN g.a0 2 6 + r) + fieldN g.a0 8 6 + k)))

def clearGrant (s : State) (g : Grant) : State :=
  match g.cls with
  | 0 => (grantSites g).foldl (fun s x => clearRange s (placeW x (2048 * fieldN g.a1 0 17)) (2048 * fieldN g.a1 17 17)) s
  | 1 => clearRange s (placeS (fieldN g.a0 2 2) (fieldN g.a0 4 6 * 0x400000 + 65536 * fieldN g.a0 10 6)) (65536 * fieldN g.a0 16 7)
  | _ => clearRange s (placeTier (65536 * g.a1.toNat)) (65536 * g.a2.toNat)

def clearArea (s : State) (a : TableArea) : State := clearRange s (placeW (a.die * 1024 + a.site) (2048 * a.first)) (2048 * a.count)

/-! ## FREE (R368) -/

/-- The mailbox's number as a reader. -/
def mailReader : Nat := 64

/-- Whether a launch stands unconsumed in a queue: the valid packets from its read index on; none where a read waits. -/
def launchAhead (s : State) (x : LQueue) : Nat → Nat → Option Bool
  | _, 0 => some false
  | i, k + 1 =>
    match coreRead s mailReader (qCtx x) (x.base.toNat + 64 * (i % 2 ^ qLog x)) 2 with
    | .bytes h => if leNat h / 256 % 2 = 0 then some false else if leNat h % 256 = 1 then some true else launchAhead s x (i + 1) k
    | .waits => none
    | .failed => some false

/-- The same for a queue whose read index is known, or, while it is being enabled, is the word at QRIDX (R349). -/
def queueAhead (s : State) (x : LQueue) : Option Bool :=
  if x.enabling then
    match coreRead s mailReader (qCtx x) x.ridx.toNat 8 with
    | .bytes l => launchAhead s x (leNat l) (2 ^ qLog x)
    | .waits => none
    | .failed => some false
  else launchAhead s x x.index (2 ^ qLog x)

/-- Whether a launch of context `c` is unconsumed in an enabled queue; none where a read of one waits at its page. -/
def unconsumed (s : State) (c : Nat) : Option Bool :=
  (s.queues.filter (fun p => qEn p.2 && qCtx p.2 == c)).foldl (fun r p => match r, queueAhead s p.2 with
    | some true, _ => some true
    | _, some true => some true
    | some false, y => y
    | none, _ => none) (some false)

/-- The reads that this takes of a queue, in order. -/
def aheadReads (s : State) (x : LQueue) : List (Nat × Nat) :=
  let from_ (i : Nat) : List (Nat × Nat) := (List.range (2 ^ qLog x)).map (fun k => (x.base.toNat + 64 * ((i + k) % 2 ^ qLog x), 2))
  if x.enabling then
    (x.ridx.toNat, 8) :: (match coreRead s mailReader (qCtx x) x.ridx.toNat 8 with
      | .bytes l => from_ (leNat l)
      | _ => [])
  else from_ x.index

/-- What reading packets leaves behind, up to the first that is not valid or is a launch. -/
def noteAhead (s : State) (c : Nat) : List (Nat × Nat) → State
  | [] => s
  | (fa, n) :: r =>
    let t := coreNote s mailReader c fa n
    match coreRead s mailReader c fa n with
    | .bytes h => if n = 8 ∨ (leNat h / 256 % 2 = 1 ∧ leNat h % 256 ≠ 1) then noteAhead t c r else t
    | _ => t

def noteUnconsumed (s : State) (c : Nat) : State :=
  (s.queues.filter (fun p => qEn p.2 && qCtx p.2 == c)).foldl (fun s p => noteAhead s c (aheadReads s p.2)) s

/-- Whether a task of a context runs, or is placed and about to. -/
def ctxRuns (s : State) (c : Nat) : Bool :=
  s.seqs.any (fun p => p.2.ctx == some c && (p.2.status == .running || p.2.status == .held || p.2.status == .ending || p.2.status == .placed))

/-- Every sequencer of a context stops, and its queued commands are discarded (05 R118 items 1 and 3). -/
def haltSeqs (s : State) (c : Nat) : State :=
  { s with seqs := s.seqs.map (fun p =>
      if p.2.ctx = some c ∧ p.2.status ≠ .idle then
        (p.1, { p.2 with status := .stopped, mx := { p.2.mx with queue := [] }, cpy := { p.2.cpy with queue := [] }, net := { p.2.net with queue := [] } })
      else p) }

/-- Whether a started routine of sequencer `n` still goes on by itself (05 R118 item 2): it is not one that waits for a period of a table
that does not run, a lode vector that nobody sends, a row that nobody owes it, or room that nobody makes. -/
def routineGoesOn (s : State) (n : Nat) : Bool :=
  let m := (getSeq s n).mx
  let l := getLode s (n / 16)
  match m.routine with
  | none => false
  | some r =>
    if r.waitSync then lodeRuns l || l.waiting.isSome
    else match r.feed with
      | none => true
      | some f => match f.word with
        | .stepFeed mask _ _ _ _ _ _ =>
          rowReady s n m r f || decide (s.clock < f.next) || !edgeRoom s.clock m r.roles (sitesIn mask) || !l.deliver.isEmpty ||
            (match westOf n with
             | some w => !(getSeq s w).mx.sent.isEmpty
             | none => false)
        | _ => true

/-- Whether the started commands of a context have completed, but for accesses that nothing will wake and routines that wait for what
never comes. -/
def enginesSettled (s : State) (c : Nat) : Bool :=
  s.seqs.all (fun p => p.2.ctx != some c ||
    (p.2.cpy.running.all (fun r => r.wait == 1) && p.2.net.running.all (fun r => r.wait == 1) && p.2.mx.running.isEmpty &&
      !routineGoesOn s p.1 && p.2.mx.fills.isEmpty && s.posts.all (fun f => f.seq != p.1)))

/-- What a core has still to write or read for context `c` goes with it. -/
def dropCore (s : State) (c : Nat) : State :=
  { s with coreStores := s.coreStores.filter (fun y => y.ctx != c), coreFails := s.coreFails.filter (fun y => y.1 != c),
           queues := s.queues.map (fun p => (p.1, if qCtx p.2 = c then { p.2 with consuming := none } else p.2)) }

/-- Everything a context holds is released and cleared; then CSTAT reads 4, at the place its address had, and the number is free (R368,
R355; log entry 85). -/
def releaseContext (s : State) (c : Nat) (x : Ctx) : State :=
  let mine (n : Nat) : Bool := (getSeq s n).ctx == some c
  let last := coreReach s hub c x.cstat 2
  let s := { dropCore s c with
                    launches := s.launches.filter (fun l => l.ctx != c), refusals := s.refusals.filter (fun r => !mine r.2.2.1),
                    woken := s.woken.filter (fun h => h.eng == 2 || !mine h.seq), posts := s.posts.filter (fun f => !mine f.seq),
                    lodes := s.lodes.map (fun p : Nat × Lode => (p.1, dropTables c p.2)) }
  let s : State := { s with seqs := s.seqs.map (fun p =>
    if p.2.ctx = some c then (p.1, { p.2 with status := .idle, ctx := none, launch := none, cpy := {}, net := {}, mx := {}, hold := none,
                                              reported := none }) else p) }
  let s := x.grants.foldl clearGrant s
  let s := x.areas.foldl clearArea s
  let s := match last with
    | .place p => writeBytes s p (leBytes 8 4)
    | .remote p => flits (writeBytes s p (leBytes 8 4)) hub x.cstat
    | _ => countReach s hub c x.cstat last
  { s with ctxs := tdel s.ctxs c }

/-- FREE (R368); `w` is the command, which stands while a read that it takes waits at its page (10 R217). -/
def freeNow (s : State) (w : Word) (c : Nat) (x : Ctx) : State :=
  let a := s.cmarg0
  let u := noteUnconsumed s c
  if anyBit a 1 63 ∨ s.cmarg1 ≠ 0 ∨ s.cmarg2 ≠ 0 then cmDone s 0x03 0
  else if !anyBit a 0 1 && (ctxRuns s c || x.cut != .none) then cmDone s 0x04 0
  else if !anyBit a 0 1 && unconsumed s c == some true then cmDone u 0x04 0
  else if !anyBit a 0 1 && (unconsumed s c).isNone then { u with cmcmd := some (stands w) }
  else
    let t := haltSeqs (if anyBit a 0 1 then s else u) c
    if enginesSettled t c then cmDone (releaseContext t c x) 0 0
    else { setCtx t c { x with life := 4, cut := .none, freeing := true } with cmstat := 1 }

/-- FREE as the mailbox carries it out. -/
def startFree (s : State) (w : Word) (c : Nat) : State :=
  if !s.lock then cmDone s 0x01 0
  else match getCtx s c with
    | some x => freeNow s w c x
    | none => cmDone s 0x07 0

/-- FREE: at once, or, where started commands still run, in a second step once they have completed. -/
def execFree (c : Nat) (s : State) : Out :=
  match (getCtx s c).filter (·.freeing) with
  | some x => if enginesSettled s c then .next (cmDone (releaseContext s c x) 0 0) else .refused (.notEnabled "FREE")
  | none => mailboxCommand "FREE" (isCommand 2 c) (fun w s => startFree s w c) s

/-! ## RESERVE (R364) -/

def insertSeq (n : Nat) : List Nat → List Nat
  | [] => [n]
  | x :: r => if n < x then n :: x :: r else if n = x then x :: r else x :: insertSeq n r

def reserveSeqs (s : State) (c : Nat) (x : Ctx) : CmResult :=
  let first := fieldN s.cmarg0 0 9
  let count := fieldN s.cmarg0 9 10
  let run := (List.range count).map (fun i => first + i)
  if anyBit s.cmarg0 20 44 ∨ s.cmarg1 ≠ 0 ∨ s.cmarg2 ≠ 0 ∨ count = 0 ∨ 512 < count ∨ 512 < first + count then .error 0x03
  else if anyBit s.cmarg0 19 1 then
    if run.any (runsTask s c) then .error 0x05
    else .ok (setCtx s c { x with seqs := x.seqs.filter (fun n => !run.contains n) }, 0)
  else .ok (setCtx s c { x with seqs := run.foldl (fun l n => insertSeq n l) x.seqs }, 0)

/-- RESERVE with RELEASE = 0. -/
def execReserve (c : Nat) (s : State) : Out :=
  if anyBit s.cmarg0 19 1 then .refused (.notEnabled "RESERVE")
  else mailboxStep "RESERVE" (isCommand 3 c) (fun s => onContext s c (reserveSeqs s c)) s

/-- RESERVE with RELEASE = 1. -/
def execReserveRelease (c : Nat) (s : State) : Out :=
  if !anyBit s.cmarg0 19 1 then .refused (.notEnabled "RESERVE_RELEASE")
  else mailboxStep "RESERVE_RELEASE" (isCommand 3 c) (fun s => onContext s c (reserveSeqs s c)) s

/-! ## ALLOC (R364) -/

/-- Whether two runs of numbers meet. -/
def meets (a n b m : Nat) : Bool := decide (a < b + m) && decide (b < a + n)

/-- Whether two grants share storage. -/
def grantsMeet (g h : Grant) : Bool :=
  g.cls == h.cls &&
  (match g.cls with
   | 0 => meets (fieldN g.a0 2 6) (fieldN g.a0 14 7) (fieldN h.a0 2 6) (fieldN h.a0 14 7) &&
       meets (fieldN g.a0 8 6) (fieldN g.a0 21 7) (fieldN h.a0 8 6) (fieldN h.a0 21 7) &&
       meets (fieldN g.a1 0 17) (fieldN g.a1 17 17) (fieldN h.a1 0 17) (fieldN h.a1 17 17)
   | 1 => fieldN g.a0 2 8 == fieldN h.a0 2 8 && meets (fieldN g.a0 10 6) (fieldN g.a0 16 7) (fieldN h.a0 10 6) (fieldN h.a0 16 7)
   | _ => meets g.a1.toNat g.a2.toNat h.a1.toNat h.a2.toNat)

/-- Whether a W grant covers part of a table area. -/
def grantMeetsArea (g : Grant) (a : TableArea) : Bool :=
  let p := packageSite (a.die * 1024 + a.site)
  g.cls == 0 && decide (fieldN g.a0 2 6 ≤ p / 64) && decide (p / 64 < fieldN g.a0 2 6 + fieldN g.a0 14 7) &&
    decide (fieldN g.a0 8 6 ≤ p % 64) && decide (p % 64 < fieldN g.a0 8 6 + fieldN g.a0 21 7) &&
    meets (fieldN g.a1 0 17) (fieldN g.a1 17 17) a.first a.count

/-- The frames of the second tier's layout (22 R396): 4,096 to each unit of 256 MiB. -/
def tierFrames (s : State) : Nat := min (s.cxl.foldl (fun n x => n + 4096 * x.2.share) 0) (2 ^ 26)

/-- Whether the fields of a grant are in range. -/
def grantBad (s : State) (g : Grant) (a0 : Word) : Bool :=
  match g.cls with
  | 0 => anyBit a0 28 35 || anyBit g.a1 34 30 || g.a2 != 0 || fieldN a0 14 7 == 0 || decide (64 < fieldN a0 2 6 + fieldN a0 14 7) ||
      fieldN a0 21 7 == 0 || decide (64 < fieldN a0 8 6 + fieldN a0 21 7) || fieldN g.a1 17 17 == 0 ||
      decide (98304 < fieldN g.a1 0 17 + fieldN g.a1 17 17)
  | 1 => anyBit a0 23 40 || g.a1 != 0 || g.a2 != 0 || fieldN a0 16 7 == 0 || decide (64 < fieldN a0 10 6 + fieldN a0 16 7)
  | 2 => anyBit a0 2 61 || g.a2 == 0 || decide (tierFrames s < g.a1.toNat + g.a2.toNat)
  | _ => true

/-- Whether a grant conflicts (R364). -/
def grantConflicts (s : State) (c : Nat) (g : Grant) : Bool :=
  s.ctxs.any (fun p => (p.1 != c && p.2.grants.any (grantsMeet g)) || p.2.areas.any (grantMeetsArea g)) ||
  (g.cls == 0 && (decide (Config.reservedPos < fieldN g.a1 0 17 + fieldN g.a1 17 17) || (grantSites g).any (fun x => (getSite s x).retired)))

/-- The entries of a node that are not zero; a damaged one is none (10 R216, 22 R382). -/
def nodeEntries (s : State) (node count : Nat) : List Word :=
  ((((s.mem.filter (fun p => decide (node ≤ p.1) && decide (p.1 < node + 8 * count))).map (fun p => (p.1 - node) / 8)).eraseDups).filter
    (fun i => !poisoned s (node + 8 * i) 8)).map (fun i => BitVec.ofNat 64 (readNat s (node + 8 * i) 8))

/-- The places of the damaged entries of a node. -/
def nodeDamage (s : State) (node count : Nat) : List Nat :=
  (s.poison.filter (fun w => decide (node / 8 ≤ w) && decide (w < node / 8 + count))).map (fun w => 8 * w)

/-- How many entries a node of a level has (10 R214). -/
def nodeSize (cls level : Nat) : Nat :=
  match level with
  | 0 => 32
  | 3 => if cls = 2 then 64 else 16
  | _ => 512

/-- The valid leaves of a table from a node of a level on, with their levels. -/
def leavesFrom (s : State) (cls die : Nat) : Nat → Nat → List (Word × Nat)
  | 0, node => ((nodeEntries s node (nodeSize cls 0)).filter entV).map (fun e => (e, 0))
  | l + 1, node =>
    ((nodeEntries s node (nodeSize cls (l + 1))).filter entV).flatMap (fun e =>
      if entLeaf e then [(e, l + 1)] else leavesFrom s cls die l (placeW (die * 1024) (entNode e)))

/-- The damaged entries that the same reads meet. -/
def damageFrom (s : State) (cls die : Nat) : Nat → Nat → List Nat
  | 0, node => nodeDamage s node (nodeSize cls 0)
  | l + 1, node =>
    nodeDamage s node (nodeSize cls (l + 1)) ++
      ((nodeEntries s node (nodeSize cls (l + 1))).filter (fun e => entV e && !entLeaf e)).flatMap (fun e =>
        damageFrom s cls die l (placeW (die * 1024) (entNode e)))

/-- A leaf's frame as a grant of its own. -/
def leafGrant (cls die : Nat) (e : Word) (level : Nat) : Grant :=
  let f := entFrame e
  let n := if level = 1 then 32 else 1
  match cls with
  | 0 =>
    let p := packageSite (die * 1024 + f / 2 ^ 12 % 1024)
    { cls := 0, a0 := BitVec.ofNat 64 (4 * (p / 64) + 2 ^ 8 * (p % 64) + 2 ^ 14 + 2 ^ 21), a1 := BitVec.ofNat 64 (32 * (f % 2 ^ 12) + 2 ^ 17 * (32 * n)), a2 := 0 }
  | 1 => { cls := 1, a0 := BitVec.ofNat 64 (4 * die + 16 * (f / 64 % 64) + 2 ^ 10 * (f % 64) + 2 ^ 16 * n), a1 := 0, a2 := 0 }
  | _ => { cls := 2, a0 := 0, a1 := BitVec.ofNat 64 (f % 2 ^ 26), a2 := BitVec.ofNat 64 n }

/-- The roots of the tables of a context that may map a class of storage, each with its die. -/
def tableRoots (x : Ctx) (cls : Nat) : List (Nat × Nat) :=
  x.areas.filterMap (fun a => if cls ≤ 2 && (cls != 2 || a.die == 0) then (rootPlace x cls a.die).map (fun r => (a.die, r)) else none)

/-- Whether a valid leaf of the context maps into a grant. -/
def grantMapped (s : State) (x : Ctx) (g : Grant) : Bool :=
  (tableRoots x g.cls).any (fun a => (leavesFrom s g.cls a.1 3 a.2).any (fun e => grantsMeet g (leafGrant g.cls a.1 e.1 e.2)))

/-- The grant that ALLOC names. -/
def stagedGrant (s : State) : Grant :=
  let a0 : Word := s.cmarg0 &&& ~~~((1 : Word) <<< 63)
  { cls := fieldN a0 0 2, a0 := a0, a1 := s.cmarg1, a2 := s.cmarg2 }

/-- The records of the damaged table entries that a release of storage reads, one each (22 R383, 10 R216). -/
def noteRelease (s : State) (c : Nat) : State :=
  let g := stagedGrant s
  match (getCtx s c).filter (fun x => s.lock && !(g.cls == 2 && !anyBit s.faccept 5 1) && !grantBad s g g.a0 && x.grants.contains g) with
  | some x => (tableRoots x g.cls).foldl (fun s a => (damageFrom s g.cls a.1 3 a.2).foldl (fun s p => tableRecord s a.1 p) s) s
  | none => s

def allocStorage (s : State) (c : Nat) (x : Ctx) : CmResult :=
  let g := stagedGrant s
  if g.cls = 2 ∧ !anyBit s.faccept 5 1 then .error 0x0B
  else if grantBad s g g.a0 then .error 0x03
  else if anyBit s.cmarg0 63 1 then
    if !x.grants.contains g ∨ grantMapped s x g then .error 0x06
    else .ok (setCtx (clearGrant s g) c { x with grants := x.grants.erase g }, 0)
  else if grantConflicts s c g then .error 0x06
  else .ok (setCtx s c { x with grants := x.grants ++ [g] }, 0)

/-- ALLOC with RELEASE = 0. -/
def execAlloc (c : Nat) (s : State) : Out :=
  if anyBit s.cmarg0 63 1 then .refused (.notEnabled "ALLOC")
  else mailboxStep "ALLOC" (isCommand 4 c) (fun s => onContext s c (allocStorage s c)) s

/-- ALLOC with RELEASE = 1. -/
def execAllocRelease (c : Nat) (s : State) : Out :=
  if !anyBit s.cmarg0 63 1 then .refused (.notEnabled "ALLOC_RELEASE")
  else mailboxStep "ALLOC_RELEASE" (isCommand 4 c) (fun s => let t := noteRelease s c; onContext t c (allocStorage t c)) s

/-! ## TAREA (R363) -/

/-- Whether a new area of a context conflicts with a grant, another area or reserved space. -/
def areaConflicts (s : State) (c : Nat) (a : TableArea) : Bool :=
  decide (Config.reservedPos < a.first + a.count) ||
  s.ctxs.any (fun p => p.2.grants.any (fun g => grantMeetsArea g a) ||
    p.2.areas.any (fun b => !(p.1 == c && b.die == a.die) && b.die == a.die && b.site == a.site && meets a.first a.count b.first b.count))

def placeArea (s : State) (c : Nat) (x : Ctx) : CmResult :=
  let w := s.cmarg0
  let a : TableArea := { die := fieldN w 0 2, site := fieldN w 2 10, first := fieldN w 12 17, count := fieldN w 29 17 }
  if anyBit w 46 18 ∨ s.cmarg1 ≠ 0 ∨ s.cmarg2 ≠ 0 ∨ a.count = 0 ∨ 65536 < a.count then .error 0x03
  else if x.areas.any (fun b => b.die == a.die && b.installed) then .error 0x04
  else if areaConflicts s c a then .error 0x06
  else
    let old := x.areas.filter (fun b => b.die == a.die)
    .ok (setCtx (clearArea (old.foldl clearArea s) a) c { x with areas := x.areas.filter (fun b => b.die != a.die) ++ [a] }, 0)

/-- TAREA. -/
def execTarea (c : Nat) (s : State) : Out :=
  mailboxStep "TAREA" (isCommand 5 c) (fun s => onContext s c (placeArea s c)) s

/-! ## INSTALL (R365) -/

/-- What a refused INSTALL has met: the reply of a die in reset (21 R377, log entry 107), or a damaged entry above its own (10 R216). -/
def installReply (s : State) (x : Ctx) : State :=
  let fa := fieldN s.cmarg0 0 56
  if 2 < faClass fa ∨ linkFailed s hub fa then s
  else if dieStopped s (homeDie fa) then installStray s fa
  else if entryOk s x fa (fieldN s.cmarg2 0 2) s.cmarg1 then
    match installPlace s x fa (fieldN s.cmarg2 0 2) with
    | .error d => installDamage s fa d
    | .ok _ => s
  else s

/-- INSTALL, with the atomics that the old entry has translated and that it waits for (10 R218). -/
def installNow (s : State) (c : Nat) (x : Ctx) : Except Nat (State × List (Nat × Nat)) :=
  let fa := fieldN s.cmarg0 0 56
  let level := fieldN s.cmarg2 0 2
  let e := s.cmarg1
  if anyBit s.cmarg0 56 8 ∨ anyBit s.cmarg2 2 62 ∨ 2 < faClass fa ∨ fa % 65536 ≠ 0 then .error 0x03
  else if linkFailed s hub fa ∨ dieStopped s (homeDie fa) then .error 0x08
  else if !entryOk s x fa level e then .error 0x08
  else match installPlace s x fa level with
    | .error _ => .error 0x08
    | .ok p => .ok (passLinks (installEntry s c fa p level e) (hub / 128) (targetDie fa), (owedOn s c fa (2 ^ levelShift level)).filter (fun o => owes s [o]))

/-- INSTALL as the mailbox carries it out: done at once, or BUSY until the accesses it waits for have performed. -/
def startInstall (s : State) (c : Nat) : State :=
  if !s.lock then cmDone s 0x01 0
  else match getCtx s c with
    | none => cmDone s 0x07 0
    | some x => match installNow s c x with
      | .error e => cmDone (if e = 0x08 then installReply s x else s) e 0
      | .ok (t, []) => cmDone t 0 0
      | .ok (t, l) => { t with cmInstall := some (c, l), cmstat := 1 }

/-- INSTALL: its effect, and, where accesses translated by the old entry are still to perform, its end in a second step (10 R218). -/
def execInstall (c : Nat) (s : State) : Out :=
  match s.cmInstall.filter (fun w => w.1 == c) with
  | some w => if owes s w.2 then .refused (.notEnabled "INSTALL") else .next (cmDone { s with cmInstall := none } 0 0)
  | none => mailboxStep "INSTALL" (isCommand 6 c) (fun s => startInstall s c) s

/-! ## IMAGE (R366, R369, R371) -/

/-- The pieces of `n` bytes from a fabric address on, page by page. -/
def longPieces : Nat → Nat → Nat → List (Nat × Nat)
  | 0, _, _ => []
  | fuel + 1, fa, n => if n = 0 then [] else let k := pageSpan fa n; (fa, k) :: longPieces fuel (fa + k) (n - k)

def longReads (fa n : Nat) : List (Nat × Nat) := longPieces (n / 65536 + 2) fa n

/-- Pieces read in order: the bytes, a wait, or an error. -/
def readPiecesOf (s : State) (c : Nat) : List (Nat × Nat) → CoreGot
  | [] => .bytes []
  | (fa, k) :: r => match coreRead s mailReader c fa k with
    | .bytes l => (match readPiecesOf s c r with
      | .bytes m => .bytes (l ++ m)
      | g => g)
    | g => g

/-- `n` bytes from a fabric address on. -/
def readLong (s : State) (c fa n : Nat) : CoreGot := readPiecesOf s c (longReads fa n)

/-- The bytes of a read for an image: false is an error, true a wait. -/
def gotBytes : CoreGot → Except Bool (List Byte)
  | .bytes l => .ok l
  | .waits => .error true
  | .failed => .error false

/-- What an image needs that a field of its descriptor gives, or the error. -/
def orBad {α : Type} : Option α → Except Bool α
  | some x => .ok x
  | none => .error false

/-- Every item of a list, the first error deciding. -/
def eachOf {α β : Type} (f : α → Except Bool β) : List α → Except Bool (List β)
  | [] => .ok []
  | x :: r => match f x with
    | .ok y => (eachOf f r).map (fun l => y :: l)
    | .error e => .error e

/-- A field of a descriptor. -/
def dsc (l : List Byte) (off n : Nat) : Nat := leNat ((l.drop off).take n)

/-- The fields of a descriptor before its lists (R369): whether any breaks its range. -/
def descriptorBad (l : List Byte) : Bool :=
  let w0 := dsc l 0 8
  let w1 := dsc l 8 8
  let base := w1 % 2 ^ 20
  let size := w1 / 2 ^ 20 % 2 ^ 21
  w0 / 2 ^ 11 % 2 ^ 5 != 0 || w0 / 2 ^ 28 != 0 || base % 64 != 0 || size % 64 != 0 || size == 0 || decide (0x100000 < base + size) ||
    w1 / 2 ^ 41 != 0 || !(List.range 16).all (fun i => regValid (BitVec.ofNat 32 (dsc l (0x10 + 4 * i) 4))) ||
    !(List.range 32).all (fun i => regValid (BitVec.ofNat 32 (dsc l (0x50 + 4 * i) 4))) || decide (1023 < dsc l 0x110 8) ||
    decide (2 ^ 56 ≤ dsc l 0x118 8) || decide (256 < dsc l 0x120 8) || dsc l 0x128 8 % 8 != 0 || decide (2 ^ 56 ≤ dsc l 0x128 8) ||
    !(List.range 32).all (fun e => dsc l (0x140 + 2 * e) 2 / 2 ^ 8 % 2 ^ 7 == 0)

/-- A segment entry: none where its reserved bits are set or, valid, it breaks a range; some none where VALID = 0. -/
def readSegment (k lo hi : Nat) : Option (Option (Nat × Nat × Nat)) :=
  let load := lo % 2 ^ 11
  let len := lo / 2 ^ 11 % 2 ^ 11 + 1
  let src := hi % 2 ^ 56
  if lo / 2 ^ 23 ≠ 0 ∨ 2 ^ 56 ≤ hi then none
  else if lo / 2 ^ 22 % 2 = 0 then some none
  else if src % 32 ≠ 0 ∨ 2048 < load + len ∨ (k ≠ 0 ∧ 512 < len) then none
  else some (some (load, len, src))

/-- A .data entry with its bytes read: an error where a field breaks its range or the source cannot be read. -/
def readData (s : State) (c base size w fa : Nat) : Except Bool DataEntry :=
  let off := w % 2 ^ 28
  let sp := w / 2 ^ 28 % 4
  let n := w / 2 ^ 30 % 2 ^ 20
  let ok : Bool := match sp with
    | 0 => decide (base ≤ off) && decide (off + n ≤ base + size)
    | 1 => decide (off + n ≤ 0x40000)
    | 2 => decide (off + n ≤ 0xC000000)
    | _ => false
  if !ok ∨ n = 0 ∨ w / 2 ^ 50 ≠ 0 ∨ 2 ^ 56 ≤ fa then .error false
  else (gotBytes (readLong s c fa n)).map (fun l => { space := sp, offset := off, bytes := l })

/-- The bytes of a valid segment, to be kept. -/
def readCode (s : State) (c : Nat) : Option (Nat × Nat × Nat) → Except Bool (List Byte)
  | some e => gotBytes (readLong s c e.2.2 (32 * e.2.1))
  | none => .ok []

/-- Descriptor, .data, steps, routine table and segments as an image (R366, R369, R371); false is a refusal, true a read that waits. -/
def readImage (s : State) (c handle : Nat) (l : List Byte) : Except Bool Image := do
  if descriptorBad l then .error false
  let base := dsc l 8 8 % 2 ^ 20
  let size := dsc l 8 8 / 2 ^ 20
  let nd := dsc l 0x110 8
  let dl ← gotBytes (readLong s c (dsc l 0x118 8) (16 * nd))
  let data ← eachOf (fun i => readData s c base size (dsc dl (16 * i) 8) (dsc dl (16 * i + 8) 8)) (List.range nd)
  let sl ← gotBytes (readLong s c (dsc l 0x128 8) (8 * dsc l 0x120 8))
  let segs ← eachOf (fun k => orBad (readSegment k (dsc l (0x200 + 16 * k) 8) (dsc l (0x208 + 16 * k) 8))) (List.range 64)
  if !anyBit s.faccept 0 1 ∧ (segs.drop 1).any (fun e => e.isSome) then .error false
  let s0 ← orBad segs.head?.join
  let code ← readCode s c (some s0)
  let overlays ← eachOf (readCode s c) (segs.drop 1)
  return { handle := handle, entry := BitVec.ofNat 11 (dsc l 0 8),
           tvec := BitVec.ofNat 64 (dsc l 0 8 / 2 ^ 16 % 2 ^ 11 + 2 ^ 15 * (dsc l 0 8 / 2 ^ 27 % 2)),
           winBase := BitVec.ofNat 20 base, winSize := BitVec.ofNat 21 size,
           zones := (List.range 16).map (fun i => BitVec.ofNat 32 (dsc l (0x10 + 4 * i) 4)),
           banks := (List.range 32).map (fun i => BitVec.ofNat 32 (dsc l (0x50 + 4 * i) 4)),
           flags := (List.range 32).map (fun i => BitVec.ofNat 16 (dsc l (0xD0 + 2 * i) 2)), data := data,
           steps := (List.range (dsc l 0x120 8)).map (fun i => BitVec.ofNat 64 (dsc sl (8 * i) 8)),
           routines := (List.range 32).map (fun e =>
             let w := dsc l (0x140 + 2 * e) 2
             if w / 2 ^ 15 = 1 then some (BitVec.ofNat 8 w) else none),
           segs := segs, code := code, overlays := overlays }

/-- The image at a descriptor's address. -/
def imageAt (s : State) (c h fa : Nat) : Except Bool Image :=
  match gotBytes (readLong s c fa 1536) with
  | .ok l => readImage s c h l
  | .error e => .error e

/-- The reads that IMAGE makes, as far as what it has read names them. -/
def imageReads (s : State) (c fa : Nat) : List (Nat × Nat) :=
  longReads fa 1536 ++
  (match readLong s c fa 1536 with
   | .bytes l =>
     if descriptorBad l then []
     else
       let nd := dsc l 0x110 8
       longReads (dsc l 0x118 8) (16 * nd) ++
       (match readLong s c (dsc l 0x118 8) (16 * nd) with
        | .bytes dl => (List.range nd).flatMap (fun i => longReads (dsc dl (16 * i + 8) 8 % 2 ^ 56) (dsc dl (16 * i) 8 / 2 ^ 30 % 2 ^ 20))
        | _ => []) ++
       longReads (dsc l 0x128 8) (8 * dsc l 0x120 8) ++
       ((List.range 64).filterMap (fun k => (readSegment k (dsc l (0x200 + 16 * k) 8) (dsc l (0x208 + 16 * k) 8)).join)).flatMap
         (fun e => longReads e.2.2 (32 * e.2.1))
   | _ => [])

/-- IMAGE (R366); `w` is the command, which stands while a read that it takes waits at its page (10 R217). -/
def registerImage (s : State) (w : Word) (c : Nat) (x : Ctx) : State :=
  let fa := s.cmarg0.toNat
  let h := fieldN s.cmarg1 0 16
  if anyBit s.cmarg1 17 47 ∨ s.cmarg2 ≠ 0 ∨ 2 ^ 56 ≤ fa ∨ fa % 64 ≠ 0 then cmDone s 0x03 0
  else if x.images.any (fun i => i.handle == h) then cmDone s 0x06 0
  else
    let t := noteReads s mailReader c (imageReads s c fa)
    match imageAt s c h fa with
    | .ok i => cmDone (modCtx t c (fun x => { x with images := x.images ++ [i] })) 0 0
    | .error false => cmDone t 0x09 0
    | .error true => { t with cmcmd := some (stands w) }

/-- The launches whose packets are being consumed. -/
def consumedLaunches (s : State) : List Launch :=
  s.queues.filterMap (fun p => match p.2.consuming with
    | some { act := .launch l, .. } => some l
    | _ => none)

/-- UNREG (R366): ARG0 is not read; a handle that is not registered is out of range. -/
def unregisterImage (s : State) (c : Nat) (x : Ctx) : CmResult :=
  let h := fieldN s.cmarg1 0 16
  if anyBit s.cmarg1 17 47 ∨ s.cmarg2 ≠ 0 ∨ !x.images.any (fun i => i.handle == h) then .error 0x03
  else if (s.launches ++ consumedLaunches s).any (fun l => l.ctx == c && l.handle == h) then .error 0x04
  else .ok (setCtx s c { x with images := x.images.filter (fun i => i.handle != h) }, 0)

/-- IMAGE with UNREG = 0. -/
def execImage (c : Nat) (s : State) : Out :=
  if anyBit s.cmarg1 16 1 then .refused (.notEnabled "IMAGE")
  else mailboxCommand "IMAGE" (isCommand 7 c) (fun w s =>
    if !s.lock then cmDone s 0x01 0
    else match getCtx s c with
      | some x => registerImage s w c x
      | none => cmDone s 0x07 0) s

/-- IMAGE with UNREG = 1. -/
def execImageUnreg (c : Nat) (s : State) : Out :=
  if !anyBit s.cmarg1 16 1 then .refused (.notEnabled "IMAGE_UNREG")
  else mailboxStep "IMAGE_UNREG" (isCommand 7 c) (fun s => onContext s c (unregisterImage s c)) s

/-! ## PAGER (R367) -/

def registerPager (s : State) (c : Nat) (x : Ctx) : CmResult :=
  let first := fieldN s.cmarg0 0 56
  let pages := fieldN s.cmarg1 0 32
  let w := s.cmarg2
  let m := fieldN w 29 4
  let last := first + 65536 * pages - 1
  let r : Pager := { first := first, pages := pages, seq := fieldN w 0 9, ring := fieldN w 9 20, slots := 2 ^ (m + 4), flag := fieldN w 33 5 }
  if anyBit s.cmarg0 56 8 ∨ anyBit s.cmarg1 32 32 ∨ anyBit w 38 26 ∨ 8 < m ∨ r.ring % 32 ≠ 0 ∨ pages = 0 ∨ first % 65536 ≠ 0 then .error 0x03
  else if !anyBit s.faccept 6 1 then .error 0x0B
  else if 2 < faClass first ∨ first / 2 ^ 45 ≠ last / 2 ^ 45 ∨ homeDie first ≠ homeDie last ∨ !x.seqs.contains r.seq then .error 0x0A
  else if x.pagers.any (fun p => meets first (65536 * pages) p.first (65536 * p.pages)) ∨ 16 ≤ x.pagers.length ∨
      0x100000 < r.ring + ringSpan r then .error 0x0A
  else .ok (setCtx s c { x with pagers := x.pagers ++ [r] }, x.pagers.length)

/-- PAGER. -/
def execPager (c : Nat) (s : State) : Out :=
  mailboxStep "PAGER" (isCommand 8 c) (fun s => onContext s c (registerPager s c)) s

/-! ## The mailbox slot -/

/-- The command that the mailbox holds, carried out (R360, R361). -/
def carryOut (s : State) (w : Word) : Out :=
  let c := fieldN w 8 4
  match fieldN w 0 8 with
  | 1 => execCreate s
  | 2 => mailboxCommand "FREE" (isCommand 2 c) (fun w s => startFree s w c) s
  | 3 => if anyBit s.cmarg0 19 1 then execReserveRelease c s else execReserve c s
  | 4 => if anyBit s.cmarg0 63 1 then execAllocRelease c s else execAlloc c s
  | 5 => execTarea c s
  | 6 => execInstall c s
  | 7 => if anyBit s.cmarg1 16 1 then execImageUnreg c s else execImage c s
  | 8 => execPager c s
  | _ => .next (cmDone { s with cmcmd := none } (if s.lock then 0x03 else 0x01) 0)

/-- The mailbox slot of the front core's frame (R348, R360): the model takes slot 63 (log entry 27). A command that stands over
is taken up again in the next frame's slot; none is before the front core's firmware has been measured (R372). -/
def mailboxDue (s : State) : Option Word := if s.clock % 1024 = 1008 ∧ frontRuns s then s.cmcmd.filter (fun w => !anyBit w 12 1) else none

end Sys2Proof.Machine
end

