-- ==== Sys2Proof/Machine/Vector.lean ====
section
/-! DEFINITION. The vector slot (07 R149 to R171): one meaning per instruction over the shared operations of
VectorOps.lean. Formats VR and VF round by sr.vmode as it stood at issue (R147). -/

namespace Sys2Proof.Machine

/-- sr.vmode.RM at the start of the bundle. -/
def vmodeOf (u : Bundle) : Mode := u.start.sr.vmode

/-- The record fields of a simple operation (bound 6, δ 2). -/
def simple (op : BitVec 7) (t : BitVec 4) (u : Bundle) : VInfo :=
  { op := op, ty := t, st := t, rm := vmodeOf u, bound := 6, delta := 2 }

/-- VADD (07 R150). -/
def execVadd (d a b : BitVec 6) (m : BitVec 3) (t : BitVec 4) (s : State) : Out :=
  runSlot 4 (.vadd d a b m t) (fun s u => vec2 (simple 0x01 t u) (addCode t.toNat (vmodeOf u)) d a b m s u) s

/-- VSUB (07 R150). -/
def execVsub (d a b : BitVec 6) (m : BitVec 3) (t : BitVec 4) (s : State) : Out :=
  runSlot 4 (.vsub d a b m t) (fun s u => vec2 (simple 0x02 t u) (subCode t.toNat (vmodeOf u)) d a b m s u) s

/-- VMUL (07 R150). -/
def execVmul (d a b : BitVec 6) (m : BitVec 3) (t : BitVec 4) (s : State) : Out :=
  runSlot 4 (.vmul d a b m t) (fun s u => vec2 (simple 0x03 t u) (mulCode t.toNat (vmodeOf u)) d a b m s u) s

/-- VFMA (07 R150): d is the addend and the destination. -/
def execVfma (d a b : BitVec 6) (m : BitVec 3) (t : BitVec 4) (s : State) : Out :=
  runSlot 4 (.vfma d a b m t) (fun s u =>
    vec3 { simple 0x04 t u with bound := 8 } (fmaCode t.toNat (vmodeOf u) false) d a b m s u) s

/-- VFMS (07 R150): d is the addend and the destination. -/
def execVfms (d a b : BitVec 6) (m : BitVec 3) (t : BitVec 4) (s : State) : Out :=
  runSlot 4 (.vfms d a b m t) (fun s u =>
    vec3 { simple 0x05 t u with bound := 8 } (fmaCode t.toNat (vmodeOf u) true) d a b m s u) s

/-- VMIN (07 R151). -/
def execVmin (d a b : BitVec 6) (m : BitVec 3) (t : BitVec 4) (s : State) : Out :=
  runSlot 4 (.vmin d a b m t) (fun s u => vec2 (simple 0x06 t u) (minmaxCode t.toNat false) d a b m s u) s

/-- VMAX (07 R151). -/
def execVmax (d a b : BitVec 6) (m : BitVec 3) (t : BitVec 4) (s : State) : Out :=
  runSlot 4 (.vmax d a b m t) (fun s u => vec2 (simple 0x07 t u) (minmaxCode t.toNat true) d a b m s u) s

/-- VABS (07 R152). -/
def execVabs (d a : BitVec 6) (m : BitVec 3) (t : BitVec 4) (s : State) : Out :=
  runSlot 4 (.vabs d a m t) (fun s u => vec1 (simple 0x08 t u) (absCode t.toNat) d a m s u) s

/-- VNEG (07 R152). -/
def execVneg (d a : BitVec 6) (m : BitVec 3) (t : BitVec 4) (s : State) : Out :=
  runSlot 4 (.vneg d a m t) (fun s u => vec1 (simple 0x09 t u) (negCode t.toNat) d a m s u) s

/-- VDIV (07 R150, 06 R136). -/
def execVdiv (d a b : BitVec 6) (m : BitVec 3) (t : BitVec 4) (s : State) : Out :=
  runSlot 4 (.vdiv d a b m t) (fun s u => vec2 ({ simple 0x0A t u with bound := 20, delta := 4 }) (divCode t.toNat (vmodeOf u)) d a b m s u) s

/-- VSQRT (07 R152, 06 R136). -/
def execVsqrt (d a : BitVec 6) (r m : BitVec 3) (t : BitVec 4) (s : State) : Out :=
  runSlot 4 (.vsqrt d a r m t) (fun s u =>
    vec1 { simple 0x0B t u with rm := resolveRm u r, bound := 20, delta := 4 }
      (specialCode .sqrt t.toNat (resolveRm u r)) d a m s u) s

/-- VRSQ (07 R152, 06 R136). -/
def execVrsq (d a : BitVec 6) (r m : BitVec 3) (t : BitVec 4) (s : State) : Out :=
  runSlot 4 (.vrsq d a r m t) (fun s u =>
    vec1 { simple 0x0C t u with rm := resolveRm u r, bound := 20, delta := 4 }
      (specialCode .rsq t.toNat (resolveRm u r)) d a m s u) s

/-- VRCP (07 R152, 06 R136). -/
def execVrcp (d a : BitVec 6) (r m : BitVec 3) (t : BitVec 4) (s : State) : Out :=
  runSlot 4 (.vrcp d a r m t) (fun s u =>
    vec1 { simple 0x0D t u with rm := resolveRm u r, bound := 20, delta := 4 }
      (specialCode .rcp t.toNat (resolveRm u r)) d a m s u) s

/-- VEXP2 (07 R152, 06 R136). -/
def execVexp2 (d a : BitVec 6) (r m : BitVec 3) (t : BitVec 4) (s : State) : Out :=
  runSlot 4 (.vexp2 d a r m t) (fun s u =>
    vec1 { simple 0x0E t u with rm := resolveRm u r, bound := 20, delta := 4 }
      (specialCode .exp2 t.toNat (resolveRm u r)) d a m s u) s

/-- VLOG2 (07 R152, 06 R136). -/
def execVlog2 (d a : BitVec 6) (r m : BitVec 3) (t : BitVec 4) (s : State) : Out :=
  runSlot 4 (.vlog2 d a r m t) (fun s u =>
    vec1 { simple 0x0F t u with rm := resolveRm u r, bound := 20, delta := 4 }
      (specialCode .log2 t.toNat (resolveRm u r)) d a m s u) s

/-- VTANH (07 R152, 06 R136). -/
def execVtanh (d a : BitVec 6) (r m : BitVec 3) (t : BitVec 4) (s : State) : Out :=
  runSlot 4 (.vtanh d a r m t) (fun s u =>
    vec1 { simple 0x10 t u with rm := resolveRm u r, bound := 20, delta := 4 }
      (specialCode .tanh t.toNat (resolveRm u r)) d a m s u) s

/-- VSIGM (07 R152, 06 R136). -/
def execVsigm (d a : BitVec 6) (r m : BitVec 3) (t : BitVec 4) (s : State) : Out :=
  runSlot 4 (.vsigm d a r m t) (fun s u =>
    vec1 { simple 0x11 t u with rm := resolveRm u r, bound := 20, delta := 4 }
      (specialCode .sigm t.toNat (resolveRm u r)) d a m s u) s

/-- VIADD (07 R153). -/
def execViadd (d a b : BitVec 6) (m : BitVec 3) (t : BitVec 4) (s : State) : Out :=
  runSlot 4 (.viadd d a b m t) (fun s u => vec2 (simple 0x18 t u) (intCode .add t.toNat) d a b m s u) s

/-- VISUB (07 R153). -/
def execVisub (d a b : BitVec 6) (m : BitVec 3) (t : BitVec 4) (s : State) : Out :=
  runSlot 4 (.visub d a b m t) (fun s u => vec2 (simple 0x19 t u) (intCode .sub t.toNat) d a b m s u) s

/-- VIMUL (07 R153). -/
def execVimul (d a b : BitVec 6) (m : BitVec 3) (t : BitVec 4) (s : State) : Out :=
  runSlot 4 (.vimul d a b m t) (fun s u => vec2 (simple 0x1A t u) (intCode .mul t.toNat) d a b m s u) s

/-- VIMULH (07 R153). -/
def execVimulh (d a b : BitVec 6) (m : BitVec 3) (t : BitVec 4) (s : State) : Out :=
  runSlot 4 (.vimulh d a b m t) (fun s u => vec2 (simple 0x1B t u) (intCode .mulh t.toNat) d a b m s u) s

/-- VIMIN (07 R153). -/
def execVimin (d a b : BitVec 6) (m : BitVec 3) (t : BitVec 4) (s : State) : Out :=
  runSlot 4 (.vimin d a b m t) (fun s u => vec2 (simple 0x1C t u) (intCode .min t.toNat) d a b m s u) s

/-- VIMAX (07 R153). -/
def execVimax (d a b : BitVec 6) (m : BitVec 3) (t : BitVec 4) (s : State) : Out :=
  runSlot 4 (.vimax d a b m t) (fun s u => vec2 (simple 0x1D t u) (intCode .max t.toNat) d a b m s u) s

/-- VAND (07 R153). -/
def execVand (d a b : BitVec 6) (m : BitVec 3) (t : BitVec 4) (s : State) : Out :=
  runSlot 4 (.vand d a b m t) (fun s u => vec2 (simple 0x1E t u) (intCode .and t.toNat) d a b m s u) s

/-- VOR (07 R153). -/
def execVor (d a b : BitVec 6) (m : BitVec 3) (t : BitVec 4) (s : State) : Out :=
  runSlot 4 (.vor d a b m t) (fun s u => vec2 (simple 0x1F t u) (intCode .or t.toNat) d a b m s u) s

/-- VXOR (07 R153). -/
def execVxor (d a b : BitVec 6) (m : BitVec 3) (t : BitVec 4) (s : State) : Out :=
  runSlot 4 (.vxor d a b m t) (fun s u => vec2 (simple 0x20 t u) (intCode .xor t.toNat) d a b m s u) s

/-- VSHL (07 R153). -/
def execVshl (d a b : BitVec 6) (m : BitVec 3) (t : BitVec 4) (s : State) : Out :=
  runSlot 4 (.vshl d a b m t) (fun s u => vec2 (simple 0x21 t u) (intCode .shl t.toNat) d a b m s u) s

/-- VSHR (07 R153). -/
def execVshr (d a b : BitVec 6) (m : BitVec 3) (t : BitVec 4) (s : State) : Out :=
  runSlot 4 (.vshr d a b m t) (fun s u => vec2 (simple 0x22 t u) (intCode .shr t.toNat) d a b m s u) s

/-- VSAR (07 R153). -/
def execVsar (d a b : BitVec 6) (m : BitVec 3) (t : BitVec 4) (s : State) : Out :=
  runSlot 4 (.vsar d a b m t) (fun s u => vec2 (simple 0x23 t u) (intCode .sar t.toNat) d a b m s u) s

/-- VWADD and VWMUL (R154): double-width exact results; .i32 and .n32 give 128 of them. -/
def widenOp (op : BitVec 7) (mul : Bool) (d a b : BitVec 6) (m : BitVec 3) (t : BitVec 4) (s : State) (u : Bundle) : Bundle :=
  let ty := t.toNat
  let i : VInfo := { simple op t u with st := BitVec.ofNat 4 (widerTy ty) }
  let x := vread s u i.delta d 0 a
  let y := vread s u i.delta d 1 b
  elementwise s u i (widerTy ty) (elemCount (widerTy ty)) d [a, b] false [x, y] m
    (zip2 (widenCode mul ty) (elems ty x) (elems ty y))

/-- VWADD (07 R154). -/
def execVwadd (d a b : BitVec 6) (m : BitVec 3) (t : BitVec 4) (s : State) : Out :=
  runSlot 4 (.vwadd d a b m t) (widenOp 0x24 false d a b m t) s

/-- VWMUL (07 R154). -/
def execVwmul (d a b : BitVec 6) (m : BitVec 3) (t : BitVec 4) (s : State) : Out :=
  runSlot 4 (.vwmul d a b m t) (widenOp 0x25 true d a b m t) s

/-- VNARW (07 R155). -/
def execVnarw (d a b : BitVec 6) (m : BitVec 3) (t : BitVec 4) (s : State) : Out :=
  runSlot 4 (.vnarw d a b m t) (fun s u =>
    let ty := t.toNat
    let i := simple 0x26 t u
    let x := vread s u i.delta d 0 a
    let y := vread s u i.delta d 1 b
    elementwise s u i ty (elemCount (narrowSrc ty)) d [a, b] false [x, y] m
      (zip2 (narrowCode ty (vmodeOf u)) (elems (narrowSrc ty) x) (elems (narrowSrc ty) y))) s

/-- A result in mask register `r`: the bits of `lanes` take those of `v` (07 R156, R158). -/
def maskResult (u : Bundle) (r : Nat) (lanes v : Mask) (fl : BitVec 6) : Bundle :=
  mapWork u (fun q => noteMask (addPending q { dest := .mask r, lanes := lanes, mvec := v, left := 6, flags := fl }) r 6 lanes)

/-- VCMP (07 R156): every lane bit of an enabled element takes its truth value. -/
def execVcmp (c d : BitVec 3) (a b : BitVec 6) (m : BitVec 3) (t : BitVec 4) (s : State) : Out :=
  runSlot 4 (.vcmp c d a b m t) (fun s u =>
    let ty := t.toNat
    let g := lanesPer ty
    let lanes := enabledLanes g (elemCount ty) (predicate s.free u.start m)
    let r := zip2 (cmpCode c.toNat ty) (elems ty (vread s u 0 0 0 a)) (elems ty (vread s u 0 0 1 b))
    let v := maskOf (fun i => (at' r (i / g) (false, 0)).1)
    maskResult u d.toNat lanes v (joinFlags lanes (r.flatMap (fun x => List.replicate g x.2)))) s

/-- VSEL (07 R157): writes every element, bits unchanged. -/
def execVsel (d a b : BitVec 6) (m : BitVec 3) (t : BitVec 4) (s : State) : Out :=
  runSlot 4 (.vsel d a b m t) (fun s u =>
    let g := lanesPer t.toNat
    let k := maskRead s.free u.start 3 m.toNat
    let v := zipLanes (fun i x y => if k.getLsbD (i / g * g) then x else y) (vread s u 0 d 0 a) (vread s u 0 d 1 b)
    let v : VReg := if g = 1 then v.map (fun (x : Lane) => laneOf t.toNat x.toNat) else v
    vectorResult s u { simple 0x29 t u with delta := 0 } d [] false [] allLanes v []) s

/-- VMOP (07 R158): each bit by the truth table; no predicate. -/
def execVmop (d a b : BitVec 3) (f : BitVec 4) (s : State) : Out :=
  runSlot 4 (.vmop d a b f) (fun s u =>
    let x := maskRead s.free u.start 0 a.toNat
    let y := maskRead s.free u.start 1 b.toNat
    let tt (i : Nat) (z : Mask) : Mask := if f.getLsbD i then z else 0
    let v := tt 0 (~~~x &&& ~~~y) ||| tt 1 (~~~x &&& y) ||| tt 2 (x &&& ~~~y) ||| tt 3 (x &&& y)
    maskResult u d.toNat allLanes v 0) s

/-- VCVT (07 R159, R146). -/
def execVcvt (d a : BitVec 6) (k r m : BitVec 3) (t : BitVec 4) (s : State) : Out :=
  runSlot 4 (.vcvt d a k r m t) (fun s u =>
    let src := styTy k
    let ty := t.toNat
    let x := vread s u 0 d 0 a
    elementwise s u { simple 0x2C t u with rm := resolveRm u r, delta := 0 } ty (Nat.min (elemCount src) (elemCount ty)) d
      [a] false [x] m ((elems src x).map (cvtCode src ty (resolveRm u r)))) s

/-- VSCALE (07 R160): the scale is bits [23:0] of the element's lane of b. -/
def execVscale (d a b : BitVec 6) (m : BitVec 3) (t : BitVec 4) (s : State) : Out :=
  runSlot 4 (.vscale d a b m t) (fun s u =>
    let ty := t.toNat
    let i := simple 0x2D t u
    let x := vread s u i.delta d 0 a
    let y := vread s u i.delta d 1 b
    elementwise s u i ty 256 d [a, b] false [x, y] m
      (zip2 (fun p q => scaleCode ty (vmodeOf u) p (BitVec.ofNat 24 q)) (elems ty x) (elems 7 y))) s

/-- The string of R161: the first 32 lanes as one number. -/
def laneString (v : VReg) : Nat := ((v ++ List.replicate 32 0).take 32).foldr (fun (x : Lane) a => x.toNat + 2 ^ 32 * a) 0

def packString (w : Nat) (old : Nat) (p : Mask) (codes : List (Nat × BitVec 6)) : Nat → Nat → Nat
  | 0, _ => 0
  | n + 1, k =>
    let c := if p.getLsbD k then (at' codes k (0, 0)).1 else old / 2 ^ (k * w) % 2 ^ w
    c * 2 ^ (k * w) + packString w old p codes n (k + 1)

/-- The flags of the enabled codes, each under the lane that holds its lowest bit. -/
def packFlags (w n : Nat) (p : Mask) (codes : List (Nat × BitVec 6)) (lane : Nat) : BitVec 6 :=
  (List.range n).foldl (fun f k => if k * w / 32 = lane && p.getLsbD k then f ||| (at' codes k (0, 0)).2 else f) 0

/-- The lanes of VPACK and their flags: `x` the operand, `p` the enabled codes, `old` what d held (R161). -/
def packLanes (ty : Nat) (f : BitVec 6) (mode : Mode) (p : Mask) (x old : VReg) : VReg × List (BitVec 6) :=
  let codes := (elems ty x).map (packCode f ty mode)
  if anyBit f 4 1 then (codes.map (fun c => BitVec.ofNat 32 c.1), codes.map (·.2))
  else
    let w := (packEl f).w
    let n := 1024 / w
    (splitLanes 32 (packString w (laneString old) p codes n 0), (List.range 32).map (packFlags w n p codes))

/-- VPACK (07 R161): in bit mode the first 32 lanes of d take the string, a disabled code keeping its bits (log entry 78). -/
def execVpack (d a f : BitVec 6) (m : BitVec 3) (t : BitVec 4) (s : State) : Out :=
  runSlot 4 (.vpack d a f m t) (fun s u =>
    let p := predicate s.free u.start m
    let bitMode := !anyBit f 4 1
    let i : VInfo := { simple 0x2E t u with st := 7, fn := f, codes := p }
    let x := vread s u i.delta d 0 a
    let held := at' u.start.z (d.toNat - 48) {}
    let old := if !bitMode then [] else if isStream d then (if held.valid || held.cut != 0 then held.value else []) else vread s u 0 d 2 d
    let keeps := bitMode && isStream d && (List.range (1024 / (packEl f).w)).any (fun k => !p.getLsbD k)
    let r := packLanes t.toNat f (vmodeOf u) p x old
    vectorResult s u i d [a] keeps [x] (if bitMode then maskOf (fun i => decide (i < 32)) else p) r.1 r.2) s

/-- The codes that VUNPK reads: in bit mode those of the string, in lane mode every lane's low bits (R161). -/
def unpackCodes (f : BitVec 6) (x : VReg) : List Nat :=
  let w := (packEl f).w
  if anyBit f 4 1 then mapLanes (fun _ l => l.toNat % 2 ^ w) x
  else (List.range (1024 / w)).map (fun k => laneString x / 2 ^ (k * w) % 2 ^ w)

/-- VUNPK (07 R161): in bit mode elements k < N, in lane mode every lane's low bits; exact. -/
def execVunpk (d a f : BitVec 6) (m : BitVec 3) (t : BitVec 4) (s : State) : Out :=
  runSlot 4 (.vunpk d a f m t) (fun s u =>
    let ty := t.toNat
    let i : VInfo := { simple 0x2F t u with fn := f }
    let x := vread s u i.delta d 0 a
    elementwise s u i ty (if anyBit f 4 1 then 256 else 1024 / (packEl f).w) d [a] false [x] m
      ((unpackCodes f x).map (unpackCode f ty))) s

/-- A permute's effect: elements of a given by their index function, bits unchanged (R162). -/
def permute (op : BitVec 7) (f : List Nat → List Nat → Nat → Nat) (d a b : BitVec 6) (m : BitVec 3) (t : BitVec 4) (s : State)
    (u : Bundle) : Bundle :=
  let ty := t.toNat
  let x := elems ty (vread s u 0 d 0 a)
  let y := elems ty (vread s u 0 d 1 b)
  elementwise s u { simple op t u with bound := 4, delta := 0 } ty (elemCount ty) d [] false [] m
    ((List.range (elemCount ty)).map (fun k => (f x y k, 0)))

/-- VMOV (07 R162). -/
def execVmov (d a : BitVec 6) (m : BitVec 3) (t : BitVec 4) (s : State) : Out :=
  runSlot 4 (.vmov d a m t) (permute 0x30 (fun x _ k => at' x k 0) d a a m t) s

/-- VPERM (07 R162): element j of a, j the first lane of b's element modulo n(ty). -/
def execVperm (d a b : BitVec 6) (m : BitVec 3) (t : BitVec 4) (s : State) : Out :=
  runSlot 4 (.vperm d a b m t) (fun s u =>
    let ty := t.toNat
    let x := elems ty (vread s u 0 d 0 a)
    let y := vread s u 0 d 1 b
    elementwise s u { simple 0x31 t u with bound := 4, delta := 0 } ty (elemCount ty) d [] false [] m
      ((List.range (elemCount ty)).map (fun k => (at' x ((at' y (lanesPer ty * k) 0).toNat % elemCount ty) 0, 0)))) s

/-- VZIP (07 R162). -/
def execVzip (d a b : BitVec 6) (m : BitVec 3) (t : BitVec 4) (s : State) : Out :=
  runSlot 4 (.vzip d a b m t) (permute 0x33 (fun x y k => if k % 2 = 0 then at' x (k / 2) 0 else at' y (k / 2) 0) d a b m t) s

/-- VUZP (07 R162). -/
def execVuzp (d a b : BitVec 6) (m : BitVec 3) (t : BitVec 4) (s : State) : Out :=
  runSlot 4 (.vuzp d a b m t) (permute 0x34 (fun x y k =>
    let h := elemCount t.toNat / 2
    if k < h then at' x (2 * k) 0 else at' y (2 * (k - h)) 0) d a b m t) s

/-- VSLIDE (07 R163): lanes moved up or down, zeros shifted in; no predicate. -/
def execVslide (d a : BitVec 6) (n : BitVec 8) (x : BitVec 1) (s : State) : Out :=
  runSlot 4 (.vslide d a n x) (fun s u =>
    let v := mapLanes (fun _ l => l) (vread s u 0 d 0 a)
    let w := if x = 0 then (List.replicate n.toNat 0 ++ v).take 256 else v.drop n.toNat ++ List.replicate n.toNat 0
    vectorResult s u { op := 0x32, ty := 6, st := 6, bound := 4 } d [] false [] allLanes w []) s

/-- VRED (07 R164, R165): each segment's root written to its first element. -/
def execVred (d a f : BitVec 6) (m : BitVec 3) (t : BitVec 4) (s : State) : Out :=
  runSlot 4 (.vred d a f m t) (fun s u =>
    let ty := t.toNat
    let o := fieldN f 0 3
    let g := lanesPer ty
    let segs := 2 ^ fieldN f 3 3
    let n := elemCount ty / segs
    let p := predicate s.free u.start m
    let l := segmentsOf n segs (contributions ty p (vread s u 0 d 0 a))
    let r := l.map (fun x => redTree o ty (vmodeOf u) 8 x 0)
    let vals := r.flatMap (fun x => (x.1.getD (redIdentity o ty)) :: List.replicate (n - 1) 0)
    let fl := r.foldl (fun k x => k ||| x.2) 0
    let lanes := maskOf (fun i => i / g % n == 0)
    vectorResult s u { op := 0x38, ty := t, st := t, rm := vmodeOf u, fn := f, bound := 12 } d [] false [] lanes
      (unelems ty vals) [fl]) s

/-- VSCAN (07 R164, R166): every element takes the running value of its segment. -/
def execVscan (d a f : BitVec 6) (m : BitVec 3) (t : BitVec 4) (s : State) : Out :=
  runSlot 4 (.vscan d a f m t) (fun s u =>
    let ty := t.toNat
    let o := fieldN f 0 3
    let segs := 2 ^ fieldN f 3 3
    let p := predicate s.free u.start m
    let l := segmentsOf (elemCount ty / segs) segs (contributions ty p (vread s u 0 d 0 a))
    let r := l.map (scanGo o ty (vmodeOf u) none)
    let fl := r.foldl (fun k x => k ||| x.2) 0
    vectorResult s u { op := 0x39, ty := t, st := t, rm := vmodeOf u, fn := f, bound := 14 } d [] false [] allLanes
      (unelems ty (r.flatMap (·.1))) [fl]) s

/-- The pop of a generator at commit (07 R167). -/
def popped (u : Bundle) (g : BitVec 3) : List Int × Bundle :=
  let r := genPop 256 (at' u.start.ag g.toNat {})
  (r.1, mapWork u (fun q => { q with ag := q.ag.set g.toNat r.2 }))

/-- VLD (07 R167 to R171). -/
def execVld (v : BitVec 6) (g m : BitVec 3) (t : BitVec 4) (s : State) : Out :=
  runSlot 4 (.vld v g m t) (fun s u =>
    let r := popped u g
    loadVector s r.2 (at' u.start.ag g.toNat {}) t.toNat v m r.1) s

/-- VST (07 R167 to R171). -/
def execVst (v : BitVec 6) (g m : BitVec 3) (t : BitVec 4) (s : State) : Out :=
  runSlot 4 (.vst v g m t) (fun s u =>
    let r := popped u g
    storeVector s r.2 (at' u.start.ag g.toNat {}) t.toNat v m r.1) s

/-- VLDX (07 R170): addresses from b, no pop. -/
def execVldx (v : BitVec 6) (g : BitVec 3) (b : BitVec 6) (m : BitVec 3) (t : BitVec 4) (s : State) : Out :=
  runSlot 4 (.vldx v g b m t) (fun s u =>
    let w := at' u.start.ag g.toNat {}
    loadVector s u w t.toNat v m (indexedAddrs w (vectorOperand s.free u.start false 1 b))) s

/-- VSTX (07 R170). -/
def execVstx (v : BitVec 6) (g : BitVec 3) (b : BitVec 6) (m : BitVec 3) (t : BitVec 4) (s : State) : Out :=
  runSlot 4 (.vstx v g b m t) (fun s u =>
    let w := at' u.start.ag g.toNat {}
    storeVector s u w t.toNat v m (indexedAddrs w (vectorOperand s.free u.start false 1 b))) s

end Sys2Proof.Machine
end

