-- ==== Sys2Proof/Machine/Replay.lean ====
section
/-! DEFINITION. A stream computed from its record (11 R241): its completed lanes and their flags from OP, TY, RM, FN and the
sources, and the change of a word of the record by the debugger (16 R318). -/

namespace Sys2Proof.Machine

/-! ## The producers of R148 by their opcode -/

/-- The elementwise function of a two-operand producer whose operands and result have its ty. -/
def recordTwo (op ty : Nat) (mode : Mode) : Option (Nat → Nat → Nat × BitVec 6) :=
  match op with
  | 0x01 => some (addCode ty mode)
  | 0x02 => some (subCode ty mode)
  | 0x03 => some (mulCode ty mode)
  | 0x06 => some (minmaxCode ty false)
  | 0x07 => some (minmaxCode ty true)
  | 0x0A => some (divCode ty mode)
  | 0x18 => some (intCode .add ty)
  | 0x19 => some (intCode .sub ty)
  | 0x1A => some (intCode .mul ty)
  | 0x1B => some (intCode .mulh ty)
  | 0x1C => some (intCode .min ty)
  | 0x1D => some (intCode .max ty)
  | 0x1E => some (intCode .and ty)
  | 0x1F => some (intCode .or ty)
  | 0x20 => some (intCode .xor ty)
  | 0x21 => some (intCode .shl ty)
  | 0x22 => some (intCode .shr ty)
  | 0x23 => some (intCode .sar ty)
  | _ => none

/-- The elementwise function of a one-operand producer. -/
def recordOne (op ty : Nat) (mode : Mode) : Option (Nat → Nat × BitVec 6) :=
  match op with
  | 0x08 => some (absCode ty)
  | 0x09 => some (negCode ty)
  | 0x0B => some (specialCode .sqrt ty mode)
  | 0x0C => some (specialCode .rsq ty mode)
  | 0x0D => some (specialCode .rcp ty mode)
  | 0x0E => some (specialCode .exp2 ty mode)
  | 0x0F => some (specialCode .log2 ty mode)
  | 0x10 => some (specialCode .tanh ty mode)
  | 0x11 => some (specialCode .sigm ty mode)
  | _ => none

/-- The lanes and flags of the other producers: VFMA, VFMS, the widening and narrowing forms, VSCALE, VPACK and VUNPK. -/
def recordOther (z : Stream) (a b d : VReg) : VReg × List (BitVec 6) :=
  let ty := z.ty.toNat
  match z.op.toNat with
  | 0x04 => fromResults ty (zip3 (fmaCode ty z.rm false) (elems ty a) (elems ty b) (elems ty d))
  | 0x05 => fromResults ty (zip3 (fmaCode ty z.rm true) (elems ty a) (elems ty b) (elems ty d))
  | 0x24 => fromResults (widerTy ty) (zip2 (widenCode false ty) (elems ty a) (elems ty b))
  | 0x25 => fromResults (widerTy ty) (zip2 (widenCode true ty) (elems ty a) (elems ty b))
  | 0x26 => fromResults ty (zip2 (narrowCode ty z.rm) (elems (narrowSrc ty) a) (elems (narrowSrc ty) b))
  | 0x2D => fromResults ty (zip2 (fun p q => scaleCode ty z.rm p (BitVec.ofNat 24 q)) (elems ty a) (elems 7 b))
  | 0x2E => packLanes ty z.fn z.rm z.codes a d
  | 0x2F => fromResults ty ((unpackCodes z.fn a).map (unpackCode z.fn ty))
  | _ => ([], [])

/-- The lanes of a record's operation on its sources, and their flags. -/
def recordLanes (z : Stream) (a b d : VReg) : VReg × List (BitVec 6) :=
  let ty := z.ty.toNat
  match recordTwo z.op.toNat ty z.rm with
  | some f => fromResults ty (zip2 f (elems ty a) (elems ty b))
  | none => match recordOne z.op.toNat ty z.rm with
    | some f => fromResults ty ((elems ty a).map f)
    | none => recordOther z a b d

/-! ## Completed values (R241) -/

/-- The completed lanes of a stream and their flags, as if no lane were cut: lanes still to come are computed from the record, a source
that is an open stream from that stream's completed value but for the lanes cut before the reader issued, whose fill it captured (R234);
one that names register `k`, the stream's own, was captured from the stream that it replaced there;
the lanes that the source rule left unspecified stand, and a disabled lane is what zk held. -/
def completedFrom (l : List Stream) : Nat → Nat → Stream → VReg × List (BitVec 6)
  | 0, _, z => (z.value, z.laneFlags)
  | fuel + 1, k, z =>
    let src (i : Nat) : VReg :=
      let c := at' z.srcs i 63
      let y := at' l (c.toNat - 48) {}
      if isStream c && c.toNat - 48 != k && y.left != 0 then
        mergeLanes (at' z.preCut i 0) (at' z.captured i []) (completedFrom l fuel (c.toNat - 48) y).1
      else at' z.captured i []
    let r := recordLanes z (src 0) (src 1) (src 2)
    let m := openLanes z &&& z.pred &&& ~~~z.spoilt
    (mergeLanes m r.1 (mergeLanes (z.cut &&& ~~~z.pred) (at' z.captured 2 []) z.value), (List.range 256).map (fun i => if m.getLsbD i then at' r.2 i 0 else at' z.laneFlags i 0))

/-- The bits of an attached VDEC for the values as they are now, where it has not decided and the lane was not cut. -/
def redecide (z : Stream) : Stream :=
  { z with vdec := z.vdec.map (fun d =>
      let m := d.scope &&& ~~~z.decided &&& ~~~z.cut
      { d with bits := (d.bits &&& ~~~m) ||| (decisions d.cc.toNat (streamTy z) (completedLanes z) d.thr &&& m) }) }

/-- Every open stream computed from its record again; a cut lane keeps its fill. -/
def recompute (l : List Stream) : List Stream :=
  l.zipIdx.map (fun (z, k) =>
    if z.valid && z.left != 0 then
      let r := completedFrom l 8 k z
      redecide { z with value := mergeLanes z.cut z.value r.1, laneFlags := r.2 }
    else redecide z)

/-! ## A word of a record changed (16 R318) -/

/-- The stream type of a producer (R223). -/
def recordSt (op ty : Nat) : Nat := if op = 0x24 ∨ op = 0x25 then widerTy ty else if op = 0x2E then 7 else ty

/-- Lanes 2i and 2i + 1 replaced. -/
def setLanes (v : VReg) (i : Nat) (w : Word) : VReg :=
  mapLanes (fun k x => if k = 2 * i then bits w 0 32 else if k = 2 * i + 1 then bits w 32 32 else x) v

/-- A 64-bit part of a mask replaced. -/
def setMaskPart (m : Mask) (i : Nat) (w : Word) : Mask := putBits m (64 * i) w

/-- SA, SB or SD of the stream of register `k`: a stream source names its register (11 R240); what the stream replaced there is captured. -/
def sourceKind (k : Nat) (z : Stream) (i : Nat) : Nat :=
  let c := at' z.srcs i 63
  if isStream c && c.toNat - 48 != k then 8 + (c.toNat - 48) else 0

/-- The source codes after a write of SA, SB and SD: a captured source keeps its code. -/
def setSources (k : Nat) (z : Stream) (w : Word) : List (BitVec 6) :=
  (List.range 3).map (fun i =>
    let a := fieldN w (24 + 4 * i) 4
    let c := at' z.srcs i 63
    if 8 ≤ a then BitVec.ofNat 6 (48 + a - 8) else if isStream c && c.toNat - 48 != k then 63 else c)

/-- The sr.fpstat bits of a record written: of a complete stream they are those due at its flag retirement. -/
def setDueFlags (z : Stream) (f : BitVec 6) : Stream :=
  if z.left = 0 && !z.retired then (if streamFlags z = f then z else { z with laneFlags := [], due := f }) else { z with due := f }

/-- The VDEC of a record, or what it holds where DEC is 0. -/
def recordVdec (z : Stream) : Vdec := z.vdec.getD z.idle

/-- The VDEC's fields changed by a write of the record. -/
def setRecordVdec (z : Stream) (d : Vdec) : Stream := if z.vdec.isSome then { z with vdec := some d } else { z with idle := d }

/-- Bits [63:0] of the record of register `k` written. -/
def setStreamHead (k : Nat) (z : Stream) (w : Word) : Stream :=
  if !anyBit w 20 1 then {}
  else
    let ty := fieldN w 7 4
    let d := { recordVdec z with md := bits w 37 3, cc := bits w 40 3, pe := anyBit w 43 1, flag := bits w 44 5 }
    setDueFlags { z with
      valid := true, op := bits w 0 7, ty := bits w 7 4, st := BitVec.ofNat 4 (recordSt (fieldN w 0 7) ty), rm := bits w 11 3,
      fn := bits w 14 6, srcs := setSources k z w, retired := anyBit w 55 1, retCut := if z.retired then z.retCut else z.cut,
      left := fieldN w 56 8, done := z.done && fieldN w 56 8 == 0,
      vdec := if anyBit w 36 1 then some d else none, idle := if anyBit w 36 1 then {} else d } (bits w 49 6)

/-- A word of a stream record written: the head, DLEFT, PRED, CUTM, DECM, SCOPE, the sources, THR, VAL in the lanes cut or complete,
and the committed digits. -/
def setStreamWord (k : Nat) (z : Stream) (off : Nat) (w : Word) : Stream :=
  if off = 0 then setStreamHead k z w
  else if off = 8 then setRecordVdec z { recordVdec z with left := fieldN w 0 8 }
  else if off < 64 then z
  else if off < 96 then
    (if z.op == 0x2E && !anyBit z.fn 4 1 then { z with codes := setMaskPart z.codes ((off - 64) / 8) w }
     else { z with pred := setMaskPart z.pred ((off - 64) / 8) w })
  else if off < 128 then { z with cut := setMaskPart z.cut ((off - 96) / 8) w }
  else if off < 160 then { z with decided := setMaskPart z.decided ((off - 128) / 8) w }
  else if off < 192 then setRecordVdec z { recordVdec z with scope := setMaskPart (recordVdec z).scope ((off - 160) / 8) w }
  else if off < 3264 then
    let k := (off - 192) / 1024
    let l := z.captured ++ List.replicate (3 - z.captured.length) []
    { z with captured := l.set k (setLanes (at' l k []) ((off - 192) % 1024 / 8) w) }
  else if off < 4288 then setRecordVdec z { recordVdec z with thr := setLanes (recordVdec z).thr ((off - 3264) / 8) w }
  else if off < 5312 then
    { z with value := mergeLanes (openLanes z &&& ~~~z.cut) z.value (setLanes z.value ((off - 4288) / 8) w) }
  else if off < 7360 then { z with digits := (z.digits ++ List.replicate (256 - z.digits.length) 0).set ((off - 5312) / 8) w }
  else z

end Sys2Proof.Machine
end

