-- ==== Sys2Proof/Machine/StateImage.lean ====
section
/-! DEFINITION. The state image of a sequencer (16 R309, R310, 11 R240): the bytes of every part of it, and the change of
one word of it by the debugger (16 R318). -/

namespace Sys2Proof.Machine

/-! ## The bytes of the image -/

def scalarBytes (l : List Scalar) : List Byte := l.flatMap (fun v => leBytes 8 v.bits.toNat)
/-- Poison bits, entry i at bit i. -/
def poisonBits (l : List Scalar) : Nat := l.foldr (fun v a => (if v.poison then 1 else 0) + 2 * a) 0
def maskBytes (m : Mask) : List Byte := leBytes 32 m.toNat
def vregBytes (v : VReg) : List Byte := (mapLanes (fun _ x => leBytes 4 x.toNat) v).flatten

/-- An address generator: base, counts, strides, control and walk indices, four bytes each (log entry 23). -/
def genBytes (g : Gen) : List Byte :=
  leBytes 4 g.base.toNat ++ (List.range 4).flatMap (fun i => leBytes 4 (at' g.count i 0).toNat) ++
    (List.range 4).flatMap (fun i => leBytes 4 (at' g.stride i 0).toNat) ++ leBytes 4 g.ctl.toNat ++
    (List.range 4).flatMap (fun i => leBytes 4 (at' g.idx i 0)) ++ List.replicate 8 0

def routineBytes (q : Seq) : List Byte :=
  (List.range 32).flatMap (fun e => leBytes 2 (match (q.routines[e]?).join with
    | some st => st.toNat + 2 ^ 15
    | none => (at' q.startIdle e 0).toNat))

def configBytes (e : Edge) : List Byte := (List.range 4).flatMap (fun i => leBytes 8 (at' e.cfg i 0).toNat)

/-- The edge configuration and INSTALLED; where none is installed, zero or what a debugger has written. -/
def edgeBytes (m : Matrix) : List Byte :=
  match m.edge with
  | some e => configBytes e ++ leBytes 8 1
  | none => (m.edgeIdle.map configBytes).getD (List.replicate 32 0) ++ leBytes 8 0

def armingBytes (m : Matrix) : List Byte :=
  match m.arming with
  | some a => leBytes 8 a.stage.toNat ++ leBytes 8 (a.cc.toNat + 8)
  | none => leBytes 8 m.armIdle.stage.toNat ++ leBytes 8 m.armIdle.cc.toNat

def targetBytes (m : Matrix) : List Byte :=
  match m.target with
  | some t => leBytes 8 (1 + 2 ^ 32 * (t.rows % 2 ^ 32))
  | none => leBytes 8 (2 ^ 32 * (m.rowsIdle % 2 ^ 32))

def arrayBytes (m : Matrix) : List Byte :=
  match m.edge.or m.edgeIdle with
  | some e => (List.range 64).flatMap (fun i => leBytes 4 (at' e.bias i 0).toNat) ++ (List.range 64).flatMap (fun i => leBytes 4 (at' e.scale i 0).toNat)
  | none => List.replicate 512 0

/-- KIND and REG of a pending entry, and its age (R310): KIND 5 is a transfer's result in a named register (log entry 23). -/
def pendingKind (e : Pending) : Nat × Nat × Nat :=
  match e.dest with
  | .queue a => (0, 0, a)
  | .named r => (if e.transfer then 5 else 1, r, 0)
  | .vector r => (2, r, 0)
  | .mask r => (3, r, 0)
  | .param g p => (4, 16 * g + p, 0)
  | .shadow a => (6, 0, a)

/-- A pending-write entry, 1,152 bytes (R310). -/
def pendingBytes (e : Pending) : List Byte :=
  let k := pendingKind e
  let body := match e.dest with
    | .vector _ => vregBytes e.vec
    | .mask _ => maskBytes e.mvec ++ List.replicate 992 0
    | _ => leBytes 8 e.value.bits.toNat ++ List.replicate 1016 0
  leBytes 8 (k.1 + 2 ^ 8 * k.2.1 + 2 ^ 16 * e.left + 2 ^ 24 * k.2.2 + (if e.value.poison then 2 ^ 28 else 0)) ++ maskBytes e.lanes ++
    List.replicate 24 0 ++ body ++ List.replicate 64 0

/-- Bits 0..71 of the stream record of register `k` (11 R240). -/
def streamHead (k : Nat) (z : Stream) : Nat :=
  let d := recordVdec z
  z.op.toNat + 2 ^ 7 * z.ty.toNat + 2 ^ 11 * z.rm.toNat + 2 ^ 14 * z.fn.toNat + 2 ^ 20 + 2 ^ 24 * sourceKind k z 0 + 2 ^ 28 * sourceKind k z 1 + 2 ^ 32 * sourceKind k z 2 +
    (if z.vdec.isSome then 2 ^ 36 else 0) + 2 ^ 37 * d.md.toNat + 2 ^ 40 * d.cc.toNat + (if d.pe then 2 ^ 43 else 0) + 2 ^ 44 * d.flag.toNat +
    2 ^ 49 * (if z.left = 0 && !z.retired then streamFlags z else z.due).toNat + (if z.retired then 2 ^ 55 else 0) +
    2 ^ 56 * Nat.min z.left 255 + 2 ^ 64 * Nat.min d.left 255

/-- A stream record, 8,192 bytes (11 R240); of a bit-mode VPACK, PRED holds the enabled codes (log entry 78). -/
def streamBytes (k : Nat) (z : Stream) : List Byte :=
  if !z.valid then List.replicate 8192 0
  else
    let open_ := openLanes z &&& ~~~z.cut
    let val := mapLanes (fun i x => if open_.getLsbD i then 0 else x) z.value
    let digits := ((z.digits ++ List.replicate 256 0).take 256).flatMap (fun (p : Word) => leBytes 8 p.toNat)
    leBytes 64 (streamHead k z) ++ maskBytes (if z.op == 0x2E && !anyBit z.fn 4 1 then z.codes else z.pred) ++ maskBytes z.cut ++
      maskBytes z.decided ++ maskBytes (recordVdec z).scope ++
      (List.range 3).flatMap (fun i => vregBytes (at' z.captured i [])) ++ vregBytes (recordVdec z).thr ++
      vregBytes val ++ digits ++ List.replicate 832 0

/-- STATE of a sequencer (R309): 0 none, 1 at a cut, 2 halted. -/
def stateCode (q : Seq) (halted : Bool) : Nat := if q.status = .idle then 0 else if halted then 2 else 1

/-- The image below 0x5_0000 as (offset, bytes) parts (R309); other bytes are zero. A flag post performed in this clock counts
(18 R340). -/
def imageParts (feat : BitVec 128) (n : Nat) (q : Seq) (halted : Bool) : List (Nat × List Byte) :=
  let q := tickFlags q
  let m := q.mx
  [(0x000, (List.range 20).flatMap (fun r => leBytes 8 (srWord feat q n r).toNat)),
   (0x0A0, leBytes 8 (q.pc.toNat + 2 ^ 11 * stateCode q halted) ++ leBytes 8 q.pending.length ++ leBytes 8 q.segRes.toNat),
   (0x100, scalarBytes q.q ++ leBytes 8 (poisonBits q.q)),
   (0x200, scalarBytes q.g ++ leBytes 8 (poisonBits q.g)),
   (0x310, scalarBytes q.sq ++ leBytes 8 (poisonBits q.sq)),
   (0x400, q.m.flatMap maskBytes),
   (0x500, q.ag.flatMap genBytes),
   (0x700, (q.mp ++ q.cp ++ q.np).flatMap (fun w => leBytes 8 w.toNat)),
   (0x800, q.f.flatMap (fun f => leBytes 2 f.toNat)),
   (0x840, q.zones.flatMap (fun z => leBytes 4 z.toNat)),
   (0x880, q.ranges.flatMap (fun r => leBytes 16 r.toNat)),
   (0x900, routineBytes q),
   (0x940, edgeBytes m),
   (0x980, armingBytes m ++ targetBytes m),
   (0x9A0, leBytes 4 m.err.toNat ++ leBytes 4 m.fillCount.toNat ++ leBytes 4 m.rowCount.toNat ++ leBytes 4 m.poisonCount.toNat ++
     leBytes 4 m.lmissCount.toNat ++ leBytes 4 m.oobCount.toNat),
   (0x9C0, leBytes 4 q.cpy.completed.toNat ++ leBytes 4 q.cpy.failed.toNat ++ leBytes 8 q.cpy.refusals.toNat ++ leBytes 8 q.cpy.elements.toNat),
   (0xA00, arrayBytes m),
   (0xC00, (List.range 256).flatMap (fun i => leBytes 8 (at' q.micro i 0).toNat)),
   (0x2000, q.v.flatMap vregBytes),
   (0xE000, q.z.zipIdx.flatMap (fun x => streamBytes x.2 x.1)),
   (0x1E000, (q.pending.take 128).flatMap pendingBytes)]

/-- The place behind an offset from 0x5_0000 on: instruction memory, E and P. -/
def imageMemory (n off : Nat) : Nat :=
  if off < 0x60000 then placeI n (off - 0x50000) else if off < 0x100000 then placeE n (off - 0x60000) else placeP n (off - 0x100000)

/-- Whether an offset lies in the memory parts. -/
def inMemoryPart (off : Nat) : Bool := decide (0x50000 ≤ off) && decide (off < 0xA0000) || decide (0x100000 ≤ off)

/-- Whether the word at an offset of a sequencer's image is one of its micro-step store that is damaged (22 R382). -/
def microDamaged (q : Seq) (off : Nat) : Bool := decide (0xC00 ≤ off) && decide (off < 0x1400) && q.microBad.contains ((off - 0xC00) / 8)

/-- Eight bytes of the image of a sequencer as it stands. -/
def readImageWord (s : State) (n off : Nat) (halted : Bool) : Word :=
  if inMemoryPart off then BitVec.ofNat 64 (readNat s (imageMemory n off) 8)
  else match (imageParts s.faccept n (getSeq s n) halted).find? (fun p => decide (p.1 ≤ off) && decide (off < p.1 + p.2.length)) with
    | some p => BitVec.ofNat 64 (leNat ((p.2.drop (off - p.1)).take 8))
    | none => 0

/-! ## The bits that WRITE may change (R318) -/

/-- One pattern per 4 bytes, twice. -/
def pair32 (x : Nat) : Word := BitVec.ofNat 64 (x + 2 ^ 32 * x)

/-- The bits of the word at an offset that are neither read-only, reserved, nor pending-write entries. -/
def writableBits (inHandler : Bool) (off : Nat) : Word :=
  let all : Word := BitVec.allOnes 64
  if off < 0xA0 then
    match off / 8 with
    | 0 => 0x87FF
    | 3 => if inHandler then 0xFFF else 0
    | 8 => 0x7
    | 9 => 0x3F
    | 10 => 0x1BF
    | 11 => 0xFFFFFFFF
    | _ => 0
  else if off = 0xA0 then 0x7FF
  else if off = 0xB0 then all
  else if off < 0x100 then 0
  else if off < 0x180 then all
  else if off = 0x180 then 0xFFFF
  else if off < 0x200 then 0
  else if off < 0x300 then all
  else if off = 0x300 then 0xFFFFFFFF
  else if off < 0x310 then 0
  else if off < 0x390 then (if inHandler then all else 0)
  else if off = 0x390 then (if inHandler then 0xFFFF else 0)
  else if off < 0x400 then 0
  else if off < 0x500 then all
  else if off < 0x700 then
    (match (off - 0x500) % 64 / 8 with
     | 0 => 0x0000FFFF000FFFFF
     | 1 => pair32 0xFFFF
     | 2 => 0xFFFFFFFF0000FFFF
     | 3 => all
     | 4 => 0x00000007FFFFFFFF
     | 5 => pair32 0xFFFF
     | 6 => pair32 0xFFFF
     | _ => 0)
  else if off < 0x7C0 then all
  else if off < 0x800 then 0
  else if off < 0x840 then all
  else if off < 0x880 then pair32 0xFFFFF
  else if off < 0x900 then (if off % 16 = 0 then 0xFFFFFFFFFFFF07FF else 0x00FFFFFFFFFFFFFF)
  else if off < 0x940 then pair32 0x80FF80FF
  else if off < 0x960 then all
  else if off = 0x960 then 1
  else if off < 0x980 then 0
  else if off = 0x980 then all
  else if off = 0x988 then 0xF
  else if off = 0x990 then 0xFFFFFFFF00000001
  else if off < 0x9A0 then 0
  else if off = 0x9A0 then 0xFFFFFFFF0000003F
  else if off < 0x9B8 then all
  else if off < 0x9C0 then 0
  else if off < 0x9D8 then all
  else if off < 0xA00 then 0
  else if off < 0xB00 then all
  else if off < 0xC00 then pair32 0xFFFFFF
  else if off < 0x1400 then all
  else if off < 0x2000 then 0
  else if off < 0xE000 then all
  else if off < 0x1E000 then
    (let r := (off - 0xE000) % 8192
     if r = 0 then 0xFFFFFFFFFF1FFFFF
     else if r = 8 then 0xFF
     else if r < 64 then 0
     else if r < 5312 then all
     else if r < 7360 then 0x00FFFFFFFFFFFFFF else 0)
  else if inMemoryPart off then all
  else 0

/-- Whether a WRITE of a word is refused with status 6: no bit of the word may be written (a read-only register, the pending-write
area, reserved bytes), or it changes a read-only or reserved bit beside writable ones (log entry 24). -/
def writeRefused (s : State) (n off : Nat) (w : Word) : Bool :=
  let old := readImageWord s n off true
  let may := writableBits (getSeq s n).sr.hstat off
  may == 0 || ((old ^^^ w) &&& ~~~may) != 0

/-! ## Changing a word -/

def setBits (l : List Scalar) (i : Nat) (w : Word) : List Scalar := l.set i { at' l i {} with bits := w }
def setPoison (l : List Scalar) (w : Word) : List Scalar := l.zipIdx.map (fun x => { x.1 with poison := w.getLsbD x.2 })

def setGenWord (g : Gen) (i : Nat) (w : Word) : Gen :=
  match i with
  | 0 => { g with base := bits w 0 20, count := g.count.set 0 (bits w 32 16) }
  | 1 => { g with count := (g.count.set 1 (bits w 0 16)).set 2 (bits w 32 16) }
  | 2 => { g with count := g.count.set 3 (bits w 0 16), stride := g.stride.set 0 (bits w 32 32) }
  | 3 => { g with stride := (g.stride.set 1 (bits w 0 32)).set 2 (bits w 32 32) }
  | 4 => { g with stride := g.stride.set 3 (bits w 0 32), ctl := bits w 32 3 }
  | 5 => { g with idx := (g.idx.set 0 (fieldN w 0 16)).set 1 (fieldN w 32 16) }
  | 6 => { g with idx := (g.idx.set 2 (fieldN w 0 16)).set 3 (fieldN w 32 16) }
  | _ => g

/-- Four routine entries; the START of an invalid one stands beside the table. -/
def setRoutineWord (q : Seq) (i : Nat) (w : Word) : Seq :=
  (List.range 4).foldl (fun q k =>
    let st : BitVec 8 := bits w (16 * k) 8
    if anyBit w (16 * k + 15) 1 then { q with routines := q.routines.set (4 * i + k) (some st) }
    else { q with routines := q.routines.set (4 * i + k) none, startIdle := q.startIdle.set (4 * i + k) st }) q

def blankEdge : Edge := { cfg := [0, 0, 0, 0], mode := 1, bias := List.replicate 64 0, scale := List.replicate 64 0 }

/-- A word of an edge configuration, its biases or its scales. -/
def setEdgeField (e : Edge) (off : Nat) (w : Word) : Edge :=
  if off < 0x960 then { e with cfg := e.cfg.set ((off - 0x940) / 8) w }
  else if off < 0xB00 then { e with bias := (e.bias.set ((off - 0xA00) / 4) (bits w 0 32)).set ((off - 0xA00) / 4 + 1) (bits w 32 32) }
  else { e with scale := (e.scale.set ((off - 0xB00) / 4) (bits w 0 24)).set ((off - 0xB00) / 4 + 1) (bits w 32 24) }

/-- A word of the edge's part of the image; INSTALLED moves the configuration into force and out of it. -/
def setEdgeWord (m : Matrix) (off : Nat) (w : Word) : Matrix :=
  if off = 0x960 then
    (if anyBit w 0 1 then { m with edge := some (m.edge.getD (m.edgeIdle.getD blankEdge)), edgeIdle := none }
     else { m with edge := none, edgeIdle := m.edge.or m.edgeIdle })
  else match m.edge with
    | some e => { m with edge := some (setEdgeField e off w) }
    | none => { m with edgeIdle := some (setEdgeField (m.edgeIdle.getD blankEdge) off w) }

/-- A zone's format register written by a debugger: an invalid format is refused and leaves it unchanged (06 R124, 10 R207; log entry 112). -/
def setZone (q : Seq) (i : Nat) (r : BitVec 32) : Seq := if regValid r then { q with zones := q.zones.set i r } else q

/-- The sequencer with a word of its image changed (R318). -/
def setSeqWord (q : Seq) (off : Nat) (w : Word) : Seq :=
  if off < 0xA0 then { q with sr := writeSr q.sr (off / 8) w }
  else if off = 0xA0 then { q with pc := bits w 0 11 }
  else if off = 0xB0 then { q with segRes := w }
  else if off < 0x180 then { q with q := setBits q.q ((off - 0x100) / 8) w }
  else if off = 0x180 then { q with q := setPoison q.q w }
  else if off < 0x300 then { q with g := setBits q.g ((off - 0x200) / 8) w }
  else if off = 0x300 then { q with g := setPoison q.g w }
  else if off < 0x390 then { q with sq := setBits q.sq ((off - 0x310) / 8) w }
  else if off = 0x390 then { q with sq := setPoison q.sq w }
  else if off < 0x500 then
    let r := (off - 0x400) / 32
    { q with m := q.m.set r (setMaskPart (at' q.m r 0) ((off - 0x400) % 32 / 8) w) }
  else if off < 0x700 then
    let r := (off - 0x500) / 64
    { q with ag := q.ag.set r (setGenWord (at' q.ag r {}) ((off - 0x500) % 64 / 8) w) }
  else if off < 0x7C0 then stageWrite q ((off - 0x700) / 8) w
  else if off < 0x840 then
    let r := (off - 0x800) / 2
    { q with f := (List.range 4).foldl (fun l k => l.set (r + k) (bits w (16 * k) 16)) q.f }
  else if off < 0x880 then
    let r := (off - 0x840) / 4
    setZone (setZone q r (bits w 0 32)) (r + 1) (bits w 32 32)
  else if off < 0x900 then
    let r := (off - 0x880) / 16
    { q with ranges := q.ranges.set r (putBits (at' q.ranges r 0) (8 * (off % 16)) w) }
  else if off < 0x940 then setRoutineWord q ((off - 0x900) / 8) w
  else if off < 0x980 then { q with mx := setEdgeWord q.mx off w }
  else if off = 0x980 then
    (match q.mx.arming with
     | some a => { q with mx := { q.mx with arming := some { a with stage := w } } }
     | none => { q with mx := { q.mx with armIdle := { q.mx.armIdle with stage := w } } })
  else if off = 0x988 then
    (let a : Arming := { q.mx.arming.getD q.mx.armIdle with cc := bits w 0 3 }
     if anyBit w 3 1 then { q with mx := { q.mx with arming := some a, armIdle := {} } }
     else { q with mx := { q.mx with arming := none, armIdle := a } })
  else if off = 0x990 then
    (if anyBit w 0 1 then { q with mx := { q.mx with target := some { q.mx.target.getD {} with rows := fieldN w 32 32 }, rowsIdle := 0 } }
     else { q with mx := { q.mx with target := none, rowsIdle := fieldN w 32 32 } })
  else if off = 0x9A0 then { q with mx := { q.mx with err := bits w 0 6, fillCount := bits w 32 32 } }
  else if off = 0x9A8 then { q with mx := { q.mx with rowCount := bits w 0 32, poisonCount := bits w 32 32 } }
  else if off = 0x9B0 then { q with mx := { q.mx with lmissCount := bits w 0 32, oobCount := bits w 32 32 } }
  else if off = 0x9C0 then { q with cpy := { q.cpy with completed := bits w 0 32, failed := bits w 32 32 } }
  else if off = 0x9C8 then { q with cpy := { q.cpy with refusals := w } }
  else if off = 0x9D0 then { q with cpy := { q.cpy with elements := w } }
  else if off < 0xC00 then { q with mx := setEdgeWord q.mx off w }
  else if off < 0x1400 then
    let i := (off - 0xC00) / 8
    { q with micro := (q.micro ++ List.replicate (256 - q.micro.length) 0).set i w, microBad := q.microBad.filter (· != i) }
  else if off < 0x2000 then q
  else if off < 0xE000 then
    let r := (off - 0x2000) / 1024
    { q with v := q.v.set r (setLanes (at' q.v r []) ((off - 0x2000) % 1024 / 8) w) }
  else if off < 0x1E000 then
    let r := (off - 0xE000) / 8192
    { q with z := q.z.set r (setStreamWord r (at' q.z r {}) ((off - 0xE000) % 8192) w) }
  else q

/-- A debugger's WRITE performed. -/
def writeImageWord (s : State) (n off : Nat) (w : Word) : State :=
  if inMemoryPart off then writeNat s (imageMemory n off) 8 w.toNat
  else modSeq s n (fun q => setSeqWord q off w)

/-! ## Ranges of memory -/

/-- `n` bytes of memory, with their marks, carried from one place to another. -/
def copyRange (s : State) (src dst n : Nat) : State :=
  let cells := s.mem.filter (fun c => decide (src ≤ c.1) && decide (c.1 < src + n))
  let marks := s.poison.filter (fun w => decide (src / 8 ≤ w) && decide (w < (src + n) / 8))
  let m := cells.foldl (fun m c => memSet m (c.1 - src + dst) c.2) (memClear s.mem dst n)
  let p := marks.foldl (fun p w => markWord p (w - src / 8 + dst / 8)) (unmark s.poison dst n)
  { s with mem := m, poison := p }

end Sys2Proof.Machine
end

