-- ==== Sys2Proof/Machine/Cuts.lean ====
section
/-! DEFINITION. Pre-emption at an agreed cut (16 R303 to R308, 20 R357), the save of a context (R309 to R311) and its
resume (R312). -/

namespace Sys2Proof.Machine

/-! ## Which context gives way (20 R357) -/

/-- A context's priority: the highest PRI of its launches that have not completed. -/
def ctxPriority (s : State) (c : Nat) : Nat := (s.launches.filter (fun l => l.ctx == c)).foldl (fun m l => Nat.max m l.prio) 0

/-- Whether sequencer `n` is held by a task of context `c`. -/
def heldBy (s : State) (c n : Nat) : Bool := runsTask s c n

/-- Whether context `c` holds what a launch's next tiles need. -/
def launchBlockedBy (s : State) (c : Nat) (l : Launch) : Bool :=
  match getCtx s l.ctx with
  | none => false
  | some x =>
    l.ctx != c && ctxPlaces x &&
    (if l.pinned then l.unplaced.any (fun j => heldBy s c (l.seq0 + j))
     else l.rangeTable.any (fun r => decide (r.1 < r.2)) && x.seqs.any (heldBy s c) &&
       x.seqs.all (fun n => !seqFree s n || seqRetired s n))

/-- Whether context `c` holds a sequencer that a saved context needs to resume (log entry 60). -/
def resumeBlockedBy (s : State) (c d : Nat) (x : Ctx) : Bool :=
  d != c && x.life == 2 && x.saved.any (fun v => heldBy s c v.seq)

/-- The priorities of what waits for context `c`. -/
def waitingPriorities (s : State) (c : Nat) : List Nat :=
  (s.launches.filter (launchBlockedBy s c)).map (·.prio) ++
    (s.ctxs.filter (fun p => resumeBlockedBy s c p.1 p.2)).map (fun p => ctxPriority s p.1)

/-- Whether a context may be pre-empted now: it runs, no pre-emption of it is in progress, and it is not halted (R314). -/
def mayPreempt (x : Ctx) : Bool := x.life == 1 && x.cut == .none && !x.halted && x.stepLeft.isNone

/-- Whether a launch or context of higher priority waits for context `c`. -/
def preemptDue (s : State) (c : Nat) (x : Ctx) : Bool :=
  mayPreempt x && (waitingPriorities s c).any (fun p => decide (ctxPriority s c < p))

/-- Whether context `c` has run its quantum while one of equal priority waits. -/
def quantumDue (s : State) (c : Nat) (x : Ctx) : Bool :=
  mayPreempt x && decide (x.started + Config.quantum ≤ s.clock) && (waitingPriorities s c).any (fun p => p == ctxPriority s c)

/-- The agreement begins (R304 steps 1 and 2): no more tiles of the context are placed. -/
def beginCut (s : State) (c : Nat) : State := modCtx s c (fun x => { x with cut := .reporting 0 })

/-- PREEMPT: context `c` gives way to one of higher priority (20 R357, R304). -/
def execPreempt (c : Nat) (s : State) : Out :=
  if 16 ≤ c then .fault (.noSuchUnit "context" c)
  else match getCtx s c with
    | some x => if preemptDue s c x then .next (beginCut s c) else .refused (.notEnabled "PREEMPT")
    | none => .refused (.notEnabled "PREEMPT")

/-- QUANTUM_EXPIRY: context `c` has run Q clocks and gives way to one of equal priority (20 R357). -/
def execQuantumExpiry (c : Nat) (s : State) : Out :=
  if 16 ≤ c then .fault (.noSuchUnit "context" c)
  else match getCtx s c with
    | some x => if quantumDue s c x then .next (beginCut s c) else .refused (.notEnabled "QUANTUM_EXPIRY")
    | none => .refused (.notEnabled "QUANTUM_EXPIRY")

/-! ## The agreement (R304 to R306) -/

/-- The sequencers of a context whose task has started, pagers left out. -/
def agreeing (s : State) (c : Nat) (x : Ctx) : List (Nat × Seq) :=
  s.seqs.filter (fun p => p.2.ctx == some c && (p.2.status == .running || p.2.status == .held) && !isPager x p.1)

/-- The sequencers of a context that ARM is sent to: also those whose task is placed and has not started (R403). -/
def armable (s : State) (c : Nat) (x : Ctx) : List (Nat × Seq) :=
  s.seqs.filter (fun p => p.2.ctx == some c && (p.2.status == .running || p.2.status == .held || p.2.status == .placed) && !isPager x p.1)

/-- Whether the agreement on a context is in progress: a tile placed before it may still be armed (R403). -/
def cutting (x : Ctx) : Bool := x.cut != .none

/-- The sequencer to arm next. -/
def armDue (s : State) (c : Nat) (x : Ctx) : Option Nat :=
  if x.halted || !cutting x then none
  else ((armable s c x).find? (fun p => p.2.hold.isNone && (p.2.status == .placed || (match x.cut with
    | .reporting _ => true
    | _ => false)))).map (·.1)

/-- ARM: sequencer `n` reports sr.cutnext and holds there (R304 step 3); a task that has not started is armed when it starts (R403). -/
def execArm (n : Nat) (s : State) : Out :=
  if 512 ≤ n then .fault (.noSuchUnit "sequencer" n)
  else
    let q := getSeq s n
    match q.ctx, q.ctx.bind (getCtx s) with
    | some c, some x => match x.cut with
      | .none => .refused (.notEnabled "ARM")
      | cut =>
        if x.halted || q.hold.isSome || !(armable s c x).any (fun p => p.1 == n) then .refused (.notEnabled "ARM")
        else if q.status = .placed then .next (setSeq s n { q with hold := some 0 })
        else match cut with
        | .reporting r =>
          let k := q.sr.cutnext
          .next (modCtx (setSeq s n { q with hold := some k, reported := some k }) c
            (fun x => { x with cut := .reporting (if r.toNat < k.toNat then k else r) }))
        | _ => .refused (.notEnabled "ARM")
    | _, _ => .refused (.notEnabled "ARM")

/-- Whether every sequencer of a context has reported. -/
def targetDue (s : State) (c : Nat) (x : Ctx) : Bool :=
  (match x.cut with
   | .reporting _ => true
   | _ => false) && !x.halted && (agreeing s c x).all (fun p => p.2.reported.isSome)

/-- TARGET: N is the largest report (R304 step 4). -/
def execTarget (c : Nat) (s : State) : Out :=
  if 16 ≤ c then .fault (.noSuchUnit "context" c)
  else match getCtx s c with
    | some x => match x.cut with
      | .reporting r => if targetDue s c x then .next (setCtx s c { x with cut := .released r }) else .refused (.notEnabled "TARGET")
      | _ => .refused (.notEnabled "TARGET")
    | none => .refused (.notEnabled "TARGET")

/-- The sequencer that TARGET N reaches next. -/
def releaseDue (s : State) (c : Nat) (x : Ctx) : Option Nat :=
  match x.cut with
  | .released _ => if x.halted then none else ((agreeing s c x).find? (fun p => p.2.reported.isSome)).map (·.1)
  | _ => none

/-- A sequencer that receives TARGET N: its hold is N, and where it held below N it goes on in the next clock (R305). -/
def releaseSeq (q : Seq) (target : Word) : Seq :=
  { q with hold := some target, reported := none,
           status := if q.status = .held ∧ q.sr.cutnext.toNat ≤ target.toNat then .running else q.status }

/-- RELEASE: sequencer `n` receives TARGET N (R304 step 5, R305). -/
def execRelease (n : Nat) (s : State) : Out :=
  if 512 ≤ n then .fault (.noSuchUnit "sequencer" n)
  else
    let q := getSeq s n
    match q.ctx, q.ctx.bind (getCtx s) with
    | some c, some x => match x.cut with
      | .released r =>
        if !x.halted && q.reported.isSome && (agreeing s c x).any (fun p => p.1 == n) then .next (setSeq s n (releaseSeq q r))
        else .refused (.notEnabled "RELEASE")
      | _ => .refused (.notEnabled "RELEASE")
    | _, _ => .refused (.notEnabled "RELEASE")

/-! ## The drain and the save (R306 to R311) -/

/-- Whether a sequencer of a context stands at its cut with everything it issued performed, or has no task (R305, R308). -/
def drained (s : State) (n : Nat) (q : Seq) : Bool :=
  (q.status == .idle || (q.status == .held && q.hold.isSome && q.reported.isNone)) && enginesIdle s n

def ctxSeqs (s : State) (c : Nat) : List (Nat × Seq) := s.seqs.filter (fun p => p.2.ctx == some c)

/-- Whether every sequencer of a context but its pagers has drained. -/
def othersDrained (s : State) (c : Nat) (x : Ctx) : Bool := (ctxSeqs s c).all (fun p => isPager x p.1 || drained s p.1 p.2)

/-- Pagers still to be stopped at their next quiet bundle (R306). -/
def pagersRun (s : State) (c : Nat) (x : Ctx) : List Nat :=
  ((ctxSeqs s c).filter (fun p => isPager x p.1 && p.2.status == .running && p.2.hold.isNone)).map (·.1)

/-- Whether the save of a context is in progress (R308): its sequencers have all arrived, and it drains. -/
def savesNow (s : State) (c : Nat) (x : Ctx) : Bool :=
  (match x.cut with
   | .released _ => true
   | _ => false) && (armable s c x).all (fun p => p.2.status == .held && p.2.reported.isNone)

/-- Whether a context may be reported saved. -/
def savedDue (s : State) (c : Nat) (x : Ctx) : Bool :=
  (match x.cut with
   | .released _ => true
   | _ => false) && !x.halted && othersDrained s c x &&
    (!(pagersRun s c x).isEmpty || (ctxSeqs s c).all (fun p => drained s p.1 p.2))

/-- The damaged words of a range of memory that is read, each recorded (22 R383). -/
def noteRange (s : State) (src n : Nat) : State :=
  (s.poison.filter (fun w => decide (src / 8 ≤ w) && decide (w < (src + n) / 8))).foldl (fun s w => recordDamage s (8 * w)) s

/-- A memory carried into or out of a save area: each damaged word read is recorded. -/
def carryRange (s : State) (src dst n : Nat) : State := copyRange (noteRange s src n) src dst n

/-- A damaged word of a micro-step store is read by the save, which stores it poisoned (22 R382, R383). -/
def saveDamaged (s : State) (n p : Nat) : State :=
  { s with events := s.events ++ [damage n 11 1], poison := markWord s.poison (p / 8) }

/-- The state image of a sequencer, written into its die's save area (R309). -/
def writeImage (s : State) (c n : Nat) : State :=
  let q := getSeq s n
  let at0 := saveAreaPlace (n / 128) c (0x200000 * (n % 128))
  let s := clearRange s at0 0x200000
  if q.status = .idle ∨ q.ctx ≠ some c then s
  else
    let s := (imageParts s.faccept n q false).foldl (fun s p => writeBytes s (at0 + p.1) p.2) s
    let s := q.microBad.foldl (fun s i => saveDamaged s n (at0 + 0xC00 + 8 * i)) s
    let s := carryRange s (placeI n 0) (at0 + 0x50000) 0x10000
    let s := carryRange s (placeE n 0) (at0 + 0x60000) 0x40000
    carryRange s (placeP n 0) (at0 + 0x100000) 0x100000

/-- The rows on the links at a sequencer, in and out, are discarded (R303). -/
def dropLinks (s : State) (n : Nat) : State := modMx (dropRows s n) n (fun m => { m with sent := [] })

/-- Whether another context than `c` runs a task on sequencer `n`. -/
def runsOther (s : State) (c n : Nat) : Bool := (getSeq s n).status != .idle && (getSeq s n).ctx != some c

/-- The context's tasks leave their sequencers, completed ones too: images written, sequencers kept for the resume, rows on the links of its sequencers and its
lode tables dropped, bank formats kept (R303, R308, R311, R312). -/
def saveContext (s : State) (c : Nat) (x : Ctx) : State :=
  let on := (ctxSeqs s c).filter (fun p => p.2.status != .idle)
  let mine := (x.seqs ++ on.map (·.1)).eraseDups
  let s := mine.foldl (fun s n => writeImage s c n) s
  let s := (mine.filter (fun n => !runsOther s c n)).foldl dropLinks s
  let s := { s with lodes := s.lodes.map (fun p => (p.1, dropTables c p.2)) }
  let s := (ctxSeqs s c).foldl (fun s p => setSeq s p.1 { (getSeq s p.1) with status := .idle, ctx := none, launch := none, hold := none, reported := none }) s
  let s := setCtx s c { x with life := 2, cut := .none, saved := on.map (fun p => { seq := p.1, data := p.2 }), savedAt := s.clock,
                               banks := x.sites.foldl (fun t k => tset t k (getSite s k).bank) x.banks, sites := [] }
  writeCstat { s with free := s.free + 1 } c 2

/-- CONTEXT_SAVED: first the pagers are told to stop at their next quiet bundle (R306); once all have drained the context
is saved and reported (R308). -/
def execContextSaved (c : Nat) (s : State) : Out :=
  if 16 ≤ c then .fault (.noSuchUnit "context" c)
  else match getCtx s c with
    | some x =>
      if !savedDue s c x then .refused (.notEnabled "CONTEXT_SAVED")
      else match pagersRun s c x with
        | [] => .next (saveContext s c x)
        | ps => .next (ps.foldl (fun s n => modSeq s n (fun q => { q with hold := some 0 })) s)
    | none => .refused (.notEnabled "CONTEXT_SAVED")

/-! ## Resume (R312) -/

/-- Whether a saved context may resume: the sequencers of its tasks are free and no site of theirs is retired, and every die that holds
a sequencer of the context runs (21 R376). -/
def mayResume (s : State) (x : Ctx) : Bool :=
  x.life == 2 && x.saved.all (fun v => seqFree s v.seq && !seqRetired s v.seq) &&
    (x.seqs ++ x.saved.map SavedSeq.seq).all (fun n => (tget {} s.dies (n / 128)).st == 0)

/-- Whether context `y` comes before `x`: higher priority, then longer saved (20 R357). -/
def resumesBefore (s : State) (c d : Nat) (x y : Ctx) : Bool :=
  let p := ctxPriority s c
  let q := ctxPriority s d
  decide (p < q) || (p == q && (decide (y.savedAt < x.savedAt) || (y.savedAt == x.savedAt && decide (d < c))))

/-- Whether context `c` resumes next. -/
def resumeDue (s : State) (c : Nat) (x : Ctx) : Bool :=
  mayResume s x && s.ctxs.all (fun p => p.1 == c || !(mayResume s p.2 && resumesBefore s c p.1 x p.2))

/-- A restored sequencer: no hold, an empty accumulator, no rows and no held deliveries; stream counters are not saved. Its flags are
those of the image, with the posts of the save's clock (18 R340). -/
def restored (fr n c : Nat) (q : Seq) : Seq :=
  let q := tickFlags q
  { q with status := .running, hold := none, reported := none, ctx := some c,
           counters := (List.range 5).map (fun i => Config.freeBits 64 fr (5 * n + i)),
           mx := { q.mx with acc := [], edgeBuf := [], incoming := [], sent := [], lodeBuf := [], discardIn := 0 } }

/-- A sequencer's memories read back from its save area; the damaged words of the whole image are recorded (22 R383). -/
def restoreMemory (s : State) (c n : Nat) : State :=
  let at0 := saveAreaPlace (n / 128) c (0x200000 * (n % 128))
  let s := noteRange s at0 0x50000
  let s := carryRange s (at0 + 0x50000) (placeI n 0) 0x10000
  let s := carryRange s (at0 + 0x60000) (placeE n 0) 0x40000
  carryRange s (at0 + 0x100000) (placeP n 0) 0x100000

/-- A loop entry, and an open shadow, as a state register gives them (05 R105). -/
def loopOf (w : Word) : Option LoopEntry := if anyBit w 63 1 then some { start := bits w 0 11, last := bits w 11 11, left := fieldN w 22 32 } else none
def shadowOf (w : Word) : Option Shadow := if anyBit w 15 1 then some { target := bits w 0 11, left := fieldN w 12 2 } else none

/-- A state register restored as a word (05 R105): each field that is no constant of the sequencer, those that SWR cannot write among them. A
saved image holds no handler (R309). -/
def restoreSr (q : Seq) (r : Nat) (w : Word) : Seq :=
  match r with
  | 0x001 => { q with sr := { q.sr with trapcause := w } }
  | 0x002 => { q with sr := { q.sr with faultmask := w &&& 0xFF } }
  | 0x004 => { q with shadow := shadowOf w }
  | 0x005 => { q with loops := (loopOf w).toList ++ q.loops.drop 1 }
  | 0x006 => { q with loops := q.loops.take 1 ++ (loopOf w).toList }
  | 0x00C => { q with sr := { q.sr with cutnext := w } }
  | 0x00D => { q with sr := { q.sr with cutlabel := bits w 0 16 } }
  | 0x00E => { q with sr := { q.sr with cutmiss := bits w 0 32 } }
  | 0x00F => { q with sr := { q.sr with sched := w } }
  | 0x010 => { q with sr := { q.sr with tile := bits w 0 48 } }
  | 0x012 => { q with sr := { q.sr with winBase := bits w 0 20, winSize := bits w 20 21 } }
  | 0x013 => { q with sr := { q.sr with wdog := bits w 0 6 } }
  | _ => { q with sr := writeSr q.sr r w }

/-- A list of scalar registers with a damaged word of its image: that register is poisoned, or, of the word of their poison bits (offset
`marks`), all of them are (22 R382). -/
def damageScalars (l : List Scalar) (off marks : Nat) : List Scalar :=
  l.zipIdx.map (fun x => if off = marks ∨ x.2 = off / 8 then { x.1 with poison := true } else x.1)

/-- The sequencer restored from an image whose word at an offset is damaged (22 R382): a scalar register is poisoned, a micro-step is
damaged, a pending result is as a damaged entry of the table makes it, and any other register holds unspecified bits there (log entry 141). -/
def damageImage (fr n : Nat) (q : Seq) (off : Nat) : Seq :=
  let w := Config.freeBits 64 fr (2 ^ 40 + 2 ^ 20 * n + off)
  let pos (i : Nat) : Nat := 2 ^ 21 * (n + 1) + 4 * i
  if 0x100 ≤ off ∧ off < 0x188 then { q with q := damageScalars q.q (off - 0x100) 0x80 }
  else if 0x200 ≤ off ∧ off < 0x308 then { q with g := damageScalars q.g (off - 0x200) 0x100 }
  else if 0x310 ≤ off ∧ off < 0x398 then { q with sq := damageScalars q.sq (off - 0x310) 0x80 }
  else if off < 0xA0 then restoreSr q (off / 8) w
  else if 0xC00 ≤ off ∧ off < 0x1400 then { q with microBad := if q.microBad.contains ((off - 0xC00) / 8) then q.microBad else q.microBad ++ [(off - 0xC00) / 8] }
  else if 0xE000 ≤ off ∧ off < 0x1E000 then let t := setSeqWord q off w; { t with z := recompute t.z }
  else if 0x1E000 ≤ off then
    { q with pending := q.pending.zipIdx.map (fun x =>
        if x.2 = (off - 0x1E000) / 1152 then
          (let o := (off - 0x1E000) % 1152
           if 64 ≤ o ∧ o < 1088 then damagePending fr (pos x.2) ((o - 64) / 8) x.1 else (List.range 128).foldl (fun e k => damagePending fr (pos x.2) k e) x.1)
        else x.1) }
  else setSeqWord q off w

/-- The offsets of the damaged words of a sequencer's image below its memories. -/
def damagedOffsets (s : State) (c n : Nat) : List Nat :=
  let at0 := saveAreaPlace (n / 128) c (0x200000 * (n % 128))
  (s.poison.filter (fun w => decide (at0 / 8 ≤ w) && decide (w < (at0 + 0x50000) / 8))).map (fun w => 8 * w - at0)

/-- A lode as a resume on its cluster leaves it (R312: no lode table runs): a table stands only where its context runs a task there. -/
def clearLode (s : State) (cl : Nat) : State :=
  let l := getLode s cl
  let keeps (o : Option Nat) : Bool := o.any (fun d => (clusterSeqs cl).any (runsTask s d))
  setLode s cl { l with table := l.table.filter (fun t => keeps t.ctx), waiting := l.waiting.filter (fun w => keeps w.1.ctx),
                        deliver := l.deliver.filter (fun v => keeps v.ctx) }

/-- The context goes on where it was cut: all its sequencers issue in this clock, with the registers that were saved but for damaged words of
their images (22 R382). Sites that its other tasks have left are admitted again
when a tile comes to them. -/
def resumeContext (s : State) (c : Nat) (x : Ctx) : State :=
  let seqs := x.saved.map SavedSeq.seq
  let s := setCtx s c { x with life := 1, saved := [], started := s.clock }
  let s := ((x.banks.map (·.1)).filter (fun k => seqs.contains (siteOwner k).1)).foldl (admitAgain c) s
  let s := ((x.seqs ++ seqs).map (· / 16)).eraseDups.foldl clearLode s
  let s := x.saved.foldl (fun s v =>
    setSeq (restoreMemory s c v.seq) v.seq ((damagedOffsets s c v.seq).foldl (damageImage s.free v.seq) (restored s.free v.seq c v.data))) s
  writeCstat { s with turn := s.turn ++ seqs, free := s.free + 1 } c 1

/-- RESUME (R312, 20 R355, R357). -/
def execResume (c : Nat) (s : State) : Out :=
  if 16 ≤ c then .fault (.noSuchUnit "context" c)
  else match getCtx s c with
    | some x => if resumeDue s c x then .next (resumeContext s c x) else .refused (.notEnabled "RESUME")
    | none => .refused (.notEnabled "RESUME")

end Sys2Proof.Machine
end

