-- ==== Sys2Proof/Machine/Debug.lean ====
section
/-! DEFINITION. The debug mailbox (16 R313 to R318, 22 R397): its registers hold ARG, the data word and the target context;
each command answers with a status. -/

namespace Sys2Proof.Machine

/-- DBGSTAT after a command (22 R397). -/
def dbgDone (s : State) (status : Nat) : State := { s with mgmt := { s.mgmt with dbgstat := BitVec.ofNat 64 (2 ^ 8 * status) } }

def dbgBusy (s : State) : Bool := anyBit s.mgmt.dbgstat 0 1

/-- DBGSTAT while a command is in progress. -/
def dbgStart (s : State) : State := { s with mgmt := { s.mgmt with dbgstat := 1 } }

def dbgCtx (s : State) : Nat := fieldN s.mgmt.dbgctx 0 4

/-- A command on the target context: ignored while another is in progress; status 6 with no such context (log entry 61). -/
def debugCommand (s : State) (f : Nat → Ctx → State) : Out :=
  if dbgBusy s then .next s
  else match getCtx s (dbgCtx s) with
    | some x => .next (f (dbgCtx s) x)
    | none => .next (dbgDone s 6)

/-- HALT (R314): every sequencer and engine of the context stands still from the next clock boundary on, also where a RUN of this clock was
to lift a halt there. -/
def execHalt (s : State) : Out :=
  debugCommand s (fun c x =>
    if x.life = 2 ∨ savesNow s c x = true then dbgDone s 1
    else if x.halted ∧ x.halting ≠ some false then dbgDone s 0
    else dbgStart (setCtx s c { x with halting := some true }))

/-- The streams of a sequencer whose records were written are computed from them again (R318, 11 R241). -/
def resumeStreams (s : State) (n : Nat) : State := modSeq s n (fun q => { q with z := recompute q.z })

/-- The WRITEs held for the next RUN or step take effect (R318). -/
def applyWrites (s : State) (c : Nat) (x : Ctx) : State :=
  let s := x.dbgWrites.foldl (fun s w => writeImageWord s w.1 w.2.1 w.2.2) s
  let touched := (x.dbgWrites.filter (fun w => decide (0xE000 ≤ w.2.1) && decide (w.2.1 < 0x1E000))).map (·.1)
  setCtx (touched.foldl resumeStreams s) c { x with dbgWrites := [] }

/-- A sequencer halted on BRK passes over that bundle, as R117 does. -/
def skipBundle (s : State) (n : Nat) : State := modSeq s n (fun q => flowOn q q.pc)

/-- Whether a context stands in a halt that RUN, a step or WRITE may act on: a saved one accepts only READ, also where the step in which its
save completed has halted it (R313, R315). -/
def standsHalted (x : Ctx) : Bool := x.halted && x.life != 2

/-- RUN (R313): the halt ends with this clock. -/
def execRun (s : State) : Out :=
  debugCommand s (fun c x =>
    if !standsHalted x then dbgDone s 2
    else
      let s := applyWrites s c x
      let s := if anyBit s.mgmt.dbgarg 0 1 then x.brkSeqs.foldl skipBundle s else s
      dbgDone (modCtx s c (fun x => { x with halting := some false, brkSeqs := [] })) 0)

/-- A step begins: with the next clock the context runs for at most `n` clocks, or until `seq` has issued a bundle. -/
def beginStep (s : State) (c : Nat) (x : Ctx) (n : Nat) (seq : Option Nat) : State :=
  dbgStart (modCtx (applyWrites s c x) c (fun x =>
    { x with halting := some false, brkSeqs := [], stepLeft := some n, stepSeq := seq, stepIssued := false, stepStatus := 0 }))

/-- CSTEP (R315): ARG[15:0] clocks; 0 is refused. -/
def execCstep (s : State) : Out :=
  debugCommand s (fun c x =>
    let k := fieldN s.mgmt.dbgarg 0 16
    if !standsHalted x then dbgDone s 2
    else if k = 0 then dbgDone s 6
    else beginStep s c x k none)

/-- BSTEP (R316): until sequencer `n` has issued one bundle, at most ARG[31:0] clocks, 0 meaning 2^20. -/
def execBstep (n : Nat) (s : State) : Out :=
  if 512 ≤ n then .fault (.noSuchUnit "sequencer" n)
  else debugCommand s (fun c x =>
    let k := fieldN s.mgmt.dbgarg 0 32
    if !standsHalted x then dbgDone s 2
    else beginStep s c x (if k = 0 then 2 ^ 20 else k) (some n))

/-- Whether a step of a context has ended (R315, R316): the tick has halted it again. -/
def stepEnded (x : Ctx) : Bool := x.halted && x.halting.isNone && x.stepLeft.isSome

/-- The status of an ended step: a context that a fatal error has stopped, a fault before SEQ has issued (another sequencer's BRK
halts the context too, R314), the limit, or done. -/
def stepResult (x : Ctx) : Nat :=
  if 3 ≤ x.life then 5
  else if x.stepStatus ≠ 0 && !(x.stepSeq.isSome && x.stepIssued) then x.stepStatus
  else if x.stepSeq.isSome && !x.stepIssued && x.stepLeft == some 0 then 3
  else 0

/-- DEBUG_STEP_END (R315, R316): the step of context `c` reports. -/
def execDebugStepEnd (c : Nat) (s : State) : Out :=
  if 16 ≤ c then .fault (.noSuchUnit "context" c)
  else match getCtx s c with
    | some x =>
      if stepEnded x then
        .next (dbgDone (setCtx s c { x with stepLeft := none, stepSeq := none, stepIssued := false, stepStatus := 0 }) (stepResult x))
      else .refused (.notEnabled "DEBUG_STEP_END")
    | none => .refused (.notEnabled "DEBUG_STEP_END")

/-- The image offset in ARG. -/
def dbgOffset (s : State) : Nat := fieldN s.mgmt.dbgarg 0 21

/-- Whether a READ or WRITE names a sequencer that the context does not reserve or on which another context's task runs, or a word
that is not aligned (log entry 61). -/
def imageMiss (s : State) (x : Ctx) (n : Nat) : Bool :=
  !x.seqs.contains n || (x.life != 2 && runsOther s (dbgCtx s) n) || dbgOffset s % 8 != 0

/-- READ (R313, R318): eight bytes of the image of sequencer `n`; of a saved context, from its save area. A damaged word is recorded (22
R383) and reads as the marker of a place with no format (06 R402, log entry 86). -/
def execRead (n : Nat) (s : State) : Out :=
  if 512 ≤ n then .fault (.noSuchUnit "sequencer" n)
  else debugCommand s (fun c x =>
    let off := dbgOffset s
    let give (w : Word) : State := dbgDone { s with mgmt := { s.mgmt with dbgdata := w }, free := s.free + 1 } 0
    let word (p : Nat) (w : Word) : State := if poisoned s p 8 then recordDamage (give (BitVec.allOnes 64)) p else give w
    let saved := saveAreaPlace (n / 128) c (0x200000 * (n % 128) + off)
    if x.life ≠ 2 ∧ !x.halted then dbgDone s 2
    else if imageMiss s x n then dbgDone s 6
    else if x.life = 2 then word saved (BitVec.ofNat 64 (readNat s saved 8))
    else if inMemoryPart off then word (imageMemory n off) (readImageWord s n off true)
    else if microDamaged (getSeq s n) off then
      (let t := give (BitVec.allOnes 64)
       { t with events := t.events ++ [damage n 11 1] })
    else give (readImageWord s n off true))

/-- WRITE (R313, R318): the data word replaces eight bytes of the image of sequencer `n` at the next RUN or step. -/
def execWrite (n : Nat) (s : State) : Out :=
  if 512 ≤ n then .fault (.noSuchUnit "sequencer" n)
  else debugCommand s (fun c x =>
    let off := dbgOffset s
    if !standsHalted x then dbgDone s 2
    else if imageMiss s x n || writeRefused s n off s.mgmt.dbgdata then dbgDone s 6
    else dbgDone (setCtx s c { x with dbgWrites := x.dbgWrites ++ [(n, off, s.mgmt.dbgdata)] }) 0)

/-- BRKEN (R313): break-enable is set to ARG[0]; a saved context accepts only READ. -/
def execBrken (s : State) : Out :=
  debugCommand s (fun c x =>
    if x.life = 2 then dbgDone s 6
    else dbgDone (setCtx s c { x with brken := anyBit s.mgmt.dbgarg 0 1 }) 0)

end Sys2Proof.Machine
end

