-- ==== Sys2Proof/Machine/Dies.lean ====
section
/-! DEFINITION. The warm reset of a compute die (21 R375 to R379) and the rows it costs (15 R302). -/

namespace Sys2Proof.Machine

def getDie (s : State) (d : Nat) : DieReset := tget {} s.dies d
def setDie (s : State) (d : Nat) (x : DieReset) : State := { s with dies := tset s.dies d x }
def getLink (s : State) (l : Nat) : ULink := tget {} s.links l
def setLink (s : State) (l : Nat) (x : ULink) : State := { s with links := tset s.links l x }

/-- The two links of a die's warm reset: its bridge module group and its causeway (22 R392). -/
def dieLinks (d : Nat) : List Nat := [d, 4 + d / 2]

/-- The state from which a command is accepted (R376). -/
def commandFrom : Nat → Nat
  | 1 => 0 | 2 => 1 | 3 => 2 | 4 => 3 | 5 => 5 | _ => 6

/-- Whether a task is resident on a die: running or draining on one of its sequencers. -/
def dieBusy (s : State) (d : Nat) : Bool :=
  s.seqs.any (fun p => p.1 / 128 == d && p.2.status != .idle && !(p.2.status == .stopped && enginesIdle s p.1))

/-- A DRCTL command (R376): out of order it sets ERR 1 and changes nothing else. -/
def dieCommand (s : State) (d cmd : Nat) (f : State → DieReset → State) : State :=
  let x := getDie s d
  if x.locked ∨ x.busy ∨ x.st ≠ commandFrom cmd then setDie s d { x with err := 1 }
  else f s { x with busy := true, err := 0, cmd := cmd }

def dieStep (d : Nat) (s : State) (f : State → State) : Out := if 4 ≤ d then .fault (.noSuchUnit "die" d) else .next (f s)

/-- QUIESCE: placement on the die stops; ERR 2 where a task is resident. It completes at once. -/
def quiesceDie (d : Nat) (s : State) : State :=
  dieCommand s d 1 (fun s x =>
    if dieBusy s d then setDie s d { x with busy := false, err := 2 } else setDie s d { x with busy := false, st := 1, stray := 0 })

/-- QUIESCE (R376). -/
def execQuiesce (die : Nat) (s : State) : Out := dieStep die s (quiesceDie die)

/-- LINKSTOP begins: the bridge and the causeway accept nothing more for the die. The trainings that an admission reports count from
here (R379). -/
def linkstopDie (d : Nat) (s : State) : State :=
  dieCommand s d 2 (fun s x => setDie s d { x with trains := (getLink s d).train, seamTrains := (getLink s (4 + d / 2)).train })

/-- LINKSTOP (R376). -/
def execLinkstop (die : Nat) (s : State) : Out := dieStep die s (linkstopDie die)

/-- Whether a page is addressed to a die. -/
def pageOfDie (d page : Nat) : Bool := decide (faClass page ≤ 1) && faDie page == d

/-- Whether a request is one that die `d` has issued: of its core, or of one of its sequencers. -/
def issuedBy (d : Nat) (h : HeldRequest) : Bool := if h.eng = 2 then h.seq == dieReader d else h.seq / 128 == d

/-- Whether every request the die accepted or issued has been answered: none held or woken there, no permit owed, no translated atomic
still to perform. -/
def dieAnswered (s : State) (d : Nat) : Bool :=
  let done (h : HeldRequest) : Bool := !pageOfDie d h.page && !issuedBy d h
  s.ctxs.all (fun p => p.2.migWaits.all done && p.2.pagers.all (fun r => r.waits.all done)) && s.woken.all done && s.refusals.all (fun r => r.1 != d) &&
    s.seqs.all (fun p => p.2.net.running.all (fun r => !(r.phase == 1 && dieOfPlace r.place == some d)))

/-- A command in progress that may complete now. -/
def inProgress (s : State) (d cmd : Nat) : Bool := let x := getDie s d; x.busy && x.cmd == cmd

/-- A step that ends a command, on a die where that command is in progress and the condition holds. -/
def dieEnd (name : String) (d cmd : Nat) (ok : State → Bool) (f : DieReset → State → State) (s : State) : Out :=
  if 4 ≤ d then .fault (.noSuchUnit "die" d)
  else if inProgress s d cmd && ok s then .next (f { getDie s d with busy := false } s)
  else .refused (.notEnabled name)

/-- LINKSTOP_DONE (R376): the links are quiesced; a failed link stays failed; core writes that were not accepted are answered (R377). -/
def execLinkstopDone (die : Nat) (s : State) : Out :=
  dieEnd "LINKSTOP_DONE" die 2 (fun s => dieAnswered s die) (fun x s =>
    let s := (dieLinks die).foldl (fun s l => let y := getLink s l; if y.st = 4 then s else setLink s l { y with st := 3 })
      (setDie s die { x with st := 2 })
    ((s.coreStores.filter (fun y => targetDie y.fabric == die)).map CoreStore.serial).foldl retryStore s) s

/-- WRITEBACK (R376). -/
def execWriteback (die : Nat) (s : State) : Out := dieStep die s (fun s => dieCommand s die 3 (fun s x => setDie s die x))

/-- The poisoned words of a die's staithes, by word number. -/
def staitheMarks (s : State) (d : Nat) : List Nat :=
  s.poison.filter (fun w => decide (placeS d 0 ≤ 8 * w) && decide (8 * w < placeS d 0x10000000))

/-- WRITEBACK_DONE (R376): every slice is in the save area, one record for each damaged word, which ERR 3 reports. -/
def execWritebackDone (die : Nat) (s : State) : Out :=
  dieEnd "WRITEBACK_DONE" die 3 (fun _ => true) (fun x s =>
    let bad := staitheMarks s die
    let s := (List.range 128).foldl (fun s k => copyRange s (placeS die (0x200000 * k)) (staithePlace die (0x200000 * k)) 0x200000) s
    let evs : List PeatEvent := bad.map (fun w =>
      { die := die, unit := 5, loc := (8 * w - placeS die 0) / 0x400000, kind := 0x02, syn := 3, count := 1 })
    setDie { s with events := s.events ++ evs } die { x with st := 3, wb := 0x10000000, err := if bad.isEmpty then x.err else 3 }) s

/-! ## The die in reset (R378, 15 R302) -/

/-- The routine of a sequencer that has still rows to send east; those of one that has ended, or been cut, are on the link already (11 R237). -/
def owingRoutine (n : Nat) (q : Seq) : Option Routine := q.mx.routine.filter (fun r => !r.ended && decide (0 < (restOf q n r).east))

/-- The owners of the rows owed across the causeway out of `w`, whose die or whose neighbour `e`'s is die `d`: a context, a routine entry and
a bundle for each. Rows that stand at `e` untaken are owed to it still. -/
def rowOwners (s : State) (d w e : Nat) : List (Nat × Nat × BitVec 11) :=
  let q := getSeq s w
  let rows := (if e / 128 = d then (getSeq s e).mx.incoming else []) ++ q.mx.sent
  rows.filterMap (fun r => r.ctx.map (fun c => (c, r.entry, r.bundle))) ++
    ((owingRoutine w q).toList.filterMap (fun r => q.ctx.map (fun c => (c, r.entry, r.bundle))))

/-- The first owner of each context. -/
def oncePerContext (l : List (Nat × Nat × BitVec 11)) : List (Nat × Nat × BitVec 11) :=
  l.foldl (fun a o => if a.any (fun x => x.1 == o.1) then a else a ++ [o]) []

/-- Rows owed across the causeway that joins a die in reset are lost, and each context that owed any stops with a routine fault
(15 R302), recorded by the sequencer of the pair that is left on a running die, whether or not its task still runs. The routine that owned any
of them, fed or still to be fed, ends with the fault. -/
def loseRows (d : Nat) (s : State) (w : Nat) : State :=
  match eastOf w with
  | some e =>
    if crossesCauseway w && (e / 128 == d || w / 128 == d) then
      let left := if w / 128 = d then e else w
      let o := oncePerContext (rowOwners s d w e)
      let q := getSeq s w
      let lost := rowOwners s d w e
      let s := modMx s w (fun m => { m with sent := [], routine := m.routine.filter (fun r => !q.ctx.any (fun c => lost.contains (c, r.entry, r.bundle))) })
      o.foldl (fun s x => stopCharged s x.1 left 0x06 5 x.2.2 (BitVec.ofNat 64 x.2.1)) s
    else s
  | none => s

/-- A site after the reset: latches read +0; bank formats, which ADMIT restores, and retirement stay. -/
def resetSite (x : Site) : Site := { bank := x.bank, retired := x.retired, uncorrectable := x.uncorrectable }

/-- A context without the requests that die `d`'s core had sent. -/
def forgetCore (d : Nat) (x : Ctx) : Ctx :=
  let keep (h : HeldRequest) : Bool := !(h.eng == 2 && h.seq == dieReader d)
  { x with migWaits := x.migWaits.filter keep, pagers := x.pagers.map (fun r => { r with waits := r.waits.filter keep }) }

/-- The die's logic restarts: sequencers, their memories, staithes, latches, lode tables and its Kordin core, which has sent nothing (R378). -/
def restartDie (s : State) (d : Nat) : State :=
  let s := { s with ctxs := s.ctxs.map (fun p => (p.1, forgetCore d p.2)), coreFails := s.coreFails.filter (fun x => x.2.2 != dieReader d), seqs := s.seqs.filter (fun p => p.1 / 128 != d),
                    lodes := s.lodes.filter (fun p => p.1 / 8 != d),
                    sites := s.sites.map (fun p => if p.1 / 1024 = d then (p.1, resetSite p.2) else p) }
  let s := clearRange s (placeS d 0) 0x10000000
  let s := clearRange s (placeP (128 * d) 0) (128 * 2 ^ 20)
  let s := clearRange s (placeE (128 * d) 0) (128 * 2 ^ 18)
  clearRange s (placeI (128 * d) 0) (128 * 2 ^ 16)

/-- RESET begins (R376, R378, R379): the links go into reset with the die, and the record of the die reset is appended. -/
def resetDie (d : Nat) (s : State) : State :=
  dieCommand s d 4 (fun s x =>
    let s := setDie s d { x with st := 4 }
    let s := (dieLinks d).foldl (fun s l => setLink s l { getLink s l with st := 0 }) s
    let s := (s.seqs.map (·.1) ++ s.seqs.filterMap (fun p => westOf p.1)).eraseDups.foldl (loseRows d) s
    let s := restartDie s d
    { s with events := s.events ++ [{ die := d, unit := 11, loc := 0, kind := 0x20 }] })

/-- DRCTL_RESET (R376). -/
def execDrctlReset (die : Nat) (s : State) : Out := dieStep die s (resetDie die)

/-- RESET_DONE (R376): the die's logic is out of reset. -/
def execResetDone (die : Nat) (s : State) : Out :=
  dieEnd "RESET_DONE" die 4 (fun _ => true) (fun x s => setDie s die { x with st := 5 }) s

/-! ## Training and admission (R376, R379) -/

/-- RETRAIN begins: both links train. -/
def retrainDie (d : Nat) (s : State) : State :=
  dieCommand s d 5 (fun s x =>
    (dieLinks d).foldl (fun s l => let y := getLink s l; setLink s l { y with st := 1, train := y.train + 1, run := 0 })
      (setDie s d x))

/-- DRCTL_RETRAIN (R376). -/
def execDrctlRetrain (die : Nat) (s : State) : Out := dieStep die s (retrainDie die)

/-- TRAINED (R376): both links are up, or ERR 4 and the die stays in state 5. -/
def execTrained (die ok : Nat) (s : State) : Out :=
  dieEnd "TRAINED" die 5 (fun _ => true) (fun x s =>
    if ok = 0 then setDie s die { x with err := 4 }
    else (dieLinks die).foldl (fun s l => setLink s l { getLink s l with st := 2 }) (setDie s die { x with st := 6 })) s

/-- ADMIT (R376). -/
def execAdmit (die : Nat) (s : State) : Out := dieStep die s (fun s => dieCommand s die 6 (fun s x => setDie s die x))

/-- The three records of an admission (R379). -/
def admitRecords (s : State) (d : Nat) (x : DieReset) : List PeatEvent :=
  [{ die := d, unit := 9, loc := d, kind := 0x21, count := ((getLink s d).train - x.trains).toNat },
   { die := d, unit := 9, loc := 4 + d / 2, kind := 0x21, count := ((getLink s (4 + d / 2)).train - x.seamTrains).toNat },
   { die := d, unit := 11, loc := 0, kind := 0x22, count := x.stray.toNat }]

/-- ADMIT_DONE (R376, R379): firmware that matches its measurement returns the die to service with its staithes reloaded, each
damaged word of the save area recorded (22 R383); otherwise ERR 5, and no later command is accepted. -/
def execAdmitDone (die ok : Nat) (s : State) : Out :=
  dieEnd "ADMIT_DONE" die 6 (fun _ => true) (fun x s =>
    if ok = 0 then
      setDie { s with events := s.events ++ [{ die := die, unit := 11, loc := 0, kind := 0x23 }] } die { x with err := 5, locked := true }
    else
      let s := (List.range 128).foldl (fun s k => carryRange s (staithePlace die (0x200000 * k)) (placeS die (0x200000 * k)) 0x200000) s
      setDie { s with events := s.events ++ admitRecords s die x } die { x with st := 0, count := x.count + 1 }) s

end Sys2Proof.Machine
end

