-- ==== Sys2Proof/Machine/Package.lean ====
section
/-! DEFINITION. Links, Dareth ports, the second tier, power and temperature, the measured start (22 R382, R392 to R400,
20 R372). -/

namespace Sys2Proof.Machine

/-! ## Requests lost on a link that fails (R392, R393) -/

/-- Whether a request from a die or the hub to a fabric address is lost. -/
abbrev Loses := Nat → Nat → Bool

/-- The fabric address of the next element at an end of a copy; none for an end that is not D. -/
def endFabric (s : State) (n : Nat) (r : CopyRun) (source : Bool) : Option Nat :=
  let x := if source then r.src else r.dst
  if x.space ≠ 0 then none
  else match copyKind r.cmd.op with
    | .rows => some (fabricOf x x.addr)
    | .blocks => some (fabricOf x x.addr)
    | k => some (fabricOf x (unitAt x r.convert (cpEsz r.cmd) (if source then sourcePos s n k r.cmd r.next else destPos s n k r.cmd r.next)).1)

/-- A copy whose next request is on the failing link gets an error reply for it. -/
def loseCopy (s : State) (n : Nat) (lost : Loses) (r : CopyRun) : CopyRun :=
  if r.wait ≠ 0 ∨ r.total ≤ r.next ∨ !Config.inFlight (s.free + r.cmd.serial) then r
  else if (endFabric s n r true).any (lost n) then { r with failR := ((endFabric s n r true).map pageOf).toList }
  else if (endFabric s n r false).any (lost n) then { r with failW := ((endFabric s n r false).map pageOf).toList }
  else r

/-- A translated atomic on the failing link gets an error reply. -/
def loseNet (clock : Nat) (n : Nat) (lost : Loses) (r : NetRun) : NetRun :=
  if r.phase = 1 ∧ lost n r.fa then { r with status := 2, phase := 2, wait := 0, ready := clock } else r

/-- The requests in flight on a failing link are answered "link failed"; posts on it post nothing. -/
def loseRequests (s : State) (lost : Loses) : State :=
  let gone := s.posts.filter (fun p => lost p.seq p.fabric)
  let s := { s with posts := s.posts.filter (fun p => !lost p.seq p.fabric), free := s.free + 1 }
  let s := gone.foldl (fun s p => settlePost s p false) s
  { s with seqs := s.seqs.map (fun p => (p.1, { p.2 with
      cpy := { p.2.cpy with running := p.2.cpy.running.map (loseCopy s p.1 lost) },
      net := { p.2.net with running := p.2.net.running.map (loseNet s.clock p.1 lost) } })) }

/-! ## UCIe links (R392) -/

/-- Rows owed across a failed causeway are lost as R302 loses them. -/
def loseCausewayRows (l : Nat) (s : State) (w : Nat) : State :=
  if 4 ≤ l ∧ w / 256 = l - 4 then
    (match eastOf w with
     | some e => loseRows (e / 128) s w
     | none => s)
  else s

/-- LINK_FAILED: link `l` has failed replay 8 times in a row (R392). -/
def execLinkFailed (l : Nat) (s : State) : Out :=
  if 6 ≤ l then .fault (.noSuchUnit "link" l)
  else
    let x := getLink s l
    if x.st = 2 ∧ 8 ≤ x.run then
      let s := setLink s l { x with st := 4, run := 0 }
      let s := loseRequests s (fun n fa => (linksBetween (n / 128) (targetDie fa)).contains l)
      let s := (s.seqs.map (·.1)).foldl (loseCausewayRows l) s
      .next { s with events := s.events ++ [{ die := if l < 4 then l else 2 * (l - 4), unit := 9, loc := l, kind := 0x11, syn := 4 }] }
    else .refused (.notEnabled "LINK_FAILED")

/-! ## Dareth ports (R393) -/

def getPort (s : State) (p : Nat) : Port := tget {} s.ports p
def setPort (s : State) (p : Nat) (x : Port) : State := { s with ports := tset s.ports p x }
def portStep (p : Nat) (s : State) (f : State → State) : Out := if 144 ≤ p then .fault (.noSuchUnit "port" p) else .next (f s)

/-- PORT_DOWN: port `p` has failed replay 8 times in a row (R393). -/
def execPortDown (p : Nat) (s : State) : Out :=
  if 144 ≤ p then .fault (.noSuchUnit "port" p)
  else
    let x := getPort s p
    if (x.st = 2 ∨ x.st = 3) ∧ 8 ≤ x.run then
      let lost := loseRequests s (fun n fa => faPackage fa != Config.ownPackage && routeOf s n (faPackage fa) == some p)
      let s := setPort lost p { x with st := 4, run := 0 }
      .next { s with events := s.events ++ [{ die := p / 36, unit := 8, loc := p, kind := 0x11, syn := 4 }] }
    else .refused (.notEnabled "PORT_DOWN")

/-- ENABLE: a disabled port trains (log entry 62). -/
def enablePort (p : Nat) (s : State) : State := let x := getPort s p; if x.st = 0 then setPort s p { x with st := 1, run := 0 } else s

/-- DISABLE: the port is disabled. -/
def disablePort (p : Nat) (s : State) : State := setPort s p { getPort s p with st := 0, run := 0 }

/-- RETRAIN: a port that is not disabled trains again. -/
def retrainPort (p : Nat) (s : State) : State := let x := getPort s p; if x.st = 0 then s else setPort s p { x with st := 1, run := 0 }

/-- ENABLE (R393). -/
def execEnable (p : Nat) (s : State) : Out := portStep p s (enablePort p)

/-- DISABLE (R393). -/
def execDisable (p : Nat) (s : State) : Out := portStep p s (disablePort p)

/-- PCTL_RETRAIN (R393). -/
def execPctlRetrain (p : Nat) (s : State) : Out := portStep p s (retrainPort p)

/-- PORT_TRAINING_DONE (R393). -/
def execPortTrainingDone (p : Nat) (s : State) : Out :=
  if 144 ≤ p then .fault (.noSuchUnit "port" p)
  else if (getPort s p).st = 1 then .next (setPort s p { getPort s p with st := 2 })
  else .refused (.notEnabled "PORT_TRAINING_DONE")

/-- PORT_DEGRADED (R393). -/
def execPortDegraded (p : Nat) (s : State) : Out :=
  if 144 ≤ p then .fault (.noSuchUnit "port" p)
  else if (getPort s p).st = 2 then .next (setPort s p { getPort s p with st := 3 })
  else .refused (.notEnabled "PORT_DEGRADED")

/-- LINK_REPLAY (R382, R392, R393): a flit of a UCIe link (`port` = 0) or a Dareth port fails its check, and is corrected by
FEC (`fec` ≠ 0) or replayed. -/
def execLinkReplay (port idx fec : Nat) (s : State) : Out :=
  if port = 0 then
    if 6 ≤ idx then .fault (.noSuchUnit "link" idx)
    else
      let x := getLink s idx
      let e : PeatEvent := { die := if idx < 4 then idx else 2 * (idx - 4), unit := 9, loc := idx, kind := 0x10, syn := 4, count := if fec = 0 then 1 else 0 }
      if x.st = 2 then
        .next { setLink s idx (if fec = 0 then { x with replay := x.replay + 1, run := x.run + 1 } else { x with run := 0 }) with events := s.events ++ [e] }
      else .refused (.notEnabled "LINK_REPLAY")
  else if 144 ≤ idx then .fault (.noSuchUnit "port" idx)
  else
    let x := getPort s idx
    let e : PeatEvent := { die := idx / 36, unit := 8, loc := idx, kind := 0x10, syn := 4, count := if fec = 0 then 1 else 0 }
    if x.st = 2 ∨ x.st = 3 then
      .next { setPort s idx (if fec = 0 then { x with fecunc := x.fecunc + 1, replay := x.replay + 1, run := x.run + 1 }
                             else { x with feccor := x.feccor + 1, run := 0 }) with events := s.events ++ [e] }
    else .refused (.notEnabled "LINK_REPLAY")

/-! ## The second tier (R396) -/

def getCxl (s : State) (c : Nat) : Cxl := tget {} s.cxl c
def setCxl (s : State) (c : Nat) (x : Cxl) : State := { s with cxl := tset s.cxl c x }

/-- CXL_PORT_TRAINED: the memory on port `port` is up with `cap` units of 256 MiB; `cap` = 0 on an absent port is the memory being found,
which begins the training (R396; log entry 63). -/
def execCxlPortTrained (port cap : Nat) (s : State) : Out :=
  if 8 ≤ port then .fault (.noSuchUnit "CXL port" port)
  else
    let x := getCxl s port
    if x.st = 0 ∧ cap % 2 ^ 16 = 0 then .next (setCxl s port { x with st := 1 })
    else if x.st = 0 ∨ x.st = 1 then .next (setCxl s port { x with st := 2, cap := cap % 2 ^ 16 })
    else .refused (.notEnabled "CXL_PORT_TRAINED")

/-- CXL_PORT_FAILURE: every request for the port's lines is answered "target unavailable" from now on (R396). -/
def execCxlPortFailure (port : Nat) (s : State) : Out :=
  if 8 ≤ port then .fault (.noSuchUnit "CXL port" port)
  else
    let x := getCxl s port
    if x.st = 2 then
      let s := setCxl s port { x with st := 3 }
      .next { s with events := s.events ++ [{ die := 4, unit := 10, loc := port, kind := 0x11, syn := 4 }] }
    else .refused (.notEnabled "CXL_PORT_FAILURE")

/-! ## Power and temperature (R398 to R400) -/

/-- One millisecond in tenths of the 600 MHz timestamp. -/
def millisecond : Nat := 6000000

/-- The step that the hub takes on its sensors (R399): down over a limit, up below 95 % of both. -/
def nextClockStep (m : Mgmt) : Nat :=
  if m.pwrcap.toNat < m.pwrnow.toNat ∨ m.twarn.toNat < m.temp.toNat then min 3 (m.clkstep + 1)
  else if 100 * m.pwrnow.toNat < 95 * m.pwrcap.toNat ∧ 100 * m.temp.toNat < 95 * m.twarn.toNat then m.clkstep - 1
  else m.clkstep

/-- A context is reported fatal (R400, 20 R355). -/
def reportFatal (s : State) (c : Nat) : State :=
  writeCstat (modCtx s c (fun x => { x with life := 4, cut := .none })) c 3

/-- Every clock of the compute dies stops, and every context is reported fatal (R400). -/
def tripDies (s : State) : State :=
  if s.halted then s else { (s.ctxs.map (·.1)).foldl reportFatal s with halted := true }

/-- Whether the hub may step now: a millisecond after its last step (R399). -/
def mayStep (s : State) (m : Mgmt) : Bool :=
  match m.lastStep with
  | some t => decide (t + millisecond ≤ s.stamp)
  | none => true

/-- Whether a step is owed on the readings as they stand, since the last one or a written limit left an excess (R399). -/
def stepOwed (s : State) : Bool := nextClockStep s.mgmt != s.mgmt.clkstep && mayStep s s.mgmt

/-- CLOCK_STEP: the sensors read `power` watts and `temp` eighths of a degree, and currents and a voltage that are free values (log entry
87); the hub takes at most one step a millisecond. TEMP at TTRIP stops the compute dies (R400). -/
def execClockStep (power temp : Nat) (s : State) : Out :=
  let m := { s.mgmt with pwrnow := BitVec.ofNat 64 (power % 2 ^ 12), temp := BitVec.ofNat 64 (temp % 2 ^ 16),
                         rails := (Config.freeBits 48 s.free 9600).setWidth 64 }
  let k := nextClockStep m
  let t : State := { s with free := s.free + 1, mgmt := if k ≠ m.clkstep ∧ mayStep s m then { m with clkstep := k, lastStep := some s.stamp } else m }
  .next (if m.ttrip.toNat ≤ m.temp.toNat then tripDies t else t)

/-- THERMAL_TRIP: TEMP reaches TTRIP; every clock of the compute dies stops, and every context is reported fatal (R400). -/
def execThermalTrip (temp : Nat) (s : State) : Out :=
  if temp % 2 ^ 16 < s.mgmt.ttrip.toNat then .refused (.notEnabled "THERMAL_TRIP")
  else .next (tripDies { s with mgmt := { s.mgmt with temp := BitVec.ofNat 64 (temp % 2 ^ 16) } })

/-! ## Measured start (20 R372) -/

/-- MEASURED_START: the boot ROM measures stage `stage`, the next one, into its slot before the stage runs. Where the
firmware image does not verify it measures no firmware stage and waits for the host. -/
def execMeasuredStart (stage : Nat) (s : State) : Out :=
  if 8 ≤ stage then .fault (.noSuchUnit "stage" stage)
  else
    let m := s.mgmt
    if m.bootWaits ∨ stage ≠ m.booted then .refused (.notEnabled "MEASURED_START")
    else if stage = 2 ∧ !m.pushed ∧ !Config.imageVerifies then .next { s with mgmt := { m with bootWaits := true } }
    else .next { s with mgmt := { m with booted := stage + 1, slots := m.slots.set stage (Config.stageMeasurement stage) } }

/-- FIRMWARE_PUSH: the host pushes an image to the waiting boot ROM; `ok` tells whether it verifies. -/
def execFirmwarePush (ok : Nat) (s : State) : Out :=
  if !s.mgmt.bootWaits then .refused (.notEnabled "FIRMWARE_PUSH")
  else if ok = 0 then .next s
  else .next { s with mgmt := { s.mgmt with bootWaits := false, pushed := true } }

/-- The answer to GET_MEASUREMENTS: a report of all sixteen slots, signed twice. -/
def attest (s : State) : State :=
  let r : Report := { slots := s.mgmt.slots, ecdsa := Config.reportEcdsa s.mgmt.slots, lms := Config.reportLms s.mgmt.slots }
  { s with mgmt := { s.mgmt with reports := s.mgmt.reports ++ [r] } }

/-- GET_MEASUREMENTS, by whichever path it reaches the attestation responder (R397, R401). -/
def execGetMeasurements (s : State) : Out := .next (attest s)

end Sys2Proof.Machine
end

