-- ==== Sys2Proof/Machine/HostRegs.lean ====
section
/-! DEFINITION. The host's register windows (20 R349, R353, R360, R370, 21 R375, 22 R388, R391 to R398): what a write of a
register does, and what a read returns. -/

namespace Sys2Proof.Machine

/-- The state of a step that goes on, or the one given. -/
def stateOf (s : State) : Out → State
  | .next t => t
  | _ => s

/-! ## Writes -/

/-- A QCFG write (R349): on an enabled queue EN alone counts. Another queue's shape or context has other packets, so no DEP of theirs is met. -/
def writeQcfg (s : State) (q : Nat) (w : Word) : State :=
  let x := getQueue s q
  let en := anyBit w 11 1
  if qEn x then (if en then s else disableQueue s q)
  else
    let s := setQueue s q { x with cfg := w &&& 0x7FF, depOk := if w &&& 0x7FF = x.cfg &&& 0x7FF then x.depOk else [] }
    if en then enableQueue s q else s

/-- A write in a queue's block (R349); with EN = 1, QBASE and QRIDX stand. -/
def writeQueue (s : State) (q off : Nat) (w : Word) : State :=
  let x := getQueue s q
  match off with
  | 0x00 => if qEn x then s else setQueue s q { x with base := w, depOk := if w = x.base then x.depOk else [] }
  | 0x08 => writeQcfg s q w
  | 0x10 => if qEn x then s else setQueue s q { x with ridx := w }
  | 0x18 => if anyBit w 0 1 then resetQueue s q (anyBit w 1 1) else s
  | _ => s

/-- A CMCMD write (R360): BUSY is set until the front core has carried the command out; while it is set, writes are ignored. -/
def writeCmcmd (s : State) (w : Word) : State :=
  if cmBusy s then s else { s with cmstat := 1, cmcmd := some (w &&& 0xFFF) }

/-- A DRCTL write (21 R375, R376). -/
def writeDrctl (s : State) (d : Nat) (w : Word) : State :=
  match fieldN w 0 3 with
  | 1 => quiesceDie d s
  | 2 => linkstopDie d s
  | 3 => dieCommand s d 3 (fun s x => setDie s d x)
  | 4 => resetDie d s
  | 5 => retrainDie d s
  | 6 => dieCommand s d 6 (fun s x => setDie s d x)
  | _ => s

/-- A DBGCMD write (16 R313, 22 R397). -/
def writeDbgcmd (s : State) (w : Word) : State :=
  let n := fieldN w 8 9
  if dbgBusy s then s
  else match fieldN w 0 8 with
    | 1 => stateOf s (execHalt s)
    | 2 => stateOf s (execRun s)
    | 3 => stateOf s (execCstep s)
    | 4 => stateOf s (execBstep n s)
    | 5 => stateOf s (execRead n s)
    | 6 => stateOf s (execWrite n s)
    | 7 => stateOf s (execBrken s)
    | _ => dbgDone s 6

/-- A PCTL write (22 R393): ENABLE, then RETRAIN, then DISABLE where several bits are set (log entry 62). -/
def writePctl (s : State) (p : Nat) (w : Word) : State :=
  let s := if anyBit w 0 1 then enablePort p s else s
  let s := if anyBit w 2 1 then retrainPort p s else s
  if anyBit w 1 1 then disablePort p s else s

def setMgmt (s : State) (f : Mgmt → Mgmt) : State := { s with mgmt := f s.mgmt }

/-- BAR0 (20 R349, R360, R370). -/
def writeBar0 (s : State) (off : Nat) (w : Word) : State :=
  match off with
  | 0x110 => if s.lock then s else { s with faccept := putBits s.faccept 0 w &&& Config.foffer }
  | 0x118 => if s.lock then s else { s with faccept := putBits s.faccept 64 w &&& Config.foffer }
  | 0x120 => if anyBit w 0 1 then stateOf s (execLock s) else s
  | 0x1000 => writeCmcmd s w
  | 0x1008 => { s with cmarg0 := w }
  | 0x1010 => { s with cmarg1 := w }
  | 0x1018 => { s with cmarg2 := w }
  | _ =>
    if 0x10000 ≤ off ∧ off < 0x10200 ∧ off % 8 = 0 then modQueue s ((off - 0x10000) / 8) (fun x => { x with note := bits w 0 32 })
    else if 0x20000 ≤ off ∧ off < 0x21000 then writeQueue s ((off - 0x20000) / 64) (off % 64) w
    else s

/-- A PLCTL write (22 R388): HEAD or SEAL begins; while one is in progress it is ignored. -/
def writePlctl (s : State) (w : Word) : State :=
  let k := fieldN w 0 3
  if s.peat.busy = 0 ∧ (k = 1 ∨ k = 2) then { s with peat := { s.peat with busy := k } } else s

/-- BAR2 (22 R388, R391, R393, R394, R397, R398, 21 R375). -/
def writeBar2 (s : State) (off : Nat) (w : Word) : State :=
  match off with
  | 0x2000 => writePlctl s w
  | 0x2020 => { s with peat := { s.peat with hbuf := w } }
  | 0x2028 => { s with peat := { s.peat with ridx := BitVec.ofNat 64 (fieldN w 0 20) } }
  | 0x3000 => if 500 ≤ fieldN w 0 12 ∧ fieldN w 0 12 ≤ 2800 then setMgmt s (fun m => { m with pwrcap := BitVec.ofNat 64 (fieldN w 0 12) }) else s
  | 0x3020 => setMgmt s (fun m => { m with twarn := BitVec.ofNat 64 (fieldN w 0 16) })
  | 0x5000 => if fieldN w 0 2 = 1 then retireSite s (siteOfPackage (fieldN w 2 12)) else s
  | 0x10000 => writeDbgcmd s w
  | 0x10008 => setMgmt s (fun m => { m with dbgarg := w })
  | 0x10010 => setMgmt s (fun m => { m with dbgdata := w })
  | 0x10020 => setMgmt s (fun m => { m with dbgctx := BitVec.ofNat 64 (fieldN w 0 4) })
  | 0x10080 => setMgmt s (fun m => { m with ctrseq := BitVec.ofNat 64 (fieldN w 0 9) })
  | _ =>
    if 0x4000 ≤ off ∧ off < 0x4100 ∧ off % 64 = 0 then writeDrctl s ((off - 0x4000) / 64) w
    else if 0x8000 ≤ off ∧ off < 0x8000 + 64 * 144 ∧ off % 64 = 8 then writePctl s ((off - 0x8000) / 64) w
    else if 0xC000 ≤ off ∧ off < 0xC800 ∧ off % 8 = 0 then { s with routes := tset s.routes ((off - 0xC000) / 8) (w &&& 0x7FFFFFFFF) }
    else s

/-- The registers that I3C and SMBus reach (22 R401). -/
def busReaches (off : Nat) : Bool := off == 0x2008 || off == 0x2010 || off == 0x2018 || (decide (0x3000 ≤ off) && decide (off < 0x3038))

/-- A write over I3C or SMBus: a PCIe write of the same register in the same clock stands (22 R401). -/
def writeBus (s : State) (off : Nat) (w : Word) : State := if busReaches off && !s.mgmt.pcieNow.contains off then writeBar2 s off w else s

/-! ## Reads -/

/-- A record of the Peat log as the host reads it (R385): the die 0 mirror, else the die 3 mirror, else zeros. -/
def readPeat (s : State) (k : Nat) : List Byte :=
  if s.peat.count ≤ k then List.replicate 64 0
  else if !poisoned s (mirrorPlace 0 k) 64 then readBytes s (mirrorPlace 0 k) 64
  else if !poisoned s (mirrorPlace 3 k) 64 then readBytes s (mirrorPlace 3 k) 64
  else List.replicate 64 0

/-- Whether both copies of the record being read are damaged (R385, R388). -/
def peatDamaged (s : State) : Bool :=
  let k := s.peat.ridx.toNat
  decide (k < s.peat.count) && poisoned s (mirrorPlace 0 k) 64 && poisoned s (mirrorPlace 3 k) 64

def flagN (b : Bool) (i : Nat) : Nat := if b then 2 ^ i else 0

/-- PLSTAT (R388). EMPTY is what a seal sets and a record clears; the table gives it 0 at reset (log entry 89). -/
def plstat (s : State) : Nat :=
  let p := s.peat
  p.count - 1 + flagN p.void 20 + flagN (decide (peatSize ≤ p.count)) 21 + flagN (p.busy != 0) 22 + flagN (peatDamaged s) 23 + 2 ^ 24 * p.result

/-- BAR0 as read. -/
def readBar0 (s : State) (off : Nat) : Word :=
  match off with
  | 0x100 => bits Config.foffer 0 64
  | 0x108 => bits Config.foffer 64 64
  | 0x110 => bits s.faccept 0 64
  | 0x118 => bits s.faccept 64 64
  | 0x120 => if s.lock then 1 else 0
  | 0x200 => s.frame
  | 0x1008 => s.cmarg0
  | 0x1010 => s.cmarg1
  | 0x1018 => s.cmarg2
  | 0x1020 => s.cmstat
  | _ =>
    if 0x20000 ≤ off ∧ off < 0x21000 then
      let x := getQueue s ((off - 0x20000) / 64)
      (match off % 64 with
       | 0x00 => x.base
       | 0x08 => x.cfg
       | 0x10 => x.ridx
       | 0x20 => BitVec.ofNat 64 x.state ||| (x.note.setWidth 64 <<< 32)
       | _ => 0)
    else if 0x30000 ≤ off ∧ off < 0x30800 then bits (getQueue s ((off - 0x30000) / 32)).qerr (8 * (off % 32)) 64
    else 0

/-- A stream counter of the selected sequencer (11 R242): those of decisions and cuts read zero while their feature is not accepted
(00_scope R11; log entry 74). -/
def readCounter (s : State) (i : Nat) : Word :=
  if (i = 1 ∨ i = 2 ∨ i = 3) ∧ !anyBit s.faccept 1 1 then 0 else at' (getSeq s s.mgmt.ctrseq.toNat).counters i 0

/-- The management registers as read (22 R398, R397). -/
def readMgmt (s : State) (off : Nat) : Word :=
  let m := s.mgmt
  match off with
  | 0x3000 => m.pwrcap
  | 0x3008 => m.pwrnow
  | 0x3010 => BitVec.ofNat 64 m.clkstep
  | 0x3018 => m.temp
  | 0x3020 => m.twarn
  | 0x3028 => m.ttrip
  | 0x3030 => m.rails
  | 0x10008 => m.dbgarg
  | 0x10010 => m.dbgdata
  | 0x10018 => m.dbgstat
  | 0x10020 => m.dbgctx
  | 0x10080 => m.ctrseq
  | _ => if 0x10100 ≤ off ∧ off < 0x10128 then readCounter s ((off - 0x10100) / 8) else 0

/-- BAR2 as read. The registers of the second tier read zero while its feature is not accepted (00_scope R11; log entry 74). -/
def readBar2 (s : State) (off : Nat) : Word :=
  if 0x2040 ≤ off ∧ off < 0x2080 then BitVec.ofNat 64 (leNat (((readPeat s s.peat.ridx.toNat).drop (off - 0x2040)).take 8))
  else if 0x4000 ≤ off ∧ off < 0x4100 then
    let x := getDie s ((off - 0x4000) / 64)
    match off % 64 with
    | 0x08 => BitVec.ofNat 64 (x.st + flagN x.busy 3 + 2 ^ 8 * x.err)
    | 0x10 => x.stray
    | 0x18 => x.count
    | 0x20 => x.wb
    | _ => 0
  else if 0x5100 ≤ off ∧ off < 0x5300 then
    (List.range 64).foldl (fun w i =>
      if (getSite s (siteOfPackage (8 * (off - 0x5100) + i))).retired then w ||| (1 <<< i) else w) 0
  else if 0x6000 ≤ off ∧ off < 0x60C0 then
    let x := getLink s ((off - 0x6000) / 32)
    match off % 32 with
    | 0x00 => BitVec.ofNat 64 x.st
    | 0x08 => x.train
    | 0x10 => x.replay
    | _ => 0
  else if 0x7000 ≤ off ∧ off < 0x7100 then
    let x := if anyBit s.faccept 5 1 then getCxl s ((off - 0x7000) / 32) else {}
    match off % 32 with
    | 0x00 => BitVec.ofNat 64 x.st
    | 0x08 => BitVec.ofNat 64 x.cap
    | 0x10 => x.pois
    | _ => 0
  else if 0x8000 ≤ off ∧ off < 0x8000 + 64 * 144 then
    let x := getPort s ((off - 0x8000) / 64)
    match off % 64 with
    | 0x00 => BitVec.ofNat 64 x.st
    | 0x10 => x.feccor
    | 0x18 => x.fecunc
    | 0x20 => x.replay
    | 0x28 => x.tx
    | 0x30 => x.rx
    | _ => 0
  else if 0xC000 ≤ off ∧ off < 0xC800 then tget 0 s.routes ((off - 0xC000) / 8)
  else match off with
    | 0x2008 => BitVec.ofNat 64 (plstat s)
    | 0x2010 => s.peat.vol.setWidth 64
    | 0x2018 => s.peat.lost
    | 0x2020 => s.peat.hbuf
    | 0x2028 => s.peat.ridx
    | _ => readMgmt s off

/-- What a host read of the 64-bit register at an offset of a window returns; write-only and reserved registers read zero. The manual gives
BAR4 no layout: it reads as free bits (log entry 88). -/
def hostRead (s : State) (bar off : Nat) : Word :=
  match bar with
  | 0 => readBar0 s off
  | 2 => readBar2 s off
  | 4 => Config.freeBits 64 s.free (9700 + off)
  | 8 => if busReaches off then readBar2 s off else 0
  | _ => 0

/-- What a host's read leaves behind: the damaged words met in a mirror of the record read, and, where the die 0 copy is damaged, in the other
(R383, R385). -/
def readLeaves (s : State) (bar off : Nat) : State :=
  let k := s.peat.ridx.toNat
  let noted (d : Nat) (s : State) : State := (damagedIn s (mirrorPlace d k) 64).foldl recordDamage s
  if (bar = 2 ∨ bar = 8 ∧ busReaches off) ∧ 0x2040 ≤ off ∧ off < 0x2080 ∧ k < s.peat.count then
    (if poisoned s (mirrorPlace 0 k) 64 then noted 3 (noted 0 s) else s)
  else s

/-! ## The host's accesses as steps -/

/-- REGISTER_WRITE: the host writes a register (R349); reserved bits and read-only registers ignore it (00_scope R7). While
the boot ROM waits for an image it offers no queue (20 R372). Window 4 is BAR4, and 9 MCTP: what is written there is a message to the
attestation responder (22 R397, R401, log entry 88); 8 is the register window of I3C and SMBus. Windows 16 and
up stand for a host's read of window `bar` − 16: the table of steps has no row of its own for it (log entry 109). -/
def execRegisterWrite (bar off value : Nat) (s : State) : Out :=
  let w : Word := BitVec.ofNat 64 value
  .next (match bar with
    | 0 => if s.mgmt.bootWaits then s else writeBar0 s off w
    | 2 => setMgmt (writeBar2 s off w) (fun m => { m with pcieNow := m.pcieNow ++ [off] })
    | 4 => attest s
    | 8 => writeBus s off w
    | 9 => attest s
    | _ => if 16 ≤ bar then readLeaves s (bar - 16) off else s)

end Sys2Proof.Machine
end

