-- ==== Sys2Proof/Machine/Clock.lean ====
section
/-! DEFINITION. The end of a clock: what counts down, what stands still in a debug halt (16 R307, R314), flags (03 R77), the
stop of a context after a fatal error (05 R118), the steps of the debugger (16 R315, R316), and the clock itself (22 R399). -/

namespace Sys2Proof.Machine

/-! ## A sequencer's clock -/

/-- A clock that sr.sched counts (05 R108, R110); in a handler the streams stand still (05 R114, 11 R239). -/
def tickTask (fr n : Nat) (q : Seq) : Seq :=
  let q := { q with
    sr := { q.sr with sched := q.sr.sched + 1 }, pending := q.pending.map (fun e => { e with left := e.left - 1 }),
    z := q.z.map (fun z => { z with vdec := z.vdec.map (fun d => { d with later := d.later.map (fun o => (o.1 - 1, o.2)) }) }) }
  if q.sr.hstat then q else tickStreams fr n q

/-- One clock of sequencer `n`, whose context is not halted; `ran` tells whether its task was resident in it: running, or draining
after END (05 R108, 21 R376). -/
def tickSeq (fr n : Nat) (ran : Bool) (q : Seq) : Seq :=
  let q := if ran then tickTask fr n q else q
  { q with segFetch := q.segFetch.map (fun f => { f with left := f.left - 1 }) }

/-! ## What stands still (16 R314) -/

/-- A command one clock later. -/
def shiftCmd (c : Command) : Command := { c with clock := c.clock + 1 }
def shiftRow (r : Row) : Row := { r with arrive := r.arrive + 1, sentAt := r.sentAt + 1 }

/-- A matrix engine that a clock passes by. -/
def shiftMatrix (m : Matrix) : Matrix :=
  { m with queue := m.queue.map shiftCmd, running := m.running.map (fun r => { r with doneAt := r.doneAt + 1 }),
           fills := m.fills.map (fun f => { f with doneAt := f.doneAt + 1, readAt := f.readAt + 1, opens := f.opens.map (fun o => (o.1, o.2 + 1)) }),
           routine := m.routine.map (fun r => { r with ready := r.ready + 1, posts := r.posts.map (fun p => { p with after := p.after + 1 }),
                                                       feed := r.feed.map (fun f => { f with start := f.start + 1, next := f.next + 1 }) }),
           edgeBuf := m.edgeBuf.map shiftRow, edgeNext := m.edgeNext + 1, sent := m.sent.map shiftRow,
           lodeBuf := m.lodeBuf.map (fun h => { h with clock := h.clock + 1 }), lastDone := m.lastDone + 1 }

/-- A sequencer of a halted context: nothing of it counts, and its engines' clocks move on with the package's. An atomic on its way
(phase 1) goes on to perform. -/
def shiftSeq (q : Seq) : Seq :=
  { q with mx := shiftMatrix q.mx,
           cpy := { q.cpy with queue := q.cpy.queue.map shiftCmd, running := q.cpy.running.map (fun r => { r with ready := r.ready + 1 }) },
           net := { q.net with queue := q.net.queue.map shiftCmd, running := q.net.running.map (fun r => if r.phase = 1 then r else { r with ready := r.ready + 1 }),
                               lastStart := q.net.lastStart + 1 } }

/-- The sites of a halted sequencer. -/
def shiftSite (x : Site) : Site := { x with opens := x.opens.map (fun o => (o.1, o.2 + 1)), portFree := x.portFree + 1 }

/-- The lode of a cluster with a halted sequencer. -/
def shiftLode (l : Lode) : Lode :=
  { l with origin := l.origin + 1, waiting := l.waiting.map (fun w => (w.1, w.2 + 1)),
           deliver := l.deliver.map (fun v => { v with arrive := v.arrive + 1 }),
           boundarySeen := if l.boundarySeen = 0 then 0 else l.boundarySeen + 1 }

/-- Whether no sequencer of a cluster belongs to a halted context. -/
def clusterLive (s : State) (cl : Nat) : Bool := (clusterSeqs cl).all (fun n => live s (getSeq s n))

/-- The words that fills have still to read, from this clock on, where the site's sequencer stands still: each a clock later. -/
def delayWords (clock : Nat) (still : Nat → Bool) (l : List PeatEvent) : List PeatEvent :=
  l.map (fun e => if e.unit = 1 ∧ clock ≤ e.due ∧ still (siteOwner (e.die * 1024 + e.loc)).1 then { e with due := e.due + 1 } else e)

/-- Everything that belongs to halted contexts stands still in this clock, the words their fills have still to read among it. -/
def shiftHalted (s : State) : State :=
  if s.ctxs.all (fun p => !p.2.halted) then s
  else
    { s with events := delayWords s.clock (fun n => !live s (getSeq s n)) s.events,
             sites := s.sites.map (fun p => if live s (getSeq s (siteOwner p.1).1) then p else (p.1, shiftSite p.2)),
             lodes := s.lodes.map (fun p => if clusterLive s p.1 then p else (p.1, shiftLode p.2)),
             seqs := s.seqs.map (fun p => if live s p.2 then p else (p.1, shiftSeq p.2)) }

/-! ## Contexts -/

/-- A context stopped by a fatal error in this clock: its sequencers stop, queued commands go, CSTAT reads 3 (R118, R355). -/
def stopFatal (s : State) (c : Nat) : State :=
  match getCtx s c with
  | some x => if x.life = 3 then writeCstat (setCtx (haltSeqs s c) c { x with life := 4, cut := .none }) c 3 else s
  | none => s

/-- The debugger's halts and steps at a clock boundary (R314 to R316); a halted clock is none that the context has run (20 R357). -/
def boundary (x : Ctx) : Ctx :=
  let x := if x.halted then { x with started := x.started + 1 } else x
  match x.halting with
  | some h => { x with halted := h, halting := none }
  | none =>
    if x.halted then x
    else
      let x := match x.stepLeft with
        | some k => { x with stepLeft := some (k - 1), halted := decide (k ≤ 1) || decide (3 ≤ x.life) || (x.stepSeq.isSome && x.stepIssued) }
        | none => x
      { x with halted := x.halted || !x.brkSeqs.isEmpty }

/-- What has run out in the last running clock of a context lands before it stands still (05 R110). -/
def settleContext (s : State) (c : Nat) : State :=
  { s with seqs := s.seqs.map (fun p => if p.2.ctx = some c then (p.1, settleSeq s.free s.clock p.2) else p), free := s.free + 1 }

/-- The boundary for context `c`; a HALT command is then done. -/
def contextBoundary (s : State) (c : Nat) : State :=
  match getCtx s c with
  | some x =>
    let s := if !x.halted && (boundary x).halted then settleContext s c else s
    let s := setCtx s c (boundary x)
    if x.halting = some true then dbgDone s 0 else s
  | none => s

/-! ## The clock -/

/-- Tenths of the 600 MHz timestamp that a clock of each step lasts (22 R398, R399). -/
def clockTenths (step : Nat) : Nat := match step with | 0 => 10 | 1 => 12 | 2 => 15 | _ => 20

/-- The clock itself, the timestamp and the front core's frame (20 R348, R349). -/
def advance (s : State) : State :=
  { s with clock := s.clock + 1, stamp := s.stamp + clockTenths s.mgmt.clkstep, ran := [],
           cmcmd := s.cmcmd.map (fun w => w &&& 0xFFF), mgmt := { s.mgmt with pcieNow := [] },
           frame := if s.clock % 1024 = 1023 then s.frame + 1 else s.frame }

/-- The sequencers that issue in the next clock. -/
def nextTurn (s : State) : List Nat := (s.seqs.filter (fun p => p.2.status == .running && live s p.2)).map (·.1)

/-- The clock of sequencer `n`: the bits it gathered for sr.fpstat are done, its tables count unless its context is halted, its flags
always. That the clock after which a quiet cut holds a sequencer still counts a result in flight down (R307, R110) is log entry 97. -/
def passClock (s : State) (n : Nat) (q : Seq) : Seq :=
  let q := { q with fpNow := 0 }
  tickFlags (if live s q then tickSeq s.free n (s.ran.contains n || q.status == .ending) q else q)

/-- The rows that are to cross a closed causeway: they cross from the next clock on at the earliest, one in four clocks (15 R295, R302; log entry 110). -/
def retimeRows : Nat → List Row → List Row
  | _, [] => []
  | first, r :: rest => let a := Nat.max r.arrive first; { r with arrive := a } :: retimeRows (a + 4) rest

/-- The rows of sequencer `n` that wait for its causeway while it carries none. -/
def holdRows (s : State) (n : Nat) (q : Seq) : Seq :=
  match eastOf n with
  | some e =>
    if q.mx.sent.isEmpty || !crossesCauseway n || linkOpen s e then q
    else { q with mx := { q.mx with sent := retimeRows (s.clock + 25) q.mx.sent } }
  | none => q

/-- The end of a clock. With the compute dies' clocks stopped only the hub goes on (22 R400), and no fill reads a word. -/
def tick (s : State) : State :=
  if s.halted then
    let s := (s.ctxs.map (·.1)).foldl stopFatal { s with events := delayWords s.clock (fun _ => true) s.events }
    { advance (logEvents s) with turn := [] }
  else
    let s : State := (s.seqs.map (·.1)).foldl (fun s n => if live s (getSeq s n) then performPosts s n else s) s
    let s : State := { s with seqs := s.seqs.map (fun p => (p.1, passClock s p.1 p.2)), free := s.free + 1 }
    let s : State := { s with seqs := s.seqs.map (fun p => if live s p.2 then (p.1, tickGroup s p.1 p.2) else p) }
    let s := shiftHalted s
    let s : State := { s with seqs := s.seqs.map (fun p => (p.1, holdRows s p.1 p.2)) }
    let s := (s.ctxs.map (·.1)).foldl stopFatal s
    let s := (s.ctxs.map (·.1)).foldl contextBoundary s
    let s : State := { s with seqs := s.seqs.map (fun p => (p.1, beginPlaced s p.1 p.2)) }
    let s := advance (logEvents s)
    { s with turn := nextTurn s }

end Sys2Proof.Machine
end

