-- ==== Sys2Proof/Machine/Control.lean ====
section
/-! DEFINITION. Control transfer (02 R62 to R71): branches with three delay slots, loops, CHK and TRET. -/

namespace Sys2Proof.Machine

/-- cond of R23 on a signed value. -/
def condHolds (c : BitVec 4) (x : Word) : Bool :=
  match c.toNat with
  | 0 => true
  | 1 => x == 0
  | 2 => x != 0
  | 3 => decide (x.toInt < 0)
  | 4 => decide (0 ≤ x.toInt)
  | 5 => decide (0 < x.toInt)
  | 6 => decide (x.toInt ≤ 0)
  | _ => false

/-- BR (02 R63). A poisoned condition does not hold as a branch in a shadow (log entry 90). -/
def execBr (c : BitVec 4) (a : BitVec 6) (o : BitVec 15) (s : State) : Out :=
  runSlot 1 (.br c a o) (fun s u =>
    if c = 0 then takeTransfer u (relTarget u o)
    else
      let x := opd s u 0 a
      if x.poison then addPoison u
      else if condHolds c x.bits then takeTransfer u (relTarget u o)
      else u) s

/-- JMP (02 R64). -/
def execJmp (o : BitVec 15) (s : State) : Out := runSlot 1 (.jmp o) (fun _ u => takeTransfer u (relTarget u o)) s

/-- JMPI (02 R64): a transfer whatever its operand holds; poison is consumed. -/
def execJmpi (a : BitVec 6) (s : State) : Out :=
  runSlot 1 (.jmpi a) (fun s u =>
    let x := opd s u 0 a
    let w := takeTransfer u (bits x.bits 0 11)
    if x.poison then addPoison w else w) s

/-- CALL (02 R65): the link is the bundle after the delay slots. -/
def execCall (o : BitVec 15) (s : State) : Out :=
  runSlot 1 (.call o) (fun _ u =>
    setScalar (takeTransfer u (relTarget u o)) 47#6 1 { bits := (u.start.pc + 4).setWidth 64 }) s

/-- RET (02 R65). -/
def execRet (s : State) : Out :=
  runSlot 1 .ret (fun s u =>
    let x := opd s u 0 47#6
    let w := takeTransfer u (bits x.bits 0 11)
    if x.poison then addPoison w else w) s

/-- LOOP (02 R66, R68): in a shadow it is the branch-in-shadow fault; a count of 0 skips the body. -/
def execLoop (a : BitVec 6) (o : BitVec 15) (s : State) : Out :=
  runSlot 1 (.loop a o) (fun s u =>
    let x := opd s u 0 a
    if u.start.shadow.isSome then addFault u 4 0
    else if x.poison then addPoison u
    else
      let n := fieldN x.bits 0 32
      let e := relTarget u o
      if n = 0 then { u with ctl := .skipLoop (e + 1) }
      else { u with ctl := .enterLoop ⟨u.start.pc + 1, e, n⟩ }) s

/-- CHK (02 R70): a taken transfer where the operand carries poison; it consumes none. -/
def execChk (a : BitVec 6) (o : BitVec 15) (s : State) : Out :=
  runSlot 1 (.chk a o) (fun s u =>
    if (opd s u 0 a).poison then takeTransfer u (relTarget u o) else u) s

/-- TRET (02 R71, 05 R117): the return from a handler, at the end of its bundle. -/
def execTret (s : State) : Out :=
  runSlot 1 .tret (fun _ u => if u.start.shadow.isSome then addFault u 4 0 else { u with ctl := .tret }) s

end Sys2Proof.Machine
end

