-- ==== Sys2Proof/Machine/Scalar.lean ====
section
/-! DEFINITION. Scalar arithmetic and logic, constants, staging and state registers (02 R46 to R51, R72 to R75). -/

namespace Sys2Proof.Machine

/-! ## Results (02 R46 to R50) -/

def b2w (c : Bool) : Word := if c then 1 else 0
def shAmt (y : Word) : Nat := fieldN y 0 6
def mulHigh (x y : Word) : Word := BitVec.ofInt 64 (x.toInt * y.toInt / (2 : Int) ^ 64)
def mulHighU (x y : Word) : Word := BitVec.ofNat 64 (x.toNat * y.toNat / 2 ^ 64)

/-- DIV (R48): truncation toward zero; y = 0 gives all ones; −2^63 / −1 wraps to −2^63. -/
def divS (x y : Word) : Word := if y = 0 then BitVec.allOnes 64 else BitVec.ofInt 64 (x.toInt.tdiv y.toInt)
def divU (x y : Word) : Word := if y = 0 then BitVec.allOnes 64 else BitVec.ofNat 64 (x.toNat / y.toNat)
/-- REM (R48): the sign of the dividend; y = 0 gives x; −2^63 rem −1 is 0. -/
def remS (x y : Word) : Word := if y = 0 then x else BitVec.ofInt 64 (x.toInt.tmod y.toInt)
def remU (x y : Word) : Word := if y = 0 then x else BitVec.ofNat 64 (x.toNat % y.toNat)

/-- The number of leading zeros of a number below 2^w. -/
def leadZeros (w n : Nat) : Nat := if n = 0 then w else w - 1 - Nat.log2 n

def trailZerosGo : Nat → Nat → Nat
  | 0, _ => 0
  | k + 1, n => if n % 2 = 1 then 0 else trailZerosGo k (n / 2) + 1

def popGo : Nat → Nat → Nat
  | 0, _ => 0
  | k + 1, n => n % 2 + popGo k (n / 2)

def clz64 (x : Word) : Word := BitVec.ofNat 64 (leadZeros 64 x.toNat)
def ctz64 (x : Word) : Word := BitVec.ofNat 64 (trailZerosGo 64 x.toNat)
def popc64 (x : Word) : Word := BitVec.ofNat 64 (popGo 64 x.toNat)

/-- BEXT (R47). -/
def bext64 (x y : Word) : Word := BitVec.ofNat 64 (x.toNat / 2 ^ fieldN y 0 6 % 2 ^ (fieldN y 6 6 + 1))

/-- BINS (R47). -/
def bins64 (x y z : Word) : Word :=
  let pos := fieldN z 0 6
  let m := BitVec.ofNat 64 ((2 ^ (fieldN z 6 6 + 1) - 1) * 2 ^ pos)
  (x &&& ~~~m) ||| (BitVec.ofNat 64 (y.toNat * 2 ^ pos) &&& m)

def signExt (n : Nat) (x : Word) : Word := BitVec.ofInt 64 (sRead n x.toNat)
def zeroExt (n : Nat) (x : Word) : Word := BitVec.ofNat 64 (x.toNat % 2 ^ n)
def imm13S (i : BitVec 13) : Word := i.signExtend 64
def imm13Z (i : BitVec 13) : Word := i.setWidth 64

/-! ## Operand forms -/

/-- `OP a, b -> d`: poison where an operand carries it (R43). -/
def scalar2 (f : Word → Word → Word) (bound : Nat) (d a b : BitVec 6) (s : State) (u : Bundle) : Bundle :=
  let x := opd s u 0 a
  let y := opd s u 1 b
  setScalar u d bound { bits := f x.bits y.bits, poison := x.poison || y.poison }

/-- `OP a -> d` and `OP a, #imm -> d`. -/
def scalar1 (f : Word → Word) (d a : BitVec 6) (s : State) (u : Bundle) : Bundle :=
  let x := opd s u 0 a
  setScalar u d 1 { bits := f x.bits, poison := x.poison }

/-! ## Meanings -/

/-- ADD (02 R46). -/
def execAdd (d a b : BitVec 6) (s : State) : Out :=
  runSlot 1 (.add d a b) (scalar2 (fun x y => x + y) 1 d a b) s

/-- SUB (02 R46). -/
def execSub (d a b : BitVec 6) (s : State) : Out :=
  runSlot 1 (.sub d a b) (scalar2 (fun x y => x - y) 1 d a b) s

/-- AND (02 R46). -/
def execAnd (d a b : BitVec 6) (s : State) : Out :=
  runSlot 1 (.and d a b) (scalar2 (fun x y => x &&& y) 1 d a b) s

/-- OR (02 R46). -/
def execOr (d a b : BitVec 6) (s : State) : Out :=
  runSlot 1 (.or d a b) (scalar2 (fun x y => x ||| y) 1 d a b) s

/-- XOR (02 R46). -/
def execXor (d a b : BitVec 6) (s : State) : Out :=
  runSlot 1 (.xor d a b) (scalar2 (fun x y => x ^^^ y) 1 d a b) s

/-- ANDN (02 R46). -/
def execAndn (d a b : BitVec 6) (s : State) : Out :=
  runSlot 1 (.andn d a b) (scalar2 (fun x y => x &&& ~~~y) 1 d a b) s

/-- SHL (02 R46). -/
def execShl (d a b : BitVec 6) (s : State) : Out :=
  runSlot 1 (.shl d a b) (scalar2 (fun x y => x <<< shAmt y) 1 d a b) s

/-- SHR (02 R46). -/
def execShr (d a b : BitVec 6) (s : State) : Out :=
  runSlot 1 (.shr d a b) (scalar2 (fun x y => x >>> shAmt y) 1 d a b) s

/-- SAR (02 R46). -/
def execSar (d a b : BitVec 6) (s : State) : Out :=
  runSlot 1 (.sar d a b) (scalar2 (fun x y => x.sshiftRight (shAmt y)) 1 d a b) s

/-- ROTL (02 R46). -/
def execRotl (d a b : BitVec 6) (s : State) : Out :=
  runSlot 1 (.rotl d a b) (scalar2 (fun x y => x.rotateLeft (shAmt y)) 1 d a b) s

/-- MIN (02 R46). -/
def execMin (d a b : BitVec 6) (s : State) : Out :=
  runSlot 1 (.min d a b) (scalar2 (fun x y => if x.slt y then x else y) 1 d a b) s

/-- MAX (02 R46). -/
def execMax (d a b : BitVec 6) (s : State) : Out :=
  runSlot 1 (.max d a b) (scalar2 (fun x y => if x.slt y then y else x) 1 d a b) s

/-- MINU (02 R46). -/
def execMinu (d a b : BitVec 6) (s : State) : Out :=
  runSlot 1 (.minu d a b) (scalar2 (fun x y => if x.ult y then x else y) 1 d a b) s

/-- MAXU (02 R46). -/
def execMaxu (d a b : BitVec 6) (s : State) : Out :=
  runSlot 1 (.maxu d a b) (scalar2 (fun x y => if x.ult y then y else x) 1 d a b) s

/-- MOV (02 R46). -/
def execMov (d a : BitVec 6) (s : State) : Out :=
  runSlot 1 (.mov d a) (scalar1 (fun x => x) d a) s

/-- MUL (02 R46). -/
def execMul (d a b : BitVec 6) (s : State) : Out :=
  runSlot 1 (.mul d a b) (scalar2 (fun x y => x * y) 3 d a b) s

/-- MULH (02 R46). -/
def execMulh (d a b : BitVec 6) (s : State) : Out :=
  runSlot 1 (.mulh d a b) (scalar2 (fun x y => mulHigh x y) 3 d a b) s

/-- MULHU (02 R46). -/
def execMulhu (d a b : BitVec 6) (s : State) : Out :=
  runSlot 1 (.mulhu d a b) (scalar2 (fun x y => mulHighU x y) 3 d a b) s

/-- DIV (02 R48). -/
def execDiv (d a b : BitVec 6) (s : State) : Out :=
  runSlot 2 (.div d a b) (scalar2 (fun x y => divS x y) 24 d a b) s

/-- DIVU (02 R48). -/
def execDivu (d a b : BitVec 6) (s : State) : Out :=
  runSlot 2 (.divu d a b) (scalar2 (fun x y => divU x y) 24 d a b) s

/-- REM (02 R48). -/
def execRem (d a b : BitVec 6) (s : State) : Out :=
  runSlot 2 (.rem d a b) (scalar2 (fun x y => remS x y) 24 d a b) s

/-- REMU (02 R48). -/
def execRemu (d a b : BitVec 6) (s : State) : Out :=
  runSlot 2 (.remu d a b) (scalar2 (fun x y => remU x y) 24 d a b) s

/-- SEL (02 R46): reads c and the selected operand only, and carries poison from those two. -/
def execSel (d a b c : BitVec 6) (s : State) : Out :=
  runSlot 1 (.sel d a b c) (fun s u =>
    let z := opd s u 2 c
    let x := if z.bits ≠ 0 then opd s u 0 a else opd s u 1 b
    setScalar u d 1 { bits := x.bits, poison := z.poison || x.poison }) s

/-- CLZ (02 R46). -/
def execClz (d a : BitVec 6) (s : State) : Out :=
  runSlot 1 (.clz d a) (scalar1 (fun x => clz64 x) d a) s

/-- CTZ (02 R46). -/
def execCtz (d a : BitVec 6) (s : State) : Out :=
  runSlot 1 (.ctz d a) (scalar1 (fun x => ctz64 x) d a) s

/-- POPC (02 R46). -/
def execPopc (d a : BitVec 6) (s : State) : Out :=
  runSlot 1 (.popc d a) (scalar1 (fun x => popc64 x) d a) s

/-- BEXT (02 R47). -/
def execBext (d a b : BitVec 6) (s : State) : Out :=
  runSlot 1 (.bext d a b) (scalar2 (fun x y => bext64 x y) 1 d a b) s

/-- BINS (02 R47). -/
def execBins (d a b c : BitVec 6) (s : State) : Out :=
  runSlot 1 (.bins d a b c) (fun s u =>
    let x := opd s u 0 a
    let y := opd s u 1 b
    let z := opd s u 2 c
    setScalar u d 1 { bits := bins64 x.bits y.bits z.bits, poison := x.poison || y.poison || z.poison }) s

/-- SEXT (02 R49). -/
def execSext (d a : BitVec 6) (n : BitVec 6) (s : State) : Out :=
  runSlot 1 (.sext d a n) (scalar1 (fun x => signExt n.toNat x) d a) s

/-- ZEXT (02 R49). -/
def execZext (d a : BitVec 6) (n : BitVec 6) (s : State) : Out :=
  runSlot 1 (.zext d a n) (scalar1 (fun x => zeroExt n.toNat x) d a) s

/-- CEQ (02 R46). -/
def execCeq (d a b : BitVec 6) (s : State) : Out :=
  runSlot 1 (.ceq d a b) (scalar2 (fun x y => b2w (x == y)) 1 d a b) s

/-- CNE (02 R46). -/
def execCne (d a b : BitVec 6) (s : State) : Out :=
  runSlot 1 (.cne d a b) (scalar2 (fun x y => b2w (x != y)) 1 d a b) s

/-- CLT (02 R46). -/
def execClt (d a b : BitVec 6) (s : State) : Out :=
  runSlot 1 (.clt d a b) (scalar2 (fun x y => b2w (x.slt y)) 1 d a b) s

/-- CLTU (02 R46). -/
def execCltu (d a b : BitVec 6) (s : State) : Out :=
  runSlot 1 (.cltu d a b) (scalar2 (fun x y => b2w (x.ult y)) 1 d a b) s

/-- CLE (02 R46). -/
def execCle (d a b : BitVec 6) (s : State) : Out :=
  runSlot 1 (.cle d a b) (scalar2 (fun x y => b2w (x.sle y)) 1 d a b) s

/-- CLEU (02 R46). -/
def execCleu (d a b : BitVec 6) (s : State) : Out :=
  runSlot 1 (.cleu d a b) (scalar2 (fun x y => b2w (x.ule y)) 1 d a b) s

/-- ADDI (02 R49). -/
def execAddi (d a : BitVec 6) (i : BitVec 13) (s : State) : Out :=
  runSlot 1 (.addi d a i) (scalar1 (fun x => x + imm13S i) d a) s

/-- ANDI (02 R49). -/
def execAndi (d a : BitVec 6) (i : BitVec 13) (s : State) : Out :=
  runSlot 1 (.andi d a i) (scalar1 (fun x => x &&& imm13Z i) d a) s

/-- ORI (02 R49). -/
def execOri (d a : BitVec 6) (i : BitVec 13) (s : State) : Out :=
  runSlot 1 (.ori d a i) (scalar1 (fun x => x ||| imm13Z i) d a) s

/-- XORI (02 R49). -/
def execXori (d a : BitVec 6) (i : BitVec 13) (s : State) : Out :=
  runSlot 1 (.xori d a i) (scalar1 (fun x => x ^^^ imm13Z i) d a) s

/-- SHLI (02 R49). -/
def execShli (d a : BitVec 6) (n : BitVec 6) (s : State) : Out :=
  runSlot 1 (.shli d a n) (scalar1 (fun x => x <<< n.toNat) d a) s

/-- SHRI (02 R49). -/
def execShri (d a : BitVec 6) (n : BitVec 6) (s : State) : Out :=
  runSlot 1 (.shri d a n) (scalar1 (fun x => x >>> n.toNat) d a) s

/-- SARI (02 R49). -/
def execSari (d a : BitVec 6) (n : BitVec 6) (s : State) : Out :=
  runSlot 1 (.sari d a n) (scalar1 (fun x => x.sshiftRight n.toNat) d a) s

/-- CEQI (02 R49). -/
def execCeqi (d a : BitVec 6) (i : BitVec 13) (s : State) : Out :=
  runSlot 1 (.ceqi d a i) (scalar1 (fun x => b2w (x == imm13S i)) d a) s

/-- CLTI (02 R49). -/
def execClti (d a : BitVec 6) (i : BitVec 13) (s : State) : Out :=
  runSlot 1 (.clti d a i) (scalar1 (fun x => b2w (x.slt (imm13S i))) d a) s

/-- CLTUI (02 R49). -/
def execCltui (d a : BitVec 6) (i : BitVec 13) (s : State) : Out :=
  runSlot 1 (.cltui d a i) (scalar1 (fun x => b2w (x.ult (imm13S i))) d a) s

/-- LUI (02 R50): sign-extended and multiplied by 2^13; it reads no operand. -/
def execLui (d : BitVec 6) (i : BitVec 19) (s : State) : Out :=
  runSlot 1 (.lui d i) (fun _ u => setScalar u d 1 { bits := i.signExtend 64 <<< 13 }) s

/-- MOVI (02 R50). -/
def execMovi (d : BitVec 6) (i : BitVec 19) (s : State) : Out :=
  runSlot 1 (.movi d i) (fun _ u => setScalar u d 1 { bits := i.signExtend 64 }) s

/-- STG (02 R72): the full value to a staging register at the end of the bundle; poison is consumed. -/
def execStg (sp a : BitVec 6) (s : State) : Out :=
  runSlot 1 (.stg sp a) (fun s u =>
    let x := opd s u 0 a
    if x.poison then addPoison u else mapWork u (fun q => stageWrite q sp.toNat x.bits)) s

/-- STGI (02 R73): one quarter of a staging register; with a write of the other slot the bits combine, slot 2's
standing (R74). -/
def execStgi (sp : BitVec 6) (q : BitVec 2) (i : BitVec 16) (s : State) : Out :=
  runSlot 1 (.stgi sp q i) (fun _ u =>
    mapWork u (fun w => stageWrite w sp.toNat (putBits (stageRead w sp.toNat) (16 * q.toNat) i))) s

/-- SRD (02 R75): a state register with latency 2; of sr.fpstat it is a flag retirement (11 R228). -/
def execSrd (d : BitVec 6) (r : BitVec 12) (s : State) : Out :=
  runSlot 2 (.srd d r) (fun s u =>
    let p := if r = 9 then retireAll u.start else u.start
    let u' := if r = 9 then mapWork u retireAll else u
    setScalar u' d 2 { bits := srWord s.faccept p u.seq r.toNat }) s

/-- SWR (02 R75, 05 R105): a state register at the end of the bundle; poison is consumed. Of sr.fpstat it is a flag
retirement; its bits and those of results that landed in this clock come in after the value (11 R228, 06 R135). The effects of a bundle on one
register come in slot order: of sr.seg the value stands over what a SEGB of the bundle's slot 0 set (log entry 126). -/
def execSwr (a : BitVec 6) (r : BitVec 12) (s : State) : Out :=
  runSlot 2 (.swr a r) (fun s u =>
    let x := opd s u 0 a
    if x.poison then addPoison u
    else
      let w := mapWork u (fun q => { q with sr := writeSr q.sr r.toNat x.bits })
      if r = 9 then mapWork w (fun q => retireAll (orFpstat q q.fpNow)) else w) s

end Sys2Proof.Machine
end

