-- ==== Sys2Proof/Machine/Dispatch.lean ====
section
/-! DEFINITION. The dispatch: one meaning per instruction. -/

namespace Sys2Proof.Machine

def exec (i : Instr) (s : State) : Host.Outcome State Fault Refusal :=
  match i with
  | .nop => Sys2Proof.Machine.execNop s
  | .wait f o t => Sys2Proof.Machine.execWait f o t s
  | .waitc f o t => Sys2Proof.Machine.execWaitc f o t s
  | .post f o sx n => Sys2Proof.Machine.execPost f o sx n s
  | .clrf f => Sys2Proof.Machine.execClrf f s
  | .quiet l => Sys2Proof.Machine.execQuiet l s
  | .segb sx => Sys2Proof.Machine.execSegb sx s
  | .brk c => Sys2Proof.Machine.execBrk c s
  | .trapi c => Sys2Proof.Machine.execTrapi c s
  | .drain sx => Sys2Proof.Machine.execDrain sx s
  | .endOp => Sys2Proof.Machine.execEndOp s
  | .add d a b => Sys2Proof.Machine.execAdd d a b s
  | .sub d a b => Sys2Proof.Machine.execSub d a b s
  | .and d a b => Sys2Proof.Machine.execAnd d a b s
  | .or d a b => Sys2Proof.Machine.execOr d a b s
  | .xor d a b => Sys2Proof.Machine.execXor d a b s
  | .andn d a b => Sys2Proof.Machine.execAndn d a b s
  | .shl d a b => Sys2Proof.Machine.execShl d a b s
  | .shr d a b => Sys2Proof.Machine.execShr d a b s
  | .sar d a b => Sys2Proof.Machine.execSar d a b s
  | .rotl d a b => Sys2Proof.Machine.execRotl d a b s
  | .min d a b => Sys2Proof.Machine.execMin d a b s
  | .max d a b => Sys2Proof.Machine.execMax d a b s
  | .minu d a b => Sys2Proof.Machine.execMinu d a b s
  | .maxu d a b => Sys2Proof.Machine.execMaxu d a b s
  | .mov d a => Sys2Proof.Machine.execMov d a s
  | .mul d a b => Sys2Proof.Machine.execMul d a b s
  | .mulh d a b => Sys2Proof.Machine.execMulh d a b s
  | .mulhu d a b => Sys2Proof.Machine.execMulhu d a b s
  | .div d a b => Sys2Proof.Machine.execDiv d a b s
  | .divu d a b => Sys2Proof.Machine.execDivu d a b s
  | .rem d a b => Sys2Proof.Machine.execRem d a b s
  | .remu d a b => Sys2Proof.Machine.execRemu d a b s
  | .sel d a b c => Sys2Proof.Machine.execSel d a b c s
  | .clz d a => Sys2Proof.Machine.execClz d a s
  | .ctz d a => Sys2Proof.Machine.execCtz d a s
  | .popc d a => Sys2Proof.Machine.execPopc d a s
  | .bext d a b => Sys2Proof.Machine.execBext d a b s
  | .bins d a b c => Sys2Proof.Machine.execBins d a b c s
  | .sext d a n => Sys2Proof.Machine.execSext d a n s
  | .zext d a n => Sys2Proof.Machine.execZext d a n s
  | .ceq d a b => Sys2Proof.Machine.execCeq d a b s
  | .cne d a b => Sys2Proof.Machine.execCne d a b s
  | .clt d a b => Sys2Proof.Machine.execClt d a b s
  | .cltu d a b => Sys2Proof.Machine.execCltu d a b s
  | .cle d a b => Sys2Proof.Machine.execCle d a b s
  | .cleu d a b => Sys2Proof.Machine.execCleu d a b s
  | .addi d a im => Sys2Proof.Machine.execAddi d a im s
  | .andi d a im => Sys2Proof.Machine.execAndi d a im s
  | .ori d a im => Sys2Proof.Machine.execOri d a im s
  | .xori d a im => Sys2Proof.Machine.execXori d a im s
  | .shli d a n => Sys2Proof.Machine.execShli d a n s
  | .shri d a n => Sys2Proof.Machine.execShri d a n s
  | .sari d a n => Sys2Proof.Machine.execSari d a n s
  | .ceqi d a im => Sys2Proof.Machine.execCeqi d a im s
  | .clti d a im => Sys2Proof.Machine.execClti d a im s
  | .cltui d a im => Sys2Proof.Machine.execCltui d a im s
  | .lui d im => Sys2Proof.Machine.execLui d im s
  | .movi d im => Sys2Proof.Machine.execMovi d im s
  | .stg sx a => Sys2Proof.Machine.execStg sx a s
  | .stgi sx q im => Sys2Proof.Machine.execStgi sx q im s
  | .srd d r => Sys2Proof.Machine.execSrd d r s
  | .swr a r => Sys2Proof.Machine.execSwr a r s
  | .ldI8 d b o => Sys2Proof.Machine.execLdI8 d b o s
  | .ldN8 d b o => Sys2Proof.Machine.execLdN8 d b o s
  | .ldI16 d b o => Sys2Proof.Machine.execLdI16 d b o s
  | .ldN16 d b o => Sys2Proof.Machine.execLdN16 d b o s
  | .ldI32 d b o => Sys2Proof.Machine.execLdI32 d b o s
  | .ldN32 d b o => Sys2Proof.Machine.execLdN32 d b o s
  | .ldI64 d b o => Sys2Proof.Machine.execLdI64 d b o s
  | .ldsI8 d b o => Sys2Proof.Machine.execLdsI8 d b o s
  | .ldsN8 d b o => Sys2Proof.Machine.execLdsN8 d b o s
  | .ldsI16 d b o => Sys2Proof.Machine.execLdsI16 d b o s
  | .ldsN16 d b o => Sys2Proof.Machine.execLdsN16 d b o s
  | .ldsI32 d b o => Sys2Proof.Machine.execLdsI32 d b o s
  | .ldsN32 d b o => Sys2Proof.Machine.execLdsN32 d b o s
  | .ldsI64 d b o => Sys2Proof.Machine.execLdsI64 d b o s
  | .ldaI32 d b o => Sys2Proof.Machine.execLdaI32 d b o s
  | .ldaN32 d b o => Sys2Proof.Machine.execLdaN32 d b o s
  | .ldaI64 d b o => Sys2Proof.Machine.execLdaI64 d b o s
  | .stI8 d b o => Sys2Proof.Machine.execStI8 d b o s
  | .stI16 d b o => Sys2Proof.Machine.execStI16 d b o s
  | .stI32 d b o => Sys2Proof.Machine.execStI32 d b o s
  | .stI64 d b o => Sys2Proof.Machine.execStI64 d b o s
  | .stlI32 d b o => Sys2Proof.Machine.execStlI32 d b o s
  | .stlI64 d b o => Sys2Proof.Machine.execStlI64 d b o s
  | .amoI32 d a b k o => Sys2Proof.Machine.execAmoI32 d a b k o s
  | .amoI64 d a b k o => Sys2Proof.Machine.execAmoI64 d a b k o s
  | .casI32 d a b c x => Sys2Proof.Machine.execCasI32 d a b c x s
  | .casI64 d a b c x => Sys2Proof.Machine.execCasI64 d a b c x s
  | .br c a o => Sys2Proof.Machine.execBr c a o s
  | .jmp o => Sys2Proof.Machine.execJmp o s
  | .jmpi a => Sys2Proof.Machine.execJmpi a s
  | .call o => Sys2Proof.Machine.execCall o s
  | .ret => Sys2Proof.Machine.execRet s
  | .loop a o => Sys2Proof.Machine.execLoop a o s
  | .chk a o => Sys2Proof.Machine.execChk a o s
  | .tret => Sys2Proof.Machine.execTret s
  | .xtov v sx l m => Sys2Proof.Machine.execXtov v sx l m s
  | .xfromv v d l m => Sys2Proof.Machine.execXfromv v d l m s
  | .xag g p sx => Sys2Proof.Machine.execXag g p sx s
  | .xmask m x q sx => Sys2Proof.Machine.execXmask m x q sx s
  | .xsts z e d => Sys2Proof.Machine.execXsts z e d s
  | .vadd d a b m t => Sys2Proof.Machine.execVadd d a b m t s
  | .vsub d a b m t => Sys2Proof.Machine.execVsub d a b m t s
  | .vmul d a b m t => Sys2Proof.Machine.execVmul d a b m t s
  | .vfma d a b m t => Sys2Proof.Machine.execVfma d a b m t s
  | .vfms d a b m t => Sys2Proof.Machine.execVfms d a b m t s
  | .vmin d a b m t => Sys2Proof.Machine.execVmin d a b m t s
  | .vmax d a b m t => Sys2Proof.Machine.execVmax d a b m t s
  | .vabs d a m t => Sys2Proof.Machine.execVabs d a m t s
  | .vneg d a m t => Sys2Proof.Machine.execVneg d a m t s
  | .vdiv d a b m t => Sys2Proof.Machine.execVdiv d a b m t s
  | .vsqrt d a r m t => Sys2Proof.Machine.execVsqrt d a r m t s
  | .vrsq d a r m t => Sys2Proof.Machine.execVrsq d a r m t s
  | .vrcp d a r m t => Sys2Proof.Machine.execVrcp d a r m t s
  | .vexp2 d a r m t => Sys2Proof.Machine.execVexp2 d a r m t s
  | .vlog2 d a r m t => Sys2Proof.Machine.execVlog2 d a r m t s
  | .vtanh d a r m t => Sys2Proof.Machine.execVtanh d a r m t s
  | .vsigm d a r m t => Sys2Proof.Machine.execVsigm d a r m t s
  | .viadd d a b m t => Sys2Proof.Machine.execViadd d a b m t s
  | .visub d a b m t => Sys2Proof.Machine.execVisub d a b m t s
  | .vimul d a b m t => Sys2Proof.Machine.execVimul d a b m t s
  | .vimulh d a b m t => Sys2Proof.Machine.execVimulh d a b m t s
  | .vimin d a b m t => Sys2Proof.Machine.execVimin d a b m t s
  | .vimax d a b m t => Sys2Proof.Machine.execVimax d a b m t s
  | .vand d a b m t => Sys2Proof.Machine.execVand d a b m t s
  | .vor d a b m t => Sys2Proof.Machine.execVor d a b m t s
  | .vxor d a b m t => Sys2Proof.Machine.execVxor d a b m t s
  | .vshl d a b m t => Sys2Proof.Machine.execVshl d a b m t s
  | .vshr d a b m t => Sys2Proof.Machine.execVshr d a b m t s
  | .vsar d a b m t => Sys2Proof.Machine.execVsar d a b m t s
  | .vwadd d a b m t => Sys2Proof.Machine.execVwadd d a b m t s
  | .vwmul d a b m t => Sys2Proof.Machine.execVwmul d a b m t s
  | .vnarw d a b m t => Sys2Proof.Machine.execVnarw d a b m t s
  | .vcmp c d a b m t => Sys2Proof.Machine.execVcmp c d a b m t s
  | .vsel d a b sx t => Sys2Proof.Machine.execVsel d a b sx t s
  | .vmop d a b f => Sys2Proof.Machine.execVmop d a b f s
  | .vcvt d a sx r m t => Sys2Proof.Machine.execVcvt d a sx r m t s
  | .vscale d a b m t => Sys2Proof.Machine.execVscale d a b m t s
  | .vpack d a f m t => Sys2Proof.Machine.execVpack d a f m t s
  | .vunpk d a f m t => Sys2Proof.Machine.execVunpk d a f m t s
  | .vmov d a m t => Sys2Proof.Machine.execVmov d a m t s
  | .vperm d a b m t => Sys2Proof.Machine.execVperm d a b m t s
  | .vslide d a n x => Sys2Proof.Machine.execVslide d a n x s
  | .vzip d a b m t => Sys2Proof.Machine.execVzip d a b m t s
  | .vuzp d a b m t => Sys2Proof.Machine.execVuzp d a b m t s
  | .vred d a f m t => Sys2Proof.Machine.execVred d a f m t s
  | .vscan d a f m t => Sys2Proof.Machine.execVscan d a f m t s
  | .vld v g m t => Sys2Proof.Machine.execVld v g m t s
  | .vst v g m t => Sys2Proof.Machine.execVst v g m t s
  | .vldx v g b m t => Sys2Proof.Machine.execVldx v g b m t s
  | .vstx v g b m t => Sys2Proof.Machine.execVstx v g b m t s
  | .vdec d c z b m p f => Sys2Proof.Machine.execVdec d c z b m p f s
  | .vcut z f m => Sys2Proof.Machine.execVcut z f m s
  | .mcall c p r l => Sys2Proof.Machine.execMcall c p r l s
  | .mlatch c p l t => Sys2Proof.Machine.execMlatch c p l t s
  | .medge c p => Sys2Proof.Machine.execMedge c p s
  | .mflush c p => Sys2Proof.Machine.execMflush c p s
  | .mstep c p im n => Sys2Proof.Machine.execMstep c p im n s
  | .mrout c p e sx => Sys2Proof.Machine.execMrout c p e sx s
  | .mstat c p => Sys2Proof.Machine.execMstat c p s
  | .mdec c p k => Sys2Proof.Machine.execMdec c p k s
  | .mcut c p a => Sys2Proof.Machine.execMcut c p a s
  | .cpy c p r sx f => Sys2Proof.Machine.execCpy c p r sx f s
  | .cpys c p r sx f => Sys2Proof.Machine.execCpys c p r sx f s
  | .cpyg c p r sx f => Sys2Proof.Machine.execCpyg c p r sx f s
  | .cpyt c p r sx f => Sys2Proof.Machine.execCpyt c p r sx f s
  | .cpyx c p r sx f => Sys2Proof.Machine.execCpyx c p r sx f s
  | .cpyf c p r sx f => Sys2Proof.Machine.execCpyf c p r sx f s
  | .cpyw c p r sx f => Sys2Proof.Machine.execCpyw c p r sx f s
  | .cpyq c p r sx f => Sys2Proof.Machine.execCpyq c p r sx f s
  | .lsend v q => Sys2Proof.Machine.execLsend v q s
  | .lsched c p => Sys2Proof.Machine.execLsched c p s
  | .gld c p g => Sys2Proof.Machine.execGld c p g s
  | .gdef c p => Sys2Proof.Machine.execGdef c p s
  | .fpost c p o sx => Sys2Proof.Machine.execFpost c p o sx s
  | .namo c p o sx k w => Sys2Proof.Machine.execNamo c p o sx k w s
  | .ncas c p o sx f w => Sys2Proof.Machine.execNcas c p o sx f w s
  | .pgmap c p => Sys2Proof.Machine.execPgmap c p s
  | .pgdone c p => Sys2Proof.Machine.execPgdone c p s
  | .stepEnd => Sys2Proof.Machine.execStepEnd s
  | .stepHead sites => Sys2Proof.Machine.execStepHead sites s
  | .stepJoin sites => Sys2Proof.Machine.execStepJoin sites s
  | .stepAdd sites => Sys2Proof.Machine.execStepAdd sites s
  | .stepPass sites => Sys2Proof.Machine.execStepPass sites s
  | .stepTail sites inp => Sys2Proof.Machine.execStepTail sites inp s
  | .stepFill sites l t rel p adv => Sys2Proof.Machine.execStepFill sites l t rel p adv s
  | .stepSwap sites => Sys2Proof.Machine.execStepSwap sites s
  | .stepFeed sites src af ent ag count scl => Sys2Proof.Machine.execStepFeed sites src af ent ag count scl s
  | .stepRepeat count len cp k => Sys2Proof.Machine.execStepRepeat count len cp k s
  | .stepSync mode flag => Sys2Proof.Machine.execStepSync mode flag s
  | .pendingWriteLanding n => Sys2Proof.Machine.execPendingWriteLanding n s
  | .streamCompletion n z => Sys2Proof.Machine.execStreamCompletion n z s
  | .vdecDecision n z => Sys2Proof.Machine.execVdecDecision n z s
  | .watchdogExpiry n => Sys2Proof.Machine.execWatchdogExpiry n s
  | .segmentLanding n => Sys2Proof.Machine.execSegmentLanding n s
  | .taskCompletion n => Sys2Proof.Machine.execTaskCompletion n s
  | .matrixCommandStart n => Sys2Proof.Machine.execMatrixCommandStart n s
  | .fillComplete site => Sys2Proof.Machine.execFillComplete site s
  | .matrixCommandComplete n => Sys2Proof.Machine.execMatrixCommandComplete n s
  | .bedRowEntry n => Sys2Proof.Machine.execBedRowEntry n s
  | .linkRowArrival n => Sys2Proof.Machine.execLinkRowArrival n s
  | .rowDelivery n => Sys2Proof.Machine.execRowDelivery n s
  | .mcallComplete n => Sys2Proof.Machine.execMcallComplete n s
  | .lodeSwitch cl => Sys2Proof.Machine.execLodeSwitch cl s
  | .lodeInjection cl => Sys2Proof.Machine.execLodeInjection cl s
  | .lodeDelivery cl => Sys2Proof.Machine.execLodeDelivery cl s
  | .copyStart n => Sys2Proof.Machine.execCopyStart n s
  | .retryPermit die slice => Sys2Proof.Machine.execRetryPermit die slice s
  | .copyComplete n => Sys2Proof.Machine.execCopyComplete n s
  | .networkCommandStart n => Sys2Proof.Machine.execNetworkCommandStart n s
  | .networkCommandComplete n => Sys2Proof.Machine.execNetworkCommandComplete n s
  | .flagPostArrival n => Sys2Proof.Machine.execFlagPostArrival n s
  | .fabricAtomic n => Sys2Proof.Machine.execFabricAtomic n s
  | .requestTranslate n => Sys2Proof.Machine.execRequestTranslate n s
  | .notify q v => Sys2Proof.Machine.execNotify q v s
  | .queuePoll q => Sys2Proof.Machine.execQueuePoll q s
  | .launch q => Sys2Proof.Machine.execLaunch q s
  | .barrier q => Sys2Proof.Machine.execBarrier q s
  | .signalSet q => Sys2Proof.Machine.execSignalSet q s
  | .tilePlacement die => Sys2Proof.Machine.execTilePlacement die s
  | .signalDecrement id => Sys2Proof.Machine.execSignalDecrement id s
  | .queueEnable q => Sys2Proof.Machine.execQueueEnable q s
  | .queueDisable q => Sys2Proof.Machine.execQueueDisable q s
  | .qctlReset q skip => Sys2Proof.Machine.execQctlReset q skip s
  | .lock => Sys2Proof.Machine.execLock s
  | .registerWrite bar off value => Sys2Proof.Machine.execRegisterWrite bar off value s
  | .create => Sys2Proof.Machine.execCreate s
  | .free c => Sys2Proof.Machine.execFree c s
  | .reserve c => Sys2Proof.Machine.execReserve c s
  | .reserveRelease c => Sys2Proof.Machine.execReserveRelease c s
  | .alloc c => Sys2Proof.Machine.execAlloc c s
  | .allocRelease c => Sys2Proof.Machine.execAllocRelease c s
  | .tarea c => Sys2Proof.Machine.execTarea c s
  | .install c => Sys2Proof.Machine.execInstall c s
  | .image c => Sys2Proof.Machine.execImage c s
  | .imageUnreg c => Sys2Proof.Machine.execImageUnreg c s
  | .pager c => Sys2Proof.Machine.execPager c s
  | .preempt c => Sys2Proof.Machine.execPreempt c s
  | .quantumExpiry c => Sys2Proof.Machine.execQuantumExpiry c s
  | .arm n => Sys2Proof.Machine.execArm n s
  | .target c => Sys2Proof.Machine.execTarget c s
  | .release n => Sys2Proof.Machine.execRelease n s
  | .contextSaved c => Sys2Proof.Machine.execContextSaved c s
  | .resume c => Sys2Proof.Machine.execResume c s
  | .halt => Sys2Proof.Machine.execHalt s
  | .run => Sys2Proof.Machine.execRun s
  | .cstep => Sys2Proof.Machine.execCstep s
  | .bstep n => Sys2Proof.Machine.execBstep n s
  | .debugStepEnd c => Sys2Proof.Machine.execDebugStepEnd c s
  | .read n => Sys2Proof.Machine.execRead n s
  | .write n => Sys2Proof.Machine.execWrite n s
  | .brken => Sys2Proof.Machine.execBrken s
  | .quiesce die => Sys2Proof.Machine.execQuiesce die s
  | .linkstop die => Sys2Proof.Machine.execLinkstop die s
  | .linkstopDone die => Sys2Proof.Machine.execLinkstopDone die s
  | .writeback die => Sys2Proof.Machine.execWriteback die s
  | .writebackDone die => Sys2Proof.Machine.execWritebackDone die s
  | .drctlReset die => Sys2Proof.Machine.execDrctlReset die s
  | .resetDone die => Sys2Proof.Machine.execResetDone die s
  | .drctlRetrain die => Sys2Proof.Machine.execDrctlRetrain die s
  | .trained die ok => Sys2Proof.Machine.execTrained die ok s
  | .admitCmd die => Sys2Proof.Machine.execAdmit die s
  | .admitDone die ok => Sys2Proof.Machine.execAdmitDone die ok s
  | .head => Sys2Proof.Machine.execHead s
  | .seal => Sys2Proof.Machine.execSeal s
  | .scrub place found => Sys2Proof.Machine.execScrub place found s
  | .retire site => Sys2Proof.Machine.execRetire site s
  | .thresholdRetirement site => Sys2Proof.Machine.execThresholdRetirement site s
  | .linkFailed l => Sys2Proof.Machine.execLinkFailed l s
  | .portDown p => Sys2Proof.Machine.execPortDown p s
  | .enable p => Sys2Proof.Machine.execEnable p s
  | .disable p => Sys2Proof.Machine.execDisable p s
  | .pctlRetrain p => Sys2Proof.Machine.execPctlRetrain p s
  | .cxlPortFailure port => Sys2Proof.Machine.execCxlPortFailure port s
  | .clockStep power temp => Sys2Proof.Machine.execClockStep power temp s
  | .thermalTrip temp => Sys2Proof.Machine.execThermalTrip temp s
  | .measuredStart stage => Sys2Proof.Machine.execMeasuredStart stage s
  | .getMeasurements => Sys2Proof.Machine.execGetMeasurements s
  | .periodBoundary cl => Sys2Proof.Machine.execPeriodBoundary cl s
  | .linkReplay port idx fec => Sys2Proof.Machine.execLinkReplay port idx fec s
  | .portTrainingDone p => Sys2Proof.Machine.execPortTrainingDone p s
  | .portDegraded p => Sys2Proof.Machine.execPortDegraded p s
  | .cxlPortTrained port cap => Sys2Proof.Machine.execCxlPortTrained port cap s
  | .firmwarePush ok => Sys2Proof.Machine.execFirmwarePush ok s

end Sys2Proof.Machine
end

