-- ==== Sys2Proof/Machine/Issue.lean ====
section
/-! DEFINITION. The issue of a bundle (01 R13 to R18, 05 R107, R118 to R120): fetch, decode, the checks across slots, the eight
slots in order, and what holds a bundle back; and a word placed where the next step fetches. -/

namespace Sys2Proof.Machine

/-! ## Fetch and decode -/

/-- The place of the bundle at a sequencer's program counter. -/
def bundlePlace (n : Nat) (q : Seq) : Nat := placeI n (32 * q.pc.toNat)

/-- The word of slot `k` of a bundle (01 R13): little-endian, slot 0 at the lowest address. -/
def slotWord (s : State) (place k : Nat) : BitVec 32 := BitVec.ofNat 32 (readNat s (place + 4 * k) 4)

/-- The eight slots of a bundle as decoded; none is an encoding that the slot's map does not assign. -/
def decodeBundle (s : State) (place : Nat) : List (Option Instr) := (List.range 8).map (fun k => decodeSlot k (slotWord s place k))

/-- The operation that a slot word names whether or not the slot may hold it and its reserved bits are zero: the word by the slot's
map with every field below the destination cleared, or with every field cleared. -/
def namedOperation (k : Nat) (w : BitVec 32) : Option Instr :=
  match k with
  | 1 => (decodeScalar (w &&& 0xFFF80000)).or (decodeScalar (w &&& 0xFE000000))
  | 2 => (decodeScalar (w &&& 0xFFF80000)).or (decodeScalar (w &&& 0xFE000000))
  | 3 => decodeTransfer (w &&& 0xFFFF0000)
  | 4 => decodeVector (w &&& 0xFFF80000)
  | _ => none

/-- The registers that slot `k`'s word names as destination (R14), also where another check of the slot fails. -/
def slotDests (k : Nat) (w : BitVec 32) : List Nat :=
  match (decodeSlot k w).or (namedOperation k w) with
  | some i => destsOf i
  | none => []

/-- The destinations of the eight slots of a bundle. -/
def bundleDests (s : State) (place : Nat) : List (List Nat) := (List.range 8).map (fun k => slotDests k (slotWord s place k))

/-- Whether slot `k` names a destination that another slot names too (R14). -/
def collides (l : List (List Nat)) (k : Nat) : Bool :=
  (at' l k []).any (fun d => (List.range 8).any (fun j => j != k && (at' l j []).contains d))

/-- A slot's turn in the open bundle: its own fault where it does not decode or names another slot's destination. -/
def enterSlot (s : State) (k : Nat) (bad : Bool) : State :=
  match s.bundle with
  | some b =>
    let b := { b with slot := k }
    { s with bundle := some (if bad then addFault b 1 0 else b) }
  | none => s

/-- The slots of the open bundle, from slot `k` on; `l` are the destinations of all. -/
def issueSlots (l : List (List Nat)) : Nat → List (Option Instr) → State → Out
  | _, [], s => .next s
  | k, none :: r, s => issueSlots l (k + 1) r (enterSlot s k true)
  | k, some i :: r, s =>
    match exec i (enterSlot s k (collides l k)) with
    | .next t => issueSlots l (k + 1) r t
    | o => o

/-- The end of the bundle being issued. -/
def endBundle (s : State) : State :=
  match s.bundle with
  | some b => closeBundle s b
  | none => s

/-- A bundle fetched, decoded and issued; damage found at fetch stops the context (05 R118) and is recorded (22 R382). -/
def issueBundle (s : State) (n : Nat) : Out :=
  let q := getSeq s n
  let p := bundlePlace n q
  if poisoned s p 32 then .next (stopContext { s with events := s.events ++ [damage n 4 (damagedIn s p 32).length] } n 0x07 0xFF q.pc 0)
  else
    let l := decodeBundle s p
    match issueSlots (bundleDests s p) 0 l { s with bundle := some (openBundle s n), cur := n } with
    | .next t => .next (endBundle t)
    | o => o

/-! ## What holds a bundle back -/

/-- Whether everything that a DRAIN waits for is performed (03 R83). -/
def drainDone (s : State) (n : Nat) (q : Seq) : Bool :=
  q.cpy.queue.isEmpty && q.cpy.running.isEmpty && q.net.queue.isEmpty && q.net.running.isEmpty && s.posts.all (fun p => p.seq != n)

/-- Whether the bundle is the first of a segment being fetched (05 R120). -/
def segmentHolds (q : Seq) : Bool := q.segFetch.any (fun f => f.load == q.pc.toNat)

/-- The turn of sequencer `n` in a clock: nothing where it does not run, the second clock of a handler's entry (05 R114), a held
bundle, or its bundle. A bundle behind a DRAIN (03 R83) is fetched and checked, and may fault, only when the hold ends (log entry 95). -/
def issueTurn (s : State) (n : Nat) : Out :=
  let q := getSeq s n
  let s := { s with ran := s.ran ++ [n] }
  if q.status != .running || !live s q then .next s
  else if q.gap ≠ 0 then .next (setSeq s n { q with gap := q.gap - 1 })
  else if q.drain.isSome && !drainDone s n q then
    .next (setSeq s n { q with stallCount := q.stallCount + 1, stallSlot := 0, stallDetail := 0 })
  else
    let s := setSeq s n { q with drain := none }
    if segmentHolds q then .next s else issueBundle s n

/-! ## A word where the next step fetches -/

/-- The context that the word's task runs in. -/
def wordContext (s : State) : State := setCtx s 0 { (getCtx s 0).getD {} with life := 1, halted := false }

/-- The task of sequencer 0, ready to issue the bundle at its program counter. -/
def wordSeq (q : Seq) : Seq :=
  { q with status := .running, ctx := some 0, gap := 0, drain := none, hold := none, segFetch := [],
           sr := { q.sr with winSize := 0x100000 } }

/-- Everything that lets sequencer 0 have its turn in the very next step, all features accepted. -/
def wordReady (s : State) : State :=
  { wordContext s with inputs := [], turn := [0], ran := [], bundle := none, halted := false, cur := 0, lock := true, faccept := Config.foffer }

/-- A slot word in its slot of the bundle at sequencer 0's program counter, the other slots zero; `ran` says that this clock has
reached its bundles. -/
def placeSlotWord (s : State) (w : BitVec 32) : State :=
  let q := wordSeq (getSeq s 0)
  let k := ((bareWord w).map (·.1)).getD 0
  let p := bundlePlace 0 q
  writeNat (writeBytes (setSeq { wordReady s with ran := [0] } 0 q) p (List.replicate 32 0)) (p + 4 * k) 4 w.toNat

/-- A micro-step word as word 0 of sequencer 0's store, which a routine in progress is about to take. -/
def placeStepWord (s : State) (w : Word) : State :=
  let q := wordSeq (getSeq s 0)
  let r : Routine := { serial := 0, entry := 0, bundle := 0, cf := 0, pe := false, pair := 0, params := List.replicate 8 0, pc := 0,
                       active := List.replicate 8 0, ready := s.clock }
  setSeq (wordReady s) 0 { q with micro := w :: q.micro.drop 1, microBad := [], mx := { q.mx with routine := some r, target := some {} } }

/-- The word that the opcode table names with `nbits` bits, placed so that the next step runs it. -/
def placeFetchWord (s : State) (nbits w : Nat) : State :=
  if nbits ≤ 32 then placeSlotWord s (BitVec.ofNat 32 w) else placeStepWord s (BitVec.ofNat 64 w)

end Sys2Proof.Machine
end

