-- ==== Sys2Proof/Machine/Due.lean ====
section
/-! DEFINITION. The order of the steps inside one clock: the outside world's steps whose clock has come, then every step of the
engines, links, cores and hub that is due, in the fixed order below, then the sequencers' bundles, then the end of the clock.
Where the manual gives no order between two steps of one clock the model takes this one (log entry 2). -/

namespace Sys2Proof.Machine

/-- The sequencer that a step belongs to, and the step. -/
abbrev DueStep := Option (Nat × Instr)

/-- The first sequencer, in rising order, that has a step due and whose context is not halted. -/
def seqDue (s : State) (f : Nat → Seq → Option Instr) : DueStep :=
  s.seqs.findSome? (fun p => if live s p.2 then (f p.1 p.2).map (fun i => (p.1, i)) else none)

/-- `i` where the condition holds. -/
def orNone (c : Bool) (i : Instr) : Option Instr := if c then some i else none

/-- A step of sequencer 0's turn: one that no sequencer owns. -/
def unowned (o : Option Instr) : DueStep := o.map (fun i => (0, i))

/-! ## What is due in each unit -/

def lodeDue (s : State) (f : Nat → Lode → Option Instr) : DueStep :=
  unowned (s.lodes.findSome? (fun p => if clusterLive s p.1 then f p.1 p.2 else none))

/-- The first of a sequencer's stream registers with the property. -/
def streamDue (q : Seq) (p : Stream → Bool) : Option Nat := q.z.findIdx? p

def landingDue (s : State) : DueStep :=
  (seqDue s (fun n q => orNone (q.pending.any (fun e => e.left == 0)) (.pendingWriteLanding n))).or
    ((seqDue s (fun n q => (streamDue q (fun z => z.valid && z.left == 0 && !z.done)).map (fun z => .streamCompletion n z))).or
      (seqDue s (fun n q => (streamDue q (fun z => z.vdec.any vdecDue)).map (fun z => .vdecDecision n z))))

/-- The micro-step that a routine takes next. -/
def microDue (s : State) (q : Seq) : Option Instr :=
  match q.mx.routine with
  | some r => if !r.ended && r.feed.isNone && !r.waitSync && decide (r.ready ≤ s.clock) then decodeStep (at' q.micro r.pc 0) else none
  | none => none

def feedDue (s : State) (n : Nat) (q : Seq) : Bool :=
  match q.mx.routine with
  | some r => match r.feed with
    | some f => rowReady s n q.mx r f
    | none => false
  | none => false

/-- The sequencer that a row reaches from `w`'s east link. -/
def arrivalDue (s : State) (w : Nat) (q : Seq) : Option Instr :=
  match q.mx.sent, eastOf w with
  | row :: _, some e => orNone (decide (row.arrive ≤ s.clock) && linkOpen s e && live s (getSeq s e)) (.linkRowArrival e)
  | _, _ => none

def fillDue (s : State) (n : Nat) (q : Seq) : Option Instr :=
  (q.mx.fills.find? (fun f => decide (f.doneAt ≤ s.clock))).map (fun f => .fillComplete (packageSite (siteOf n f.site)))

def matrixStartDue (s : State) (q : Seq) : Bool :=
  match q.mx.queue with
  | c :: _ => matrixMayStart s.clock q.mx c
  | [] => false

def callDue (s : State) (q : Seq) : Bool :=
  match q.mx.routine with
  | some r => callDone s.clock q.mx r
  | none => false

/-- The matrix engines and the lode (08, 13, 15). -/
def matrixDue (s : State) : DueStep :=
  (seqDue s (fun n q => orNone (matrixStartDue s q) (.matrixCommandStart n))).or
  ((seqDue s (fun _ q => microDue s q)).or
  ((lodeDue s (fun cl l => orNone (match l.deliver with
      | v :: _ => decide (v.arrive ≤ s.clock)
      | [] => false) (.lodeDelivery cl))).or
  ((unowned ((List.range 32).findSome? (fun cl => orNone (clusterLive s cl && (injectionDue s cl).isSome) (.lodeInjection cl)))).or
  ((seqDue s (fun n q => orNone (feedDue s n q) (.bedRowEntry n))).or
  ((seqDue s (fun n q => orNone (deliveryDue s.clock q.mx) (.rowDelivery n))).or
  ((seqDue s (arrivalDue s)).or
  ((seqDue s (fillDue s)).or
  ((seqDue s (fun n q => orNone (q.mx.running.any (runDone s.clock q.mx)) (.matrixCommandComplete n))).or
   (seqDue s (fun n q => orNone (callDue s q) (.mcallComplete n)))))))))))

def copyStartDue (s : State) (n : Nat) (q : Seq) : Bool :=
  match q.cpy.queue with
  | c :: _ => copyMayStart s n c
  | [] => false

def netStartDue (s : State) (q : Seq) : Bool :=
  match netHead q with
  | some c => netMayStart s.clock q c
  | none => false

/-- Atomics and posts that have left. -/
def sentDue (s : State) : DueStep :=
  (unowned (s.seqs.findSome? (fun p => orNone (p.2.net.running.any (fun r =>
      r.phase == 1 && decide (r.ready ≤ s.clock) && !ticketWaits s r)) (.fabricAtomic p.1)))).or
   (unowned ((s.posts.find? (fun p => postMayArrive s p.seq p)).map
      (fun p => .flagPostArrival p.seq)))

/-- The copy and network engines, memory controllers and staithes (10, 12, 13). Accesses and posts that have left go on in a
halt (16 R314). -/
def engineDue (s : State) : DueStep :=
  (unowned ((wokenNext s).map (fun h => .requestTranslate h.seq))).or
  ((seqDue s (fun n q => orNone (copyStartDue s n q) (.copyStart n))).or
  ((seqDue s (fun n _ => orNone (nextAccess s n).isSome (.requestTranslate n))).or
  ((unowned (s.refusals.head?.map (fun r => .retryPermit r.1 r.2.1))).or
  ((seqDue s (fun n q => orNone (q.cpy.running.any (fun r => decide (r.total ≤ r.next) && decide (r.ready ≤ s.clock))) (.copyComplete n))).or
  ((seqDue s (fun n q => orNone (netStartDue s q) (.networkCommandStart n))).or
  ((sentDue s).or
   (seqDue s (fun n q => orNone (q.net.running.any (netMayComplete s q)) (.networkCommandComplete n)))))))))

/-- The steps of the agreement, the save and the resume, of a context (16, 20 R357). -/
def contextDue (s : State) (c : Nat) (x : Ctx) : Option Instr :=
  (armDue s c x).map Instr.arm |>.or
  ((orNone (targetDue s c x) (.target c)).or
  (((releaseDue s c x).map Instr.release).or
  ((orNone (savedDue s c x) (.contextSaved c)).or
  ((orNone (preemptDue s c x) (.preempt c)).or
  ((orNone (quantumDue s c x) (.quantumExpiry c)).or
  ((orNone (resumeDue s c x) (.resume c)).or
  ((orNone (x.freeing && enginesSettled s c) (.free c)).or
   (orNone (stepEnded x) (.debugStepEnd c)))))))))

/-- The packet step that a queue has just polled, or its polling slot: queue q's is at clock 16q of the frame (R348). -/
def queueDue (s : State) (q : Nat) (x : LQueue) : Option Instr :=
  match x.polled with
  | some 1 => some (.launch q)
  | some 2 => some (.barrier q)
  | some _ => some (.signalSet q)
  | none => orNone ((qEn x || x.disabling || x.consuming.isSome) && frontRuns s && s.clock % 1024 == 16 * q && x.lastPoll != s.clock + 1) (.queuePoll q)

/-- A die-reset command that completes on its own (21 R376). -/
def dieDue (s : State) (d : Nat) : Option Instr :=
  (orNone (inProgress s d 2 && dieAnswered s d) (.linkstopDone d)).or
  ((orNone (inProgress s d 3) (.writebackDone d)).or (orNone (inProgress s d 4) (.resetDone d)))

/-- Whether a segment's landing is due and its source can be read. -/
def segmentDue (s : State) (n : Nat) (q : Seq) : Bool :=
  match q.segFetch.find? (fun f => f.left == 0) with
  | some f => segmentReady s n f
  | none => false

/-- What the front core and the hub finish on their own: a mailbox command under way, a log command, links and ports that have failed
replay 8 times in a row, a clock step owed (20 R365, R368, 22 R388, R392, R393, R399). -/
def hubDue (s : State) : DueStep :=
  (unowned ((s.cmInstall.filter (fun w => !owes s w.2)).map (fun w => .install w.1))).or
  ((unowned (orNone (s.peat.busy == 1) .head)).or
  ((unowned (orNone (s.peat.busy == 2) .seal)).or
  ((unowned (s.links.findSome? (fun p => orNone (decide (p.1 < 6) && p.2.st == 2 && decide (8 ≤ p.2.run)) (.linkFailed p.1)))).or
  ((unowned (s.ports.findSome? (fun p => orNone (decide (p.1 < 144) && (p.2.st == 2 || p.2.st == 3) && decide (8 ≤ p.2.run)) (.portDown p.1)))).or
   (unowned (orNone (stepOwed s) (.clockStep s.mgmt.pwrnow.toNat s.mgmt.temp.toNat)))))))

/-- The queues' slots and packets. -/
def frontDue (s : State) : DueStep := unowned (s.queues.findSome? (fun p => queueDue s p.1 p.2))

/-- The completions that can be reported. -/
def reportDue (s : State) : DueStep := unowned ((s.launches.find? (reportable s)).map (fun l => .signalDecrement l.id))

/-- The sites that have reached the threshold. -/
def thresholdDue (s : State) : DueStep :=
  unowned (s.sites.findSome? (fun p => orNone (decide (0 < p.2.uncorrectable) && !p.2.retired && decide (Config.retireThreshold ≤ p.2.uncorrectable))
    (.thresholdRetirement (packageSite p.1))))

/-- The cores and the hub (05, 16, 20, 21, 22). -/
def coreDue (s : State) : DueStep :=
  (frontDue s).or
  ((unowned ([0, 1, 2, 3].findSome? (fun d => orNone (tileDue s d).isSome (.tilePlacement d)))).or
  ((reportDue s).or
  ((unowned (s.ctxs.findSome? (fun p => contextDue s p.1 p.2))).or
  ((thresholdDue s).or
  ((seqDue s (fun n q => orNone (segmentDue s n q) (.segmentLanding n))).or
  ((seqDue s (fun n q => orNone (q.status == .ending && enginesIdle s n) (.taskCompletion n))).or
  ((unowned ([0, 1, 2, 3].findSome? (dieDue s))).or (hubDue s))))))))

/-- What is due while the clocks of the compute dies stand still (22 R400): the hub goes on, and accesses that have left perform
(16 R314). -/
def haltedDue (s : State) : DueStep :=
  (unowned (((wokenNext s).filter (·.write)).map (fun h => .requestTranslate h.seq))).or
  ((sentDue s).or ((frontDue s).or ((reportDue s).or
  ((unowned (s.ctxs.findSome? (fun p => orNone (p.2.freeing && enginesSettled s p.1) (.free p.1)))).or
  ((thresholdDue s).or (hubDue s))))))

/-- A watchdog that has run out in this clock, once every sequencer has had its turn: its context's sequencers stop together at the clock's
end (05 R118, R119). -/
def watchdogStep (s : State) : DueStep := seqDue s (fun n q => orNone (watchdogDue q) (.watchdogExpiry n))

/-- The step that comes next of those due in this clock. -/
def due (s : State) : DueStep :=
  (lodeDue s (fun cl _ => orNone (switchDue s cl) (.lodeSwitch cl))).or
  ((lodeDue s (fun cl _ => orNone (boundaryDue s cl) (.periodBoundary cl))).or
  ((landingDue s).or ((matrixDue s).or ((engineDue s).or (coreDue s)))))

/-! ## One step -/

/-- The outside world's next step where its clock has come. -/
def inputDue (s : State) : Option (Instr × List (Nat × Instr)) :=
  match s.inputs with
  | x :: r => if x.1 ≤ s.clock then some (x.2, r) else none
  | [] => none

/-- What comes next in a clock when no input is left: the steps due and the mailbox command, until a sequencer has issued; then the
bundles; then the watchdogs that have run out, and the end of the clock. With the compute dies stopped only the hub's steps are due, and no bundle issues (22 R400). -/
def innerStep (s : State) : Out :=
  match if s.halted then haltedDue s else if s.ran.isEmpty then due s else none with
  | some x => exec x.2 { s with cur := x.1 }
  | none =>
    match if s.halted || s.ran.isEmpty then mailboxDue s else none with
    | some w => carryOut s w
    | none =>
      if s.halted then .next (tick s)
      else match s.turn with
        | n :: r => issueTurn { s with turn := r } n
        | [] => match watchdogStep s with
          | some x => exec x.2 { s with cur := x.1 }
          | none => .next (tick s)

/-- One step of the package. -/
def runStep (s : State) : Out :=
  match inputDue s with
  | some x => exec x.1 { s with inputs := x.2 }
  | none => innerStep s

end Sys2Proof.Machine
end

