-- ==== Sys2Proof/Machine/Step.lean ====
section
/-! DEFINITION. The step of the machine, and a word placed where it fetches its next instruction. -/

namespace Sys2Proof.Machine

/-- One step: the outside world's, an engine's or core's, a sequencer's bundle, or the end of a clock. -/
def step (s : State) : Host.Outcome State Fault Refusal := runStep s

/-- The state with an instruction's bits where the next step fetches (log entry 26). -/
def State.withFetchWord (s : State) (nbits w : Nat) : State := placeFetchWord s nbits w

end Sys2Proof.Machine
end

