-- ==== Sys2Proof/Safety.lean ====
section
/-! DEFINITION. What counts as a safe run and the terms the statements use: the invariant that every step keeps, what an
operation answers in the bundle being issued, what it leaves alone, how a float result is rounded, what a network command does as it starts,
and what a save keeps. -/

namespace Sys2Proof.Machine

/-- What every step keeps: memory in its canonical form, and no bundle left half issued between steps. -/
def StateInv (s : State) : Prop := Memory.wf s.mem = true ∧ s.bundle = none

/-- A safe run: `k` steps end in a state, not in a fault or a refusal. -/
def SafeRun (k : Nat) (s : State) : Prop := ∃ t, Host.Core.run Sys2Proof.core k s = .next t

/-! ## An operation in the bundle being issued -/

/-- Bundle `b` is being issued, and no decode check refuses `i` in it (01 R14): its fields, the handler state and the
accepted features permit it. -/
def Enabled (s : State) (b : Bundle) (i : Instr) : Prop := s.bundle = some b ∧ issueCauses s.faccept b.start.sr.hstat i = []

/-- `i`, permitted, answers a next state in which its effect `op` stands in the bundle and nothing else has changed. -/
def Answers (i : Instr) (op : State → Bundle → Bundle) : Prop :=
  ∀ s b, Enabled s b i → exec i s = .next { s with bundle := some (op s b), free := s.free + 1 }

/-- As `Answers`, for states and bundles that meet a condition. -/
def AnswersWhen (i : Instr) (c : State → Bundle → Prop) (op : State → Bundle → Bundle) : Prop :=
  ∀ s b, Enabled s b i → c s b → exec i s = .next { s with bundle := some (op s b), free := s.free + 1 }

/-- The result of a two-operand scalar form with latency bound `k` (02 R43, R46). -/
def result2 (f : Word → Word → Word) (k : Nat) (d a b : BitVec 6) (s : State) (u : Bundle) : Bundle :=
  setScalar u d k { bits := f (opd s u 0 a).bits (opd s u 1 b).bits, poison := (opd s u 0 a).poison || (opd s u 1 b).poison }

/-- The result of a one-operand scalar form (02 R43, R46, R49). -/
def result1 (f : Word → Word) (d a : BitVec 6) (s : State) (u : Bundle) : Bundle :=
  setScalar u d 1 { bits := f (opd s u 0 a).bits, poison := (opd s u 0 a).poison }

/-- One or zero, as a comparison gives it. -/
def truth (p : Prop) [Decidable p] : Word := if p then 1 else 0

/-! ## What an operation leaves alone -/

/-- Nothing of the state has changed but the bundle being issued and the counter of the free values: no register, no
flag, no byte of memory, no other sequencer. -/
def OnlyBundle (s t : State) : Prop := t = { s with bundle := t.bundle, free := s.free + 1 }

/-- What the other slots have asked for stands: the bundle's sequencer, its state at the start, its stores and its control
requests. -/
def SameRequests (b c : Bundle) : Prop :=
  c.seq = b.seq ∧ c.start = b.start ∧ c.slot = b.slot ∧ c.stores = b.stores ∧ c.ctl = b.ctl ∧ c.quiet = b.quiet ∧ c.ends = b.ends ∧
    c.drains = b.drains

/-- Of a sequencer only a scalar result in destination code `d` has changed: the queue with a push, or one named register,
and the results in flight toward it. -/
def OnlyScalar (d : BitVec 6) (q w : Seq) : Prop :=
  w = { q with q := w.q, sq := w.sq, g := w.g, pending := w.pending } ∧
  (d ≠ 0 → w.q = q.q ∧ w.sq = q.sq ∧ (∀ r, d.toNat ≠ r + 16 → w.g[r]? = q.g[r]?) ∧
    w.pending.filter (fun e => e.dest != .named (d.toNat - 16)) = q.pending.filter (fun e => e.dest != .named (d.toNat - 16))) ∧
  (d = 0 → w.g = q.g)

/-- The destination of an operation whose only effect is a scalar result (02, 03; SRD of sr.fpstat apart). -/
def scalarDest : Instr → Option (BitVec 6)
  | .add d _ _ | .sub d _ _ | .and d _ _ | .or d _ _ | .xor d _ _ | .andn d _ _ | .shl d _ _ | .shr d _ _ | .sar d _ _
  | .rotl d _ _ | .min d _ _ | .max d _ _ | .minu d _ _ | .maxu d _ _ | .mov d _ | .mul d _ _ | .mulh d _ _
  | .mulhu d _ _ | .div d _ _ | .divu d _ _ | .rem d _ _ | .remu d _ _ | .sel d _ _ _ | .clz d _ | .ctz d _ | .popc d _
  | .bext d _ _ | .bins d _ _ _ | .sext d _ _ | .zext d _ _ | .ceq d _ _ | .cne d _ _ | .clt d _ _ | .cltu d _ _
  | .cle d _ _ | .cleu d _ _ | .addi d _ _ | .andi d _ _ | .ori d _ _ | .xori d _ _ | .shli d _ _ | .shri d _ _
  | .sari d _ _ | .ceqi d _ _ | .clti d _ _ | .cltui d _ _ | .lui d _ | .movi d _
  | .ldI8 d _ _ | .ldN8 d _ _ | .ldI16 d _ _ | .ldN16 d _ _ | .ldI32 d _ _ | .ldN32 d _ _ | .ldI64 d _ _
  | .ldsI8 d _ _ | .ldsN8 d _ _ | .ldsI16 d _ _ | .ldsN16 d _ _ | .ldsI32 d _ _ | .ldsN32 d _ _ | .ldsI64 d _ _
  | .ldaI32 d _ _ | .ldaN32 d _ _ | .ldaI64 d _ _ | .xfromv _ d _ _ | .xsts _ _ d => some d
  | .srd d r => if r = 9 then none else some d
  | _ => none

/-- The scalar destination code of an operation that has one (01 R21). -/
def scalarTarget : Instr → Option (BitVec 6)
  | .srd d _ | .amoI32 d _ _ _ _ | .amoI64 d _ _ _ _ | .casI32 d _ _ _ _ | .casI64 d _ _ _ _ => some d
  | .xmask _ x _ d => if x = 1 then some d else none
  | i => scalarDest i

/-- The scalar operand codes that an operation reads (01 R21). -/
def scalarSources : Instr → List (BitVec 6)
  | .add _ a b | .sub _ a b | .and _ a b | .or _ a b | .xor _ a b | .andn _ a b | .shl _ a b | .shr _ a b | .sar _ a b
  | .rotl _ a b | .min _ a b | .max _ a b | .minu _ a b | .maxu _ a b | .mul _ a b | .mulh _ a b | .mulhu _ a b | .div _ a b
  | .divu _ a b | .rem _ a b | .remu _ a b | .bext _ a b | .ceq _ a b | .cne _ a b | .clt _ a b | .cltu _ a b | .cle _ a b
  | .cleu _ a b | .amoI32 _ a b _ _ | .amoI64 _ a b _ _ => [a, b]
  | .sel _ a b c | .bins _ a b c | .casI32 _ a b c _ | .casI64 _ a b c _ => [a, b, c]
  | .mov _ a | .clz _ a | .ctz _ a | .popc _ a | .sext _ a _ | .zext _ a _ | .addi _ a _ | .andi _ a _ | .ori _ a _ | .xori _ a _
  | .shli _ a _ | .shri _ a _ | .sari _ a _ | .ceqi _ a _ | .clti _ a _ | .cltui _ a _ | .stg _ a | .swr a _
  | .ldI8 _ a _ | .ldN8 _ a _ | .ldI16 _ a _ | .ldN16 _ a _ | .ldI32 _ a _ | .ldN32 _ a _ | .ldI64 _ a _
  | .ldsI8 _ a _ | .ldsN8 _ a _ | .ldsI16 _ a _ | .ldsN16 _ a _ | .ldsI32 _ a _ | .ldsN32 _ a _ | .ldsI64 _ a _
  | .ldaI32 _ a _ | .ldaN32 _ a _ | .ldaI64 _ a _ | .br _ a _ | .jmpi a | .loop a _ | .chk a _ | .xtov _ a _ _ | .xag _ _ a => [a]
  | .stI8 d a _ | .stI16 d a _ | .stI32 d a _ | .stI64 d a _ | .stlI32 d a _ | .stlI64 d a _ => [d, a]
  | .xmask _ x _ a => if x = 0 then [a] else []
  | _ => []

/-- Whether a result in flight goes to the shadow queue (05 R112). -/
def intoShadow (e : Pending) : Bool :=
  match e.dest with
  | .shadow _ => true
  | _ => false

/-- The width, base, offset and data codes of a scalar store (02 R55). -/
def storeForm : Instr → Option (Nat × BitVec 6 × BitVec 13 × BitVec 6)
  | .stI8 d b o => some (1, b, o, d)
  | .stI16 d b o => some (2, b, o, d)
  | .stI32 d b o => some (4, b, o, d)
  | .stI64 d b o => some (8, b, o, d)
  | .stlI32 d b o => some (4, b, o, d)
  | .stlI64 d b o => some (8, b, o, d)
  | _ => none

/-- The width, destination and address codes of a scalar atomic (02 R58, R59). -/
def atomicForm : Instr → Option (Nat × BitVec 6 × BitVec 6)
  | .amoI32 d a _ _ _ => some (4, d, a)
  | .amoI64 d a _ _ _ => some (8, d, a)
  | .casI32 d a _ _ _ => some (4, d, a)
  | .casI64 d a _ _ _ => some (8, d, a)
  | _ => none

/-- Whether an operation is a command of an engine (01 R31 to R33). -/
def isCommandOp : Instr → Bool
  | .mcall _ _ _ _ | .mlatch _ _ _ _ | .medge _ _ | .mflush _ _ | .mstep _ _ _ _ | .mrout _ _ _ _ | .mstat _ _ | .mdec _ _ _
  | .mcut _ _ _ => true
  | .cpy _ _ _ _ _ | .cpys _ _ _ _ _ | .cpyg _ _ _ _ _ | .cpyt _ _ _ _ _ | .cpyx _ _ _ _ _ | .cpyf _ _ _ _ _
  | .cpyw _ _ _ _ _ | .cpyq _ _ _ _ _ => true
  | .lsend _ _ | .lsched _ _ | .gld _ _ _ | .gdef _ _ | .fpost _ _ _ _ | .namo _ _ _ _ _ _ | .ncas _ _ _ _ _ _ | .pgmap _ _
  | .pgdone _ _ => true
  | _ => false

/-- A vector form of three registers (01 R27: VR), its fields d, a, b, mk and ty. -/
abbrev VForm : Type := BitVec 6 → BitVec 6 → BitVec 6 → BitVec 3 → BitVec 4 → Instr

/-- Whether an operation is of the vector slot (07, 11). -/
def isVectorOp (i : Instr) : Bool := (slotsOf i) == [4]

/-- A bundle that commits: no fault of a slot or of a back-edge, no fatal condition, no stall (01 R16, R17, 02 R45). -/
def Commits (b : Bundle) : Prop := b.faults = [] ∧ backEdgeFault b = [] ∧ b.fatals = [] ∧ b.stalls = []

/-- An access of `w` bytes at `ea` that a bundle may make: aligned and inside the window (02 R52). -/
def Accessible (b : Bundle) (ea : Word) (w : Nat) : Prop := ea.toNat % w = 0 ∧ inWindow b.start ea.toNat w = true

/-! ## Float codes and their rounding (06 R121, R131 to R133) -/

/-- Bits and mantissa bits of a .f32 (ty 0) or .bf16 (ty 1) code. -/
def codeWidth (t : Nat) : Nat := if t = 0 then 32 else 16
def codeFrac (t : Nat) : Nat := if t = 0 then 23 else 7

/-- The code without its sign, the sign, and the code of infinity: a code with a larger magnitude is a NaN. -/
def codeMag (t x : Nat) : Nat := x % 2 ^ (codeWidth t - 1)
def codeNeg (t x : Nat) : Bool := decide (2 ^ (codeWidth t - 1) ≤ x)
def infMag (t : Nat) : Nat := 255 * 2 ^ codeFrac t

/-- A code from its sign and its magnitude. -/
def signed (t : Nat) (n : Bool) (mag : Nat) : Nat := (if n then 2 ^ (codeWidth t - 1) else 0) + mag

/-- The value of a finite code times 2^codeScale; of an infinity, what its fields would give as a number. -/
def codeScale (t : Nat) : Nat := 126 + codeFrac t
def codeVal (t x : Nat) : Int :=
  let e := codeMag t x / 2 ^ codeFrac t
  let k := if e = 0 then codeMag t x else (2 ^ codeFrac t + codeMag t x % 2 ^ codeFrac t) * 2 ^ (e - 1)
  if codeNeg t x then -(k : Int) else k

/-- The generated NaN of a cause (R131), and 1. -/
def nanOfCause (t c : Nat) : Nat := if t = 0 then 0x7FC00000 + c * 2 ^ 18 else 0x7FC0 + c * 4
def oneCode (t : Nat) : Nat := 127 * 2 ^ codeFrac t

/-- nan_result of R132 on operands of which one at least is a NaN, with the flag of R122. -/
def nanAmong (t : Nat) (l : List Nat) : Nat × BitVec 6 :=
  let nans := l.filter (fun x => decide (infMag t < codeMag t x))
  let cause (x : Nat) : Nat := x / 2 ^ (codeFrac t - 5) % 16
  (if nans.any (fun x => cause x == 6) then nanOfCause t 6 else if nans.any (fun x => cause x == 7) then nanOfCause t 7
   else nans.headD 0 ||| 2 ^ (codeFrac t - 1),
   if nans.any (fun x => !x.testBit (codeFrac t - 1)) then fInvalid else 0)

/-- `r` is the exact value w / d, times 2^codeScale, rounded as R133 says, with its flags: w is not 0, d is positive, the mode one of the
five. Past the largest finite magnitude the value rounds as if the exponent were unbounded, and the code is then that of an infinity or
of the largest finite number. -/
def RoundedTo (t : Nat) (mode : Mode) (w : Int) (d : Nat) (r : Nat × BitVec 6) : Prop :=
  let v (c : Nat) : Int := codeVal t c * d
  let may (c : Nat) : Prop := c < 2 ^ codeWidth t ∧ codeMag t c ≤ infMag t
  let neg := decide (w < 0)
  if v (infMag t) ≤ w.natAbs then
    r = (signed t neg (if mode = 1 ∨ mode = 5 ∨ (mode = 4 ∧ 0 < w) ∨ (mode = 3 ∧ w < 0) then infMag t else infMag t - 1), 0x0A)
  else
    may r.1 ∧ codeNeg t r.1 = neg ∧
    (mode = 3 ∨ (mode = 2 ∧ 0 < w) → v r.1 ≤ w ∧ ∀ c, may c → v c ≤ w → v c ≤ v r.1) ∧
    (mode = 4 ∨ (mode = 2 ∧ w < 0) → w ≤ v r.1 ∧ ∀ c, may c → w ≤ v c → v r.1 ≤ v c) ∧
    (mode = 1 → ∀ c, may c → (v r.1 - w).natAbs ≤ (v c - w).natAbs ∧
      ((v c - w).natAbs = (v r.1 - w).natAbs → v c ≠ v r.1 → r.1 % 2 = 0)) ∧
    (mode = 5 → ∀ c, may c → (v r.1 - w).natAbs ≤ (v c - w).natAbs ∧
      ((v c - w).natAbs = (v r.1 - w).natAbs → (v c).natAbs ≤ (v r.1).natAbs)) ∧
    r.2 = if v r.1 = w then 0 else fInexact ||| (if codeMag t r.1 = infMag t then fOverflow else 0) |||
      (if w.natAbs < 2 ^ codeFrac t * d then fUnderflow else 0)

/-- `r` is the real value y, times 2^codeScale, rounded as R133 says, with its flags, as RoundedTo says it of a fraction: y is not 0, the mode one of the five. -/
def RoundedReal (t : Nat) (mode : Mode) (y : ℝ) (r : Nat × BitVec 6) : Prop :=
  let v (c : Nat) : ℝ := (codeVal t c : ℝ)
  let may (c : Nat) : Prop := c < 2 ^ codeWidth t ∧ codeMag t c ≤ infMag t
  let past : BitVec 6 := if codeMag t r.1 = infMag t then fOverflow else 0
  (v (infMag t) ≤ y → r = (if mode = 1 ∨ mode = 5 ∨ mode = 4 then infMag t else infMag t - 1, 0x0A)) ∧
  (y ≤ -v (infMag t) → r = (signed t true (if mode = 1 ∨ mode = 5 ∨ mode = 3 then infMag t else infMag t - 1), 0x0A)) ∧
  (|y| < v (infMag t) → may r.1 ∧ (codeNeg t r.1 = true ↔ y < 0) ∧
    (mode = 3 ∨ (mode = 2 ∧ 0 < y) → v r.1 ≤ y ∧ ∀ c, may c → v c ≤ y → v c ≤ v r.1) ∧
    (mode = 4 ∨ (mode = 2 ∧ y < 0) → y ≤ v r.1 ∧ ∀ c, may c → y ≤ v c → v r.1 ≤ v c) ∧
    (mode = 1 → ∀ c, may c → |v r.1 - y| ≤ |v c - y| ∧ (|v c - y| = |v r.1 - y| → v c ≠ v r.1 → r.1 % 2 = 0)) ∧
    (mode = 5 → ∀ c, may c → |v r.1 - y| ≤ |v c - y| ∧ (|v c - y| = |v r.1 - y| → |v c| ≤ |v r.1|)) ∧
    (v r.1 = y → r.2 = 0) ∧ (v r.1 ≠ y → (|y| < 2 ^ codeFrac t → r.2 = fInexact ||| past ||| fUnderflow) ∧ (2 ^ codeFrac t ≤ |y| → r.2 = fInexact ||| past)))

/-- A real value, times 2^codeScale, that is a code's or the midpoint of two neighbours', or stands off each of them by 2^-600 of itself. -/
def StandsOff (t : Nat) (y : ℝ) : Prop := ∀ c, c < 2 ^ codeWidth t → codeMag t c < infMag t →
  let v (c : Nat) : ℝ := (codeVal t c : ℝ)
  (y = v c ∨ |y| ≤ 2 ^ 600 * |y - v c|) ∧ (2 * y = v c + v (c + 1) ∨ |y| ≤ 2 ^ 600 * |2 * y - (v c + v (c + 1))|)

/-- `k` is the exact value w / d rounded to an integer by pick of R133; d is positive. -/
def PickedTo (mode : Mode) (w : Int) (d : Nat) (k : Int) : Prop :=
  (mode = 3 ∨ (mode = 2 ∧ 0 ≤ w) → k = w / d) ∧ (mode = 4 ∨ (mode = 2 ∧ w < 0) → k = -(-w / d)) ∧
  (mode = 1 ∨ mode = 5 → 2 * (k * d - w).natAbs ≤ d) ∧ (mode = 1 → 2 * (k * d - w).natAbs = d → k % 2 = 0) ∧
  (mode = 5 → 2 * (k * d - w).natAbs = d → w.natAbs ≤ (k * d).natAbs)

/-- A place outside the bytes of every store of a list. -/
def Outside (l : List StoreOp) (a : Nat) : Prop := ∀ o ∈ l, a < o.place ∨ o.place + o.bytes.length ≤ a

/-! ## What a network command that starts does (13) -/

/-- The state in which a network command's operands are judged: the command has left its queue. -/
def netTaken (s : State) (n : Nat) : State :=
  modSeq s n (fun q => { q with net := { q.net with queue := q.net.queue.eraseP (fun c => !isLsend c.op), lastStart := s.clock } })

/-- The command at the head starts, joins those under way as `x`, and `P` holds of the next state and `x`. -/
def NetStarts (s : State) (n : Nat) (c : Command) (P : State → NetRun → Prop) : Prop := ∃ t x, exec (.networkCommandStart n) s = .next t ∧
  (getSeq t n).net.running = (getSeq s n).net.running ++ [x] ∧ x.cmd = c ∧ P t x

/-- It starts only to complete with status `e`: nothing of memory has changed. -/
def NetFails (s : State) (n : Nat) (c : Command) (e : Nat) (P : State → NetRun → Prop) : Prop :=
  NetStarts s n c (fun t x => x.status = BitVec.ofNat 8 e ∧ x.phase = 2 ∧ t.mem = s.mem ∧ P t x)

/-- What a started LSCHED does (13 R267): the table of a good image waits at the Lode, a bad image fails with its status and entry. -/
def LschedEffect (s : State) (n : Nat) (c : Command) : Prop :=
  let s1 := netTaken s n
  let q := getSeq s n
  let k := (getSeq s n).ctx.getD 16
  let a := (npOf c 0).toNat % 2 ^ 20
  (∀ y, readTable s1 n c = .ok y → NetStarts s n c (fun t x => x.status = 0 ∧ x.phase = 2 ∧ x.ready = s.clock ∧ t.mem = s.mem ∧
    (∃ w, (getLode t (n / 16)).waiting = some ({ y with ctx := q.ctx }, w) ∧ (lodeRuns (getLode s (n / 16)) = false → w = s.clock + 8)) ∧
    (getLode t (n / 16)).table = (getLode s (n / 16)).table ∧ ∀ j, j ≠ n / 16 → getLode t j = getLode s j)) ∧
  (∀ e d, readTable s1 n c = .error (e, d) → NetFails s n c e (fun t x => x.detail = BitVec.ofNat 16 d ∧ t.lodes = s.lodes)) ∧
  (let h := readNat s (placeP n a) 8
   let m := h / 2 ^ 9
   let w (i : Nat) : Nat := readNat s (placeP n (a + 8 + 8 * i)) 8
   npBad c = false → anyBit (npOf c 0) 20 44 = false → a % 8 = 0 → 1 ≤ h % 512 → h % 512 ≤ 256 → m ≤ 256 → ownInside q a (8 + 8 * m) = true →
   (∃ y, getCtx s k = some y ∧ q.ctx.isSome = true ∧ ∀ j, j < 16 → n / 16 * 16 + j ∈ y.seqs) → poisoned s (placeP n a) (8 + 8 * m) = false →
   (∀ i, i < m → w i % 256 < h % 512 ∧ w i / 2 ^ 12 % 16 = 0 ∧ w i / 2 ^ 16 % 2 ^ 16 ≠ 0 ∧ w i / 2 ^ 32 % 256 ≠ 0 ∧ w i / 2 ^ 40 = 0) →
   ((∀ i j, i < j → j < m → w i % 256 = w j % 256 → w i / 256 % 16 ≠ w j / 256 % 16 ∧ (w i / 2 ^ 32 % 256) &&& (w j / 2 ^ 32 % 256) = 0) →
     readTable s1 n c = .ok { period := h % 512, entries := (List.range m).map (fun i =>
       { cycle := w i % 256, port := w i / 256 % 16, rows := BitVec.ofNat 16 (w i / 2 ^ 16), cols := BitVec.ofNat 8 (w i / 2 ^ 32) }) }) ∧
   (∀ i j, i < j → j < m → w i % 256 = w j % 256 → (w i / 256 % 16 = w j / 256 % 16 ∨ (w i / 2 ^ 32 % 256) &&& (w j / 2 ^ 32 % 256) ≠ 0) →
     ∃ d, d ≤ j ∧ readTable s1 n c = .error (5, d)))

/-- What a started GDEF does (13 R271): the group of a good image is the context's, and a bad one fails with its status. -/
def GdefEffect (s : State) (n : Nat) (c : Command) : Prop :=
  let s1 := netTaken s n
  let q := getSeq s n
  let k := (getSeq s n).ctx.getD 16
  let a := (npOf c 0).toNat % 2 ^ 20
  (∀ g x, readGroup s1 n c = .ok g → q.ctx = some k → getCtx s k = some x → NetStarts s n c (fun t y => y.status = 0 ∧ y.phase = 2 ∧ t.mem = s.mem ∧
    ∃ z, getCtx t k = some z ∧ tfind z.groups g.1 = some g.2 ∧ ∀ i, i ≠ g.1 → tfind z.groups i = tfind x.groups i)) ∧
  (∀ e, readGroup s1 n c = .error e → NetFails s n c e (fun t _ => t.ctxs = s.ctxs)) ∧
  (let h := readNat s (placeP n a) 16
   let op := h / 2 ^ 8 % 4
   let mode := h / 2 ^ 10 % 4
   let fmt := h / 2 ^ 12 % 16
   let ew := sRead 16 (h / 2 ^ 16 % 2 ^ 16)
   let m := h / 2 ^ 32
   let ms := (List.range m).map (fun i => readNat s (placeP n (a + 16 + 2 * i)) 2)
   npBad c = false → anyBit (npOf c 0) 20 44 = false → a % 16 = 0 → 1 ≤ m → m ≤ 512 → ownInside q a (16 + 2 * m) = true → poisoned s (placeP n a) (16 + 2 * m) = false →
   h / 2 ^ 6 % 4 = 0 → op ≠ 3 → mode ≠ 3 → fmt < 10 → (mode ≠ 0 → ew = 0) → (∀ j ∈ ms, j < 512) → ∀ x, q.ctx = some k → getCtx s k = some x →
   ((∃ j ∈ ms, j ∉ x.seqs) → readGroup s1 n c = .error 6) ∧
   ((∀ j ∈ ms, j ∈ x.seqs) → readGroup s1 n c = if ms.Nodup ∧ ((mode = 0 ∧ op = 0 ∧ fmt ∈ [0, 6, 9] ∧ anyBit s.faccept 2 1 = true) ∨ (mode = 1 ∧ fmt = 0) ∨
     (mode = 2 ∧ fmt ∈ [6, 7, 8])) then .ok (h % 64, { op := op, mode := mode, fmt := BitVec.ofNat 4 fmt, ew := ew, members := ms }) else .error 7))

/-- What a started GLD does (13 R272): refused on its operands, on an absent definition, on staging; else it reads every member. -/
def GldEffect (s : State) (n : Nat) (c : Command) (g : BitVec 6) : Prop :=
  let q := getSeq s n
  let k := (getSeq s n).ctx.getD 16
  (gldBad c = true → NetFails s n c 1 (fun _ _ => True)) ∧
  (gldBad c = false → (∀ x, q.ctx = some k → getCtx s k = some x → tfind x.groups g.toNat = none → NetFails s n c 9 (fun _ _ => True)) ∧
    ∀ x d, q.ctx = some k → getCtx s k = some x → tfind x.groups g.toNat = some d → (gldUnfit q d c = true → NetFails s n c 1 (fun _ _ => True)) ∧
      (gldUnfit q d c = false → NetStarts s n c (fun t y => y.status = 0 ∧ y.group = some d ∧ y.leaves.length = d.members.length ∧ t.mem = s.mem)))

/-- What a started FPOST does (13 R277): refused on its operands, else its increment is on its way. -/
def FpostEffect (s : State) (n : Nat) (c : Command) : Prop :=
  let k := (getSeq s n).ctx.getD 16
  let fa := (npOf c 0).toNat % 2 ^ 56
  let bad : Bool := npBad c || anyBit (npOf c 0) 56 8 || anyBit (npOf c 1) 16 48
  (bad = true → NetFails s n c 1 (fun t _ => t.posts = s.posts)) ∧
  (bad = false → NetStarts s n c (fun t x => x.status = 0 ∧ x.phase = 4 ∧ t.mem = s.mem ∧ ∃ y, t.posts = s.posts ++ [y] ∧ y.fabric = fa ∧ y.inc = (npOf c 1).toNat % 2 ^ 16 ∧
    y.seq = n ∧ y.ctx = k ∧ y.netOf = some c.serial ∧ y.copyOf = none))

/-- What a started NAMO or NCAS does (13 R278, R280, R281): refused on its operands; else mapped by the range registers, an address outside them
stopping its context; a .sc atomic takes the next ticket, and no other does. -/
def NamoEffect (s : State) (n : Nat) (c : Command) : Prop :=
  let q := getSeq s n
  let sc : Prop := (∃ cf p z k w, c.op = .namo cf p 4 z k w) ∨ ∃ cf p z f w, c.op = .ncas cf p 4 z f w
  (npBad c = true ∨ (npOf c 0).toNat % atomicWidth c.op ≠ 0 → NetFails s n c 1 (fun t _ => t.tickets = s.tickets)) ∧
  (npBad c = false → (npOf c 0).toNat % atomicWidth c.op = 0 →
  (∀ r, rangeOf q (npOf c 0).toNat (atomicWidth c.op) 3 = some r → NetStarts s n c (fun t x => x.phase = 0 ∧ x.status = 0 ∧ x.fa = rgFbase r + ((npOf c 0).toNat - rgVbase r) ∧ t.mem = s.mem ∧
    (sc → x.ticket = some s.tickets ∧ t.tickets = s.tickets + 1) ∧ (¬sc → x.ticket = none ∧ t.tickets = s.tickets))) ∧
  (rangeOf q (npOf c 0).toNat (atomicWidth c.op) 3 = none → ∃ t x, exec (.networkCommandStart n) s = .next t ∧ t.fatals = s.fatals ++ [x] ∧ bits x 0 8 = 0x02#8))

/-- What a started PGMAP does (13 R282): the checks in their order, then the entry is written and nothing else. -/
def PgmapEffect (s : State) (n : Nat) (c : Command) : Prop :=
  let s1 := netTaken s n
  let q := getSeq s n
  let k := (getSeq s n).ctx.getD 16
  let fa := (npOf c 0).toNat % 2 ^ 56
  let l := (npOf c 2).toNat % 2
  let e := npOf c 1
  let bad : Bool := npBad c || anyBit (npOf c 0) 56 8 || anyBit (npOf c 2) 1 63 || fa % 2 ^ levelShift l != 0
  (servesPage s n fa (2 ^ levelShift l) = false → NetFails s n c 6 (fun _ _ => True)) ∧
  (servesPage s n fa (2 ^ levelShift l) = true → (bad = true → NetFails s n c 1 (fun _ _ => True)) ∧
    (bad = false → linkFailed s n fa = true ∨ dieStopped s (homeDie fa) = true → NetFails s n c 2 (fun t _ => t.ctxs = s.ctxs)) ∧
    ∀ x j, bad = false → linkFailed s n fa = false → dieStopped s (homeDie fa) = false → q.ctx = some k → getCtx s k = some x → installPlace s1 x fa l = .ok j → oldDamaged s1 e j = false →
      let old : Word := BitVec.ofNat 64 (readNat s j 8)
      let ok := entryOk s1 x fa l e && !(l == 1 && entV e && !entLeaf e) && !(entMig e && !(entV e && entV old && (l == 0 || entLeaf old)))
      (ok = false → NetFails s n c 8 (fun _ _ => True)) ∧
      (ok = true → Memory.wf s.mem = true → ∃ t, exec (.networkCommandStart n) s = .next t ∧ readNat t j 8 = e.toNat ∧
        (∀ i, i < j ∨ j + 8 ≤ i → memGet t.mem i = memGet s.mem i) ∧ ∃ y ∈ (getSeq t n).net.running, y.cmd = c ∧ y.status = 0 ∧ y.phase = 3))

/-- What a started PGDONE does (13 R283): the requests that wait for its page go on, or fail. -/
def PgdoneEffect (s : State) (n : Nat) (c : Command) : Prop :=
  let q := getSeq s n
  let k := (getSeq s n).ctx.getD 16
  let fa := (npOf c 0).toNat % 2 ^ 56
  let bad : Bool := npBad c || anyBit (npOf c 0) 56 8 || anyBit (npOf c 1) 1 63 || fa % 65536 != 0
  (servesPage s n fa 1 = false → NetFails s n c 6 (fun t _ => t.woken = s.woken)) ∧
  (servesPage s n fa 1 = true → (bad = true → NetFails s n c 1 (fun t _ => t.woken = s.woken)) ∧
    (bad = false → linkFailed s n fa = true ∨ dieStopped s (controllerDie fa) = true → NetFails s n c 2 (fun t _ => t.woken = s.woken ∧ t.ctxs = s.ctxs)) ∧
    ∀ x r, bad = false → linkFailed s n fa = false → dieStopped s (controllerDie fa) = false → q.ctx = some k → getCtx s k = some x → regionOf x fa = some r →
      let mine := r.waits.filter (fun h => h.page == fa)
      ∃ t y z, exec (.networkCommandStart n) s = .next t ∧ getCtx t k = some y ∧ regionOf y fa = some z ∧ z.waits = r.waits.filter (fun h => h.page != fa) ∧
        ((npOf c 1).getLsbD 0 = false → t.woken = s.woken ++ mine) ∧
        ((npOf c 1).getLsbD 0 = true → t.woken = s.woken ∧ ∀ h ∈ mine, h.serial ≠ c.serial →
          (h.eng = 1 → ∀ w ∈ (getSeq t h.seq).net.running, w.cmd.serial = h.serial → w.wait = 2) ∧
          (h.eng = 0 → ∀ w ∈ (getSeq t h.seq).cpy.running, w.cmd.serial = h.serial → fa ∈ (if h.write then w.failW else w.failR))))

/-! ## What a save keeps (16 R309, R310) -/

/-- The image of sequencer `n` in its save area of context `c`, word for word at the offsets of R309: state registers, program counter, queues
and named registers with their poison bits, flags, masks, staging, format and range registers, generator bases, routine table, micro-steps,
vector registers and the pending writes with LEFT, their lanes and their values; its I, E and P after them; nothing else of memory changes, and
reading the area back gives I, E and P. -/
def SavedImage (s : State) (c n : Nat) : Prop :=
  let q := getSeq s n
  let f := tickFlags q
  let at0 := saveAreaPlace (n / 128) c (0x200000 * (n % 128))
  let w := writeImage s c n
  let word (o k : Nat) : Nat := readNat w (at0 + o) k
  let mark (l : List Scalar) (o k : Nat) : Prop := ∀ i, i < l.length → ((word o k).testBit i = true ↔ (at' l i {}).poison = true)
  q.ctx = some c → q.status ≠ .idle → Memory.wf s.mem = true → q.q.length = 16 ∧ q.sq.length = 16 ∧ q.g.length = 32 ∧ q.m.length = 8 ∧ q.ag.length = 8 ∧ q.mp.length = 8 ∧
    q.cp.length = 8 ∧ q.np.length = 8 ∧ q.f.length = 32 ∧ q.zones.length = 16 ∧ q.ranges.length = 8 ∧ q.v.length = 48 ∧ q.z.length = 8 ∧ q.pending.length ≤ 128 →
  (∀ r, r < 20 → r ≠ 10 → word (8 * r) 8 = (readSr f n r).toNat) ∧ word 0xA0 8 = q.pc.toNat + 2 ^ 11 ∧ word 0xA8 8 = q.pending.length ∧ word 0xB0 8 = q.segRes.toNat ∧
  (∀ i, i < 16 → word (0x100 + 8 * i) 8 = (at' q.q i {}).bits.toNat ∧ word (0x310 + 8 * i) 8 = (at' q.sq i {}).bits.toNat ∧ word (0x840 + 4 * i) 4 = (at' q.zones i 0).toNat) ∧
  (∀ i, i < 32 → word (0x200 + 8 * i) 8 = (at' q.g i {}).bits.toNat ∧ word (0x800 + 2 * i) 2 = (at' f.f i 0).toNat ∧
    word (0x900 + 2 * i) 2 = (match (q.routines[i]?).join with
      | some e => e.toNat + 2 ^ 15
      | none => (at' q.startIdle i 0).toNat)) ∧
  mark q.q 0x180 8 ∧ mark q.g 0x300 8 ∧ mark q.sq 0x390 8 ∧
  (∀ i, i < 8 → word (0x400 + 32 * i) 32 = (at' q.m i 0).toNat ∧ word (0x700 + 8 * i) 8 = (at' q.mp i 0).toNat ∧ word (0x740 + 8 * i) 8 = (at' q.cp i 0).toNat ∧
    word (0x780 + 8 * i) 8 = (at' q.np i 0).toNat ∧ word (0x880 + 16 * i) 16 = (at' q.ranges i 0).toNat ∧ word (0x500 + 64 * i) 4 = (at' q.ag i {}).base.toNat) ∧
  (∀ i, i < 256 → word (0xC00 + 8 * i) 8 = (at' q.micro i 0).toNat ∧ ∀ r, r < 48 → word (0x2000 + 1024 * r + 4 * i) 4 = (at' (at' q.v r []) i 0).toNat) ∧
  (∀ l e r, q.pending = l ++ e :: r → let o := 0x1E000 + 1152 * l.length
    ((pendingKind e).2.1 < 256 → word (o + 2) 1 = e.left % 256) ∧ word (o + 8) 32 = e.lanes.toNat ∧ (∀ k, e.dest = .vector k → k < 48 → word o 2 = 2 + 2 ^ 8 * k ∧ ∀ j, j < 256 → word (o + 64 + 4 * j) 4 = (at' e.vec j 0).toNat)) ∧
  (∀ i, (i < 0x10000 → memGet w.mem (at0 + 0x50000 + i) = memGet s.mem (placeI n i)) ∧ (i < 0x40000 → memGet w.mem (at0 + 0x60000 + i) = memGet s.mem (placeE n i)) ∧
    (i < 0x100000 → memGet w.mem (at0 + 0x100000 + i) = memGet s.mem (placeP n i)) ∧ (i < at0 ∨ at0 + 0x200000 ≤ i → memGet w.mem i = memGet s.mem i)) ∧
  ∀ i, (i < 0x10000 → memGet (restoreMemory w c n).mem (placeI n i) = memGet s.mem (placeI n i)) ∧ (i < 0x40000 → memGet (restoreMemory w c n).mem (placeE n i) = memGet s.mem (placeE n i)) ∧
    (i < 0x100000 → memGet (restoreMemory w c n).mem (placeP n i) = memGet s.mem (placeP n i))

end Sys2Proof.Machine
end

