-- ==== Sys2Proof/Certificates/Slice0/Obligations.lean ====
section
/-! DEFINITION. The statements about this model, for the provers. -/

section
open Sys2Proof Sys2Proof.Machine

/-! ## Encoding -/

/-- Words that the manual works out from its encodings (02 R73; 03 R81; 05 R117; 01, 12 and 08's examples), each read in its slot,
and micro-step words of 08 R189. -/
def Obligations.WordsOfTheManual : Prop :=
  decodeSlot 0 0x11480010#32 = some (.waitc 5 1 16) ∧
  decodeSlot 0 0x19D10001#32 = some (.post 7 2 1 1) ∧
  decodeSlot 0 0x28000003#32 = some (.quiet 3) ∧
  decodeSlot 0 0x48050000#32 = some (.drain 5) ∧
  decodeSlot 0 0x50000000#32 = some .endOp ∧
  decodeSlot 1 0x72520080#32 = some (.stgi 10 1 0x40) ∧
  decodeSlot 2 0x75600003#32 = some (.srd 44 3) ∧
  decodeSlot 2 0x76058003#32 = some (.swr 44 3) ∧
  decodeSlot 1 0x55658800#32 = some (.ori 44 44 0x800) ∧
  decodeSlot 1 0x51248001#32 = some (.addi 36 36 1) ∧
  decodeSlot 1 0xCE000000#32 = some .tret ∧
  decodeSlot 1 0x1AA24980#32 = some (.minu 20 18 19) ∧
  decodeStep 0x1FF0000000000000#64 = some (.stepHead 0xFF) ∧
  decodeStep 0#64 = some .stepEnd

/-- Every slot operation, with every value of every field, is what its word decodes to in each slot that may hold it, and a word that decodes in a slot is
the word of that operation, which may stand there: no bit of an encoding is dropped or overlooked, and an unassigned opcode, an opcode in another slot and a
nonzero reserved bit decode to no instruction (01 R7, R12, R14, R24, R29 to R33; 02 R30). -/
def Obligations.SlotWordsRoundTrip : Prop :=
  (∀ i : Instr, ∀ k ∈ slotsOf i, decodeSlot k (encodeSlot i) = some i) ∧
  ∀ (k : Nat) (w : BitVec 32) (i : Instr), decodeSlot k w = some i → k ∈ slotsOf i ∧ encodeSlot i = w

/-- Every micro-step whose field values 08 R189 permits is what its word decodes to, and a word that decodes is the word of that micro-step, so that a reserved
kind and a nonzero reserved bit are no step; a word of a store is a step of a routine exactly where it is undamaged (22 R382), decodes, and holds permitted values. -/
def Obligations.MicroStepWordsRoundTrip : Prop :=
  (∀ i : Instr, isStep i = true → wellFormed i = true → decodeStep (encodeStep i) = some i) ∧
  (∀ (w : BitVec 64) (i : Instr), decodeStep w = some i → isStep i = true ∧ encodeStep i = w) ∧
  ∀ (q : Seq) (x : Nat) (i : Instr), stepAt q x = some i ↔ x ∉ q.microBad ∧ decodeStep (at' q.micro x 0) = some i ∧ wellFormed i = true

/-- Opcode 0 (01 R13): the zero word is NOP in every slot, a word with opcode 0 and any other bit set is no instruction there,
and the operation itself changes nothing in its bundle. -/
def Obligations.ZeroSlotIsNop : Prop :=
  (∀ k, k < 8 → decodeSlot k 0#32 = some .nop) ∧
  (∀ w : BitVec 32, w ≠ 0 → (bits w 27 5 = 0#5 → ∀ k ∈ [0, 5, 6, 7], decodeSlot k w = none) ∧
    (bits w 25 7 = 0#7 → ∀ k ∈ [1, 2, 4], decodeSlot k w = none) ∧ (bits w 28 4 = 0#4 → decodeSlot 3 w = none)) ∧
  Answers .nop (fun _ u => u)

/-! ## Reset and the invariant -/

/-- What the manual gives for reset (20 R349, R360, R370; 21 R375; 22 R388): no feature is accepted and FACCEPT is not committed, every
queue is disabled with its registers 0, the frame counter and the mailbox's status read 0, no context exists, the Peat log is
empty, and every die's DRSTAT reads in service. The model adds no value of its own here. -/
def Obligations.ResetLeaves : Prop :=
  hostRead State.reset 0 0x110 = 0 ∧ hostRead State.reset 0 0x118 = 0 ∧ hostRead State.reset 0 0x120 = 0 ∧
  hostRead State.reset 0 0x200 = 0 ∧ hostRead State.reset 0 0x1020 = 0 ∧
  (∀ q, q < 64 → hostRead State.reset 0 (0x20000 + 64 * q) = 0 ∧ hostRead State.reset 0 (0x20008 + 64 * q) = 0 ∧
    hostRead State.reset 0 (0x20010 + 64 * q) = 0 ∧ hostRead State.reset 0 (0x20020 + 64 * q) = 0 ∧
    hostRead State.reset 0 (0x30000 + 32 * q) = 0) ∧
  (∀ c, c < 16 → getCtx State.reset c = none) ∧ State.reset.peat.count = 0 ∧ (∀ d, (getDie State.reset d).st = 0)

/-- The invariant holds right after reset. -/
def Obligations.ResetMeetsInvariant : Prop := StateInv State.reset

/-- Every step keeps the invariant: memory stays in its canonical form and no bundle is left half issued. -/
def Obligations.StepKeepsInvariant : Prop := ∀ s t : State, StateInv s → step s = .next t → StateInv t

/-! ## The step -/

/-- A step in which sequencer `n` has its turn issues the bundle at its program counter (01 R13, R14; 05 R106): the eight slots,
each read by the decoder, in order, then the bundle's end. A DRAIN before it that holds no longer is over (03 R83); beside that the turn, the
sequencers that have had theirs and the open bundle, nothing of the state has changed when the first slot is reached. A bundle damaged at fetch is not decoded: it stops
the context with cause 0x07 and SLOT 0xFF (05 R118); one that begins a segment still being fetched is held, and nothing of its sequencer changes (05 R120). The model's order of the
steps in a clock is log entry 2. -/
def Obligations.StepIssuesBundle : Prop :=
  ∀ (s : State) (n : Nat) (r : List Nat),
    let q := getSeq s n
    inputDue s = none → s.halted = false → (s.ran = [] → due s = none ∧ mailboxDue s = none) → s.turn = n :: r → q.status = .running →
    live s q = true → q.gap = 0 → (q.drain = none ∨ drainDone s n q = true) →
    let v := setSeq { s with turn := r, ran := s.ran ++ [n] } n { q with drain := none }
    ((∃ f ∈ q.segFetch, f.load = q.pc.toNat) → step s = .next v) ∧
    ((∀ f ∈ q.segFetch, f.load ≠ q.pc.toNat) → poisoned s (bundlePlace n q) 32 = true → ∃ t, step s = .next t ∧ t.mem = s.mem ∧
      getSeq t n = { q with drain := none, status := .stopped } ∧ (∀ k, k ≠ n → getSeq t k = getSeq s k) ∧
      t.fatals = s.fatals ++ [fatalRecord q n 0x07 0xFF q.pc 0] ∧
      ∀ c x, q.ctx = some c → getCtx s c = some x → ∃ y, getCtx t c = some y ∧ 3 ≤ y.life) ∧
    ((∀ f ∈ q.segFetch, f.load ≠ q.pc.toNat) → poisoned s (bundlePlace n q) 32 = false → step s = (match issueSlots (bundleDests s (bundlePlace n q)) 0 (decodeBundle s (bundlePlace n q))
        { v with bundle := some (openBundle v n), cur := n } with
      | .next t => .next (endBundle t)
      | o => o))

/-- A slot whose word decodes to `i` runs exec of `i` in its slot; a slot whose word decodes to nothing raises the illegal
encoding fault there (01 R14, R15); a slot that shares a destination with another runs after such a fault is raised.
Two slots share one where both name the same g, v, z or mask register as destination; a push names none, and CALL names g31. -/
def Obligations.SlotsRunDecodedInstructions : Prop :=
  (∀ l k i r s t, exec i (enterSlot s k (collides l k)) = .next t → issueSlots l k (some i :: r) s = issueSlots l (k + 1) r t) ∧
  (∀ l k r s, issueSlots l k (none :: r) s = issueSlots l (k + 1) r (enterSlot s k true)) ∧
  (∀ l k s, issueSlots l k [] s = .next s) ∧
  (∀ s b k, s.bundle = some b → enterSlot s k false = { s with bundle := some { b with slot := k } } ∧
    enterSlot s k true = { s with bundle := some { b with slot := k, faults := b.faults ++ [(k, 1, 0)] } }) ∧
  ((∀ l k, collides l k = true ↔ ∃ d ∈ at' l k [], ∃ j, j < 8 ∧ j ≠ k ∧ d ∈ at' l j []) ∧
   (∀ s p k i, k < 8 → decodeSlot k (slotWord s p k) = some i → at' (bundleDests s p) k [] = destsOf i) ∧
   (∀ i d, scalarTarget i = some d → destsOf i = if 16 ≤ d.toNat ∧ d.toNat ≤ 47 then [d.toNat - 16] else []) ∧
   (∀ o, destsOf (.call o) = [31]) ∧
   (∀ v c l k, destsOf (.xtov v c l k) = if v.toNat < 48 then [100 + v.toNat] else []) ∧
   (∀ i d r, isVectorOp i = true → vectorFields i = d :: r → (∀ v g m t, i ≠ .vst v g m t) → (∀ v g b m t, i ≠ .vstx v g b m t) →
     (∀ c e a b m t, i ≠ .vcmp c e a b m t) → destsOf i = if d.toNat < 56 then [100 + d.toNat] else []) ∧
   (∀ k q a, destsOf (.xmask k 0 q a) = [200 + k.toNat]) ∧ (∀ c k a b m t, destsOf (.vcmp c k a b m t) = [200 + k.toNat]) ∧
   (∀ k a b t, destsOf (.vmop k a b t) = [200 + k.toNat]) ∧ ∀ k c z b m p g, destsOf (.vdec k c z b m p g) = [200 + k.toNat])

/-- A step of an engine, core or link that is due, and a step of the outside world whose clock has come, is exec of it
(log entry 2 gives their order; log entry 27 gives the mailbox command's place), and the micro-step due for a routine is the one its word, where undamaged, decodes to (08 R191, R193; 22 R382).
When nothing is left to do in a clock, the step is its end: the clock advances by one, the timestamp of 22 R398 by the
tenths that R399 gives the present step; a watchdog that has run out comes before that end. With the compute dies stopped (R400) the hub's steps, the mailbox command and accesses that
have left go on, and at the clock's end no sequencer is given a turn and none changes. -/
def Obligations.StepRunsWhatIsDue : Prop :=
  ((∀ s x r, inputDue s = some (x, r) → step s = exec x { s with inputs := r }) ∧
  (∀ s n i, inputDue s = none → s.halted = false → s.ran = [] → due s = some (n, i) → step s = exec i { s with cur := n }) ∧
  (∀ s w, inputDue s = none → s.halted = false → s.ran = [] → due s = none → mailboxDue s = some w → step s = carryOut s w) ∧
  (∀ s q r, q.mx.routine = some r → r.ended = false → r.feed = none → r.waitSync = false → r.ready ≤ s.clock → r.pc ∉ q.microBad →
    microDue s q = decodeStep (at' q.micro r.pc 0))) ∧
  ((∀ s, inputDue s = none → s.halted = false → (s.ran = [] → due s = none ∧ mailboxDue s = none) → s.turn = [] →
    (watchdogStep s = none → step s = .next (tick s)) ∧ (∀ n i, watchdogStep s = some (n, i) → step s = exec i { s with cur := n })) ∧
  (∀ s, (tick s).clock = s.clock + 1 ∧ (tick s).stamp = s.stamp + clockTenths s.mgmt.clkstep ∧ (tick s).ran = []) ∧
  (∀ s n i, inputDue s = none → s.halted = true → haltedDue s = some (n, i) → step s = exec i { s with cur := n }) ∧
  (∀ s w, inputDue s = none → s.halted = true → haltedDue s = none → mailboxDue s = some w → step s = carryOut s w) ∧
  (∀ s, inputDue s = none → s.halted = true → haltedDue s = none → mailboxDue s = none →
    step s = .next (tick s) ∧ (tick s).turn = [] ∧ (tick s).seqs = s.seqs))

/-! ## The bundle: faults, fatal conditions, stalls, commit -/

/-- The choice of the recorded cause (01 R15): from the lowest-numbered faulting slot, the lowest cause; the mask has a bit for
each faulting slot and no other; the fields of sr.trapcause. -/
def Obligations.FaultRecord : Prop :=
  (∀ l : List (Nat × Nat × BitVec 16), l ≠ [] → recordedFault l ∈ l ∧
    ∀ f ∈ l, (recordedFault l).1 < f.1 ∨ ((recordedFault l).1 = f.1 ∧ (recordedFault l).2.1 ≤ f.2.1)) ∧
  (∀ l : List (Nat × Nat × BitVec 16), (∀ f ∈ l, f.1 < 8) → ∀ k, k < 64 →
    ((faultMask l).getLsbD k = true ↔ ∃ f ∈ l, f.1 = k)) ∧
  (∀ (slot cause : Nat) (code : BitVec 16), slot < 8 → cause < 256 →
    bits (trapWord (slot, cause, code)) 0 8 = BitVec.ofNat 8 cause ∧ bits (trapWord (slot, cause, code)) 8 3 = BitVec.ofNat 3 slot ∧
    bits (trapWord (slot, cause, code)) 11 5 = 0#5 ∧ bits (trapWord (slot, cause, code)) 16 16 = code ∧
    bits (trapWord (slot, cause, code)) 32 32 = 0#32)

/-- Taking a bundle fault (05 R114, 01 R16): outside a handler, with a handler enabled and no BRK under break-enable, cause and mask
are written, sr.resume names the faulting bundle with SKIP 0, shadow and loops are set aside, the shadow queue is reset, the handler
flag is set, the handler's bundle issues two clocks later, and nothing else of the sequencer, no byte of memory, no fatal record and no
other sequencer has changed. A BRK under break-enable (03 R87) writes cause and mask, leaves the rest of the sequencer as it stood, and
asks for the halt of its context. No effect of the bundle stands, an acquire of its slot 0 among them (01 R16). -/
def Obligations.FaultEntersHandler : Prop :=
  ∀ (s : State) (b : Bundle), b.faults ++ backEdgeFault b ≠ [] →
    let l := b.faults ++ backEdgeFault b
    let q := getSeq s b.seq
    let breaks (x : Ctx) : Prop := x.brken = true ∧ ∃ f ∈ l, f.2.1 = 7
    let others : Prop := (closeBundle s b).mem = s.mem ∧ (closeBundle s b).fatals = s.fatals ∧
      ∀ n, n ≠ b.seq → getSeq (closeBundle s b) n = getSeq s n
    (q.sr.hstat = false → anyBit q.sr.tvec 15 1 = true →
      (∀ c x, q.ctx = some c → getCtx s c = some x → ¬ breaks x) →
      getSeq (closeBundle s b) b.seq = { q with
        pc := bits q.sr.tvec 0 11, gap := 1, sq := List.replicate 16 {}, savedShadow := q.shadow,
        savedLoops := q.loops, shadow := none, loops := [],
        sr := { q.sr with faultmask := faultMask l, trapcause := trapWord (recordedFault l),
                                resume := q.pc.setWidth 64, hstat := true } } ∧
      anyBit (getSeq (closeBundle s b) b.seq).sr.resume 11 1 = false ∧ others) ∧
    (∀ c x, q.ctx = some c → getCtx s c = some x → breaks x →
      getSeq (closeBundle s b) b.seq = { q with
        sr := { q.sr with faultmask := faultMask l, trapcause := trapWord (recordedFault l) } } ∧
      (∃ y, getCtx (closeBundle s b) c = some y ∧ b.seq ∈ y.brkSeqs) ∧ others)

/-- A bundle fault inside a handler, or with no handler enabled, is a fatal context error of cause 0x08 or 0x09 (05 R115, R118):
its record is appended with the fault's slot, bundle and trap word, the sequencer stops at that bundle with cause and mask written and
nothing else of it changed, its context is stopped, and no byte of memory and no other sequencer changes. That cause and mask are
written here too, where no handler is entered, is the model's choice, deduced from 01 R15 (log entry 36). A BRK under break-enable, which
halts for debug there too, is apart. -/
def Obligations.FaultWithoutHandlerStops : Prop :=
  ∀ (s : State) (b : Bundle), b.faults ++ backEdgeFault b ≠ [] →
    let l := b.faults ++ backEdgeFault b
    let q := getSeq s b.seq
    (∀ c x, q.ctx = some c → getCtx s c = some x → x.brken = false ∨ ∀ f ∈ l, f.2.1 ≠ 7) →
    (q.sr.hstat = true ∨ anyBit q.sr.tvec 15 1 = false) →
    getSeq (closeBundle s b) b.seq = { q with
      status := .stopped,
      sr := { q.sr with faultmask := faultMask l, trapcause := trapWord (recordedFault l) } } ∧
    (closeBundle s b).fatals = s.fatals ++ [fatalRecord q b.seq (if q.sr.hstat then 0x08 else 0x09) (recordedFault l).1
      q.pc (trapWord (recordedFault l))] ∧
    (∀ x n slot p d, bits (fatalRecord x n 0x08 slot p d) 0 8 = 0x08#8 ∧ bits (fatalRecord x n 0x09 slot p d) 0 8 = 0x09#8) ∧
    (∀ c x, q.ctx = some c → getCtx s c = some x → ∃ y, getCtx (closeBundle s b) c = some y ∧ 3 ≤ y.life) ∧
    (closeBundle s b).mem = s.mem ∧ ∀ n, n ≠ b.seq → getSeq (closeBundle s b) n = getSeq s n

/-- Bundle faults come before stalls (01 R17), and stalls before fatal conditions, which are those of a bundle that would issue (02 R45; log entry 75): with
no fault and no stall the first fatal condition found is recorded, the sequencer stops and nothing of the bundle takes effect.
A bundle that does not fault, and in which a slot stalls, does nothing but count for the watchdog (01 R17, 05 R119). -/
def Obligations.FatalConditionStops : Prop :=
  (∀ (s : State) (b : Bundle) (f : Nat × Nat × Word) (r : List (Nat × Nat × Word)),
    b.faults = [] → backEdgeFault b = [] → b.stalls = [] → b.fatals = f :: r → getSeq s b.seq = b.start →
    getSeq (closeBundle s b) b.seq = { b.start with status := .stopped } ∧ (closeBundle s b).mem = s.mem ∧
    (closeBundle s b).fatals = s.fatals ++ [fatalRecord b.start b.seq f.2.1 f.1 b.start.pc f.2.2] ∧
    (∀ n, n ≠ b.seq → getSeq (closeBundle s b) n = getSeq s n) ∧
    (∀ c x, b.start.ctx = some c → getCtx s c = some x → ∃ y, getCtx (closeBundle s b) c = some y ∧ 3 ≤ y.life)) ∧
  (∀ (s : State) (b : Bundle) (c : Nat × Word) (r : List (Nat × Word)),
    b.faults = [] → backEdgeFault b = [] → b.stalls = c :: r → getSeq s b.seq = b.start →
    getSeq (closeBundle s b) b.seq = { b.start with stallCount := b.start.stallCount + 1, stallSlot := c.1, stallDetail := c.2 } ∧
    (closeBundle s b).mem = s.mem ∧ (closeBundle s b).fatals = s.fatals ∧ (∀ n, n ≠ b.seq → getSeq (closeBundle s b) n = getSeq s n))

/-- A bundle that commits (01 R16, R18): every byte of memory outside its stores stands, a byte that several stores write holds what the last of them in slot order wrote
(02 R57; a vector store's many stores are in lane order), a single store's bytes read back, no other
sequencer changes, and with no QUIET, DRAIN or END its sequencer is what the slots made of it, with the control flow applied. A DRAIN then holds
the next bundle (03 R83); an END ends the task's issue, its results in flight, its shadow and its loops, those set aside by a handler's entry among them (03 R84). -/
def Obligations.CommitTakesEffect : Prop :=
  ∀ (s : State) (b : Bundle), Commits b → Memory.wf s.mem = true →
    (∀ a, Outside b.stores a → memGet (closeBundle s b).mem a = memGet s.mem a) ∧
    (∀ l o r k, b.stores = l ++ o :: r → k < o.bytes.length → Outside r (o.place + k) →
      memGet (closeBundle s b).mem (o.place + k) = at' o.bytes k 0) ∧
    (∀ o, b.stores = [o] → readBytes (closeBundle s b) o.place o.bytes.length = o.bytes) ∧
    (∀ n, n ≠ b.seq → getSeq (closeBundle s b) n = getSeq s n) ∧
    (closeBundle s b).fatals = s.fatals ∧
    (b.quiet = none → b.ends = false → b.drains = none → b.work.drain = none →
      getSeq (closeBundle s b) b.seq = flow { b.work with stallCount := 0, stallDetail := 0 } b.start.pc b.ctl) ∧
    (b.quiet = none → b.ends = false → ∀ k, b.drains = some k →
      getSeq (closeBundle s b) b.seq = { flow { b.work with stallCount := 0, stallDetail := 0 } b.start.pc b.ctl with drain := some k }) ∧
    (b.ends = true → (getSeq (closeBundle s b) b.seq).status = .ending ∧ (getSeq (closeBundle s b) b.seq).pending = [] ∧
      (getSeq (closeBundle s b) b.seq).shadow = none ∧ (getSeq (closeBundle s b) b.seq).loops = [] ∧
      (getSeq (closeBundle s b) b.seq).savedShadow = none ∧ (getSeq (closeBundle s b) b.seq).savedLoops = [])

/-- Control flow at commit (02 R62, R68): a taken transfer lets the next three bundles issue and then reaches its target; a LOOP whose
count is 0 goes behind its body, any other enters its loop, of which at most two stand; a loop entry at its last bundle goes back until
its passes are done, and then goes, and an outer entry that ends there too is judged with it; a bundle with none of these is followed by
the next one, and each changes nothing of the sequencer but the program counter, the shadow and the loops.
The return from a handler (02 R71, 05 R117): the shadow queue and the results in flight to it are discarded, sr.hstat.IN is cleared,
shadow and loops are reinstated, and control passes to the resume point; with SKIP the bundle there counts as committed. Nothing else
changes. -/
def Obligations.ControlFlow : Prop :=
  ((∀ (q : Seq) (x t : BitVec 11), (∀ e ∈ q.loops.head?, ∀ k ∈ [0#11, 1#11, 2#11, 3#11], e.last ≠ x + k) →
    let q1 := flow q x (.transfer t)
    let q2 := flowOn q1 q1.pc
    let q3 := flowOn q2 q2.pc
    let q4 := flowOn q3 q3.pc
    q1 = { q with pc := x + 1, shadow := some ⟨t, 3⟩ } ∧ q2 = { q with pc := x + 2, shadow := some ⟨t, 2⟩ } ∧
    q3 = { q with pc := x + 3, shadow := some ⟨t, 1⟩ } ∧ q4 = { q with pc := t, shadow := none }) ∧
  (∀ (q : Seq) (x : BitVec 11) (e : LoopEntry) (r : List LoopEntry), q.shadow = none → q.loops = e :: r → e.last = x → 1 < e.left →
    flow q x .none = { q with pc := e.start, loops := { e with left := e.left - 1 } :: r }) ∧
  (∀ (q : Seq) (x : BitVec 11) (e : LoopEntry) (r : List LoopEntry), q.loops = e :: r → e.last = x → e.left ≤ 1 →
    flow q x .none = flow { q with loops := r } x .none) ∧
  (∀ (q : Seq) (x : BitVec 11), q.shadow = none → (∀ e ∈ q.loops.head?, e.last ≠ x) → flow q x .none = { q with pc := x + 1 }) ∧
  (∀ (q : Seq) (x t : BitVec 11), (∀ e ∈ q.loops.head?, e.last ≠ x) → flow q x (.skipLoop t) = { q with pc := t }) ∧
  (∀ (q : Seq) (x : BitVec 11) (e : LoopEntry), q.shadow = none → e.last ≠ x →
    flow q x (.enterLoop e) = { q with pc := x + 1, loops := e :: q.loops.take 1 })) ∧
  (∀ (q : Seq) (x : BitVec 11),
    let back : Seq := { q with sr := { q.sr with hstat := false }, sq := List.replicate 16 {}, savedShadow := none, savedLoops := [],
                               pending := q.pending.filter (fun e => !intoShadow e),
                               shadow := q.savedShadow, loops := q.savedLoops, pc := bits q.sr.resume 0 11 }
    (anyBit q.sr.resume 11 1 = false → flow q x .tret = back) ∧
    (anyBit q.sr.resume 11 1 = true → flow q x .tret = flow back (bits q.sr.resume 0 11) .none))

/-- The next value of a flag (03 R77): its base plus every increment of the clock, at most 0xFFFF; past it the sticky bit is set.
A committed QUIET (03 R85, 05 R116): on a quiet bundle outside a handler sr.cutlabel takes the label and sr.cutnext counts one;
otherwise both stand and sr.cutmiss counts one, at most 0xFFFF_FFFF. -/
def Obligations.FlagRule : Prop :=
  (∀ (q : Seq) (k : Nat), k < 32 → q.f.length = 32 → q.fInc.length = 32 →
    let old := (at' q.f k 0).toNat
    let base := match q.fBase with
      | some (g, none) => if g = k then 0 else old
      | some (g, some th) => if g = k then old - th.toNat else old
      | none => old
    let sum := base + at' q.fInc k 0
    (at' (tickFlags q).f k 0).toNat = min sum 0xFFFF ∧
    (tickFlags q).sr.flagsat.getLsbD k = (q.sr.flagsat.getLsbD k || decide (0xFFFF < sum))) ∧
  (∀ (q : Seq) (l : BitVec 16) (h : Bool),
    (quietNow q = true → h = false → (commitQuiet q l h).sr = { q.sr with cutnext := q.sr.cutnext + 1, cutlabel := l }) ∧
    (quietNow q = false ∨ h = true → (commitQuiet q l h).sr.cutnext = q.sr.cutnext ∧ (commitQuiet q l h).sr.cutlabel = q.sr.cutlabel ∧
      (commitQuiet q l h).sr.cutmiss.toNat = min (q.sr.cutmiss.toNat + 1) 0xFFFFFFFF) ∧
    (quietNow q = true ↔ q.mx.queue = [] ∧ q.mx.running = [] ∧ q.mx.routine = none ∧ q.mx.fills = [] ∧
      (∀ c ∈ q.net.queue, isLsend c.op = false ∧ isGld c.op = false) ∧ (∀ r ∈ q.net.running, isLsend r.cmd.op = false ∧ isGld r.cmd.op = false)))

/-- A slot operation that a decode check refuses has no effect in its bundle but that fault (01 R14, R16). -/
def Obligations.ChecksPrecedeEffects : Prop :=
  ∀ (i : Instr) (s : State) (b : Bundle), slotsOf i ≠ [] → s.bundle = some b → issueCauses s.faccept b.start.sr.hstat i ≠ [] →
    ∃ c, exec i s = .next { s with bundle := some c, free := s.free + 1 } ∧
      c = { b with faults := b.faults ++ (issueCauses s.faccept b.start.sr.hstat i).map (fun k => (b.slot, k, (0 : BitVec 16))) }

/-- Modes, features and reserved operands (01 R14, R34, 07 R161; 02 R71, R75; 05 R105, R115): TRET outside a handler is illegal, SWR of
sr.resume outside one and of a read-only register a reserved operand, as SRD and SWR of a number that names no register are; inside one a vector field that names a stream, every VDEC and
every VCUT is a reserved operand; each encoding of R34's table raises cause 3 where its feature is not accepted, and not where it is;
scalar operand codes 56 to 63, scalar destination codes 1 to 15 and 48 to 63, and vector codes 58 to 63 are reserved in every operand
position. The value checks of R14: each order, scope, condition, compare, kind, width, md, par, sel, rounding, type (07 R149, R164), fn and header value (12 R243, 13 R264) named is an
illegal encoding, and no other value of these forms is. The register checks of the vector and transfer forms: codes 56 and 57 as destination, a stream destination
that 07 R148 forbids, and the codes of XTOV, XFROMV, LSEND, VCUT and STG, are reserved operands, and no other code there is. That sr.seg reads zero while the overlays' feature is not accepted is deduced from 00 R11
(log entry 74). -/
def Obligations.ModeAndFeatureChecks : Prop :=
  ((∀ f, issueCauses f false .tret = [1]) ∧ (∀ f, issueCauses f true .tret = []) ∧
   (∀ f a, a.toNat < 56 → issueCauses f false (.swr a 3) = [2] ∧ issueCauses f true (.swr a 3) = []) ∧
   (∀ f h a d r, 0x014 ≤ r.toNat → 2 ∈ issueCauses f h (.swr a r) ∧ 2 ∈ issueCauses f h (.srd d r)) ∧
   (∀ f a h r, r ∈ [0x001#12, 0x002, 0x004, 0x005, 0x006, 0x007, 0x00C, 0x00D, 0x00E, 0x00F, 0x010, 0x011, 0x012, 0x013] →
     2 ∈ issueCauses f h (.swr a r))) ∧
  ((∀ f z k m, 2 ∈ issueCauses f true (.vcut z k m)) ∧ (∀ f d c z b m p k, 2 ∈ issueCauses f true (.vdec d c z b m p k)) ∧
   (∀ f i, ∀ c ∈ vectorFields i, 48 ≤ c.toNat → c.toNat ≤ 55 → 2 ∈ issueCauses f true i)) ∧
  (let gated (k : Nat) (i : Instr) : Prop := ∀ f h, 3 ∈ issueCauses f h i ↔ anyBit f k 1 = false
   (∀ k, gated 0 (.segb k)) ∧ (∀ z k m, gated 1 (.vcut z k m)) ∧ (∀ d c z b m p k, gated 1 (.vdec d c z b m p k)) ∧
   (∀ c p k, gated 1 (.mdec c p k)) ∧ (∀ c p a, gated 1 (.mcut c p a)) ∧ (∀ c p, gated 6 (.pgmap c p) ∧ gated 6 (.pgdone c p)) ∧
   (∀ c p r s x, gated 7 (.cpyx c p r s x)) ∧
   (∀ d a n m t, fieldN n 0 4 ≤ 8 →
     let k := [8, 9, 9, 10, 10, 11, 11, 11, 11][fieldN n 0 4]?.getD 0
     gated k (.vpack d a n m t) ∧ gated k (.vunpk d a n m t))) ∧
  ((∀ f h i, ∀ c ∈ scalarSources i, 56 ≤ c.toNat → 2 ∈ issueCauses f h i) ∧
   (∀ f h i d, scalarTarget i = some d → 1 ≤ d.toNat ∧ d.toNat ≤ 15 ∨ 48 ≤ d.toNat → 2 ∈ issueCauses f h i) ∧
   (∀ f h i, ∀ c ∈ vectorFields i, 58 ≤ c.toNat → 2 ∈ issueCauses f h i) ∧
   (∀ f h d c z b m p k, 58 ≤ b.toNat → 2 ∈ issueCauses f h (.vdec d c z b m p k) ∧ 2 ∈ issueCauses f h (.vcut z b m))) ∧
  (∀ d, AnswersWhen (.srd d 10) (fun s _ => anyBit s.faccept 0 1 = false) (fun _ u => setScalar u d 2 { bits := 0 })) ∧
  (let specials : List (BitVec 6 → BitVec 6 → BitVec 3 → BitVec 3 → BitVec 4 → Instr) := [.vsqrt, .vrsq, .vrcp, .vexp2, .vlog2, .vtanh, .vsigm]
  (∀ (f : BitVec 128) (h : Bool),
   let bad (i : Instr) (c : Prop) : Prop := 1 ∈ issueCauses f h i ↔ c
   (∀ k o t, bad (.wait k o t) (2 ≤ o.toNat) ∧ bad (.waitc k o t) (2 ≤ o.toNat)) ∧
   (∀ k o c t, bad (.post k o c t) (o ≠ 0 ∧ o ≠ 2 ∨ 6 ≤ c.toNat)) ∧ (∀ c, bad (.drain c) (6 ≤ c.toNat)) ∧
   (∀ d a n, bad (.sext d a n) (n = 0) ∧ bad (.zext d a n) (n = 0)) ∧
   (∀ c a o, bad (.br c a o) (7 ≤ c.toNat ∨ c = 0 ∧ a ≠ 0)) ∧ (∀ a o, bad (.loop a o) (o.toInt < 1)) ∧
   (∀ d a b k o, bad (.amoI32 d a b k o) (9 ≤ k.toNat ∨ 4 ≤ o.toNat) ∧ bad (.amoI64 d a b k o) (9 ≤ k.toNat ∨ 4 ≤ o.toNat)) ∧
   (∀ v c l k, bad (.xtov v c l k) (k = 3 ∨ k = 2 ∧ l.toNat % 2 = 1 ∨ k = 0 ∧ l ≠ 0) ∧ bad (.xfromv v c l k) (k = 3 ∨ k = 2 ∧ l.toNat % 2 = 1)) ∧
   (∀ g p a, bad (.xag g p a) (10 ≤ p.toNat)) ∧ (∀ z e d, bad (.xsts z e d) (5 ≤ e.toNat)) ∧
   (∀ i ∈ ([.vadd, .vsub, .vmul, .vmin, .vmax, .vdiv, .vfma, .vfms, .vscale] : List VForm), ∀ d a b m t, bad (i d a b m t) (2 ≤ t.toNat)) ∧
   (∀ i ∈ ([.viadd, .visub, .vimul, .vimulh, .vimin, .vimax, .vshl, .vshr, .vsar] : List VForm), ∀ d a b m t, bad (i d a b m t) (t.toNat < 2 ∨ 9 ≤ t.toNat)) ∧
   (∀ i ∈ ([.vand, .vor, .vxor] : List VForm), ∀ d a b m t, bad (i d a b m t) (t.toNat < 2 ∨ 10 ≤ t.toNat)) ∧
   (∀ i ∈ ([.vwadd, .vwmul, .vnarw] : List VForm), ∀ d a b m t, bad (i d a b m t) (t.toNat < 2 ∨ 8 ≤ t.toNat)) ∧
   (∀ i ∈ ([.vperm, .vzip, .vuzp] : List VForm), ∀ d a b m t, bad (i d a b m t) (10 ≤ t.toNat)) ∧
   (∀ i ∈ specials, ∀ d a r m t, bad (i d a r m t) (2 ≤ t.toNat ∨ 6 ≤ r.toNat)) ∧
   (∀ d a m t, let c := t.toNat ∉ [0, 1, 2, 4, 6, 8]; bad (.vabs d a m t) c ∧ bad (.vneg d a m t) c) ∧
   (∀ c e a b m t, bad (.vcmp c e a b m t) (9 ≤ t.toNat ∨ c = 7)) ∧ (∀ d a b m t, bad (.vsel d a b m t) (10 ≤ t.toNat ∨ m = 0)) ∧
   (∀ d a x r m t, bad (.vcvt d a x r m t) (9 ≤ t.toNat ∨ 6 ≤ r.toNat)) ∧ (∀ d a m t, bad (.vmov d a m t) (10 ≤ t.toNat)) ∧
   (∀ d a n m t, let p := n.toNat % 16; let c := 9 ≤ p ∨ 32 ≤ n.toNat ∨ (p ≤ 4 ∧ 2 ≤ t.toNat) ∨ (5 ≤ p ∧ t ≠ 6)
     bad (.vpack d a n m t) c ∧ bad (.vunpk d a n m t) c) ∧
   (∀ d a n m t, let o := n.toNat % 8; let c := 10 ≤ t.toNat ∨ 6 ≤ o ∨ (if t = 8 then 128 else if t = 9 then 64 else 256) < 2 ^ (n.toNat / 8) ∨ (t.toNat ≤ 1 ∧ 3 ≤ o) ∨ (t = 9 ∧ o ≠ 0)
     bad (.vred d a n m t) c ∧ bad (.vscan d a n m t) c) ∧
   (∀ v g b m t, let c := 10 ≤ t.toNat; bad (.vld v g m t) c ∧ bad (.vst v g m t) c ∧ bad (.vldx v g b m t) c ∧ bad (.vstx v g b m t) c) ∧
   (∀ d a n k, bad (.vslide d a n k) False) ∧ (∀ d a b n, bad (.vmop d a b n) False) ∧
   (∀ d c z b m p k, bad (.vdec d c z b m p k) (c = 7 ∨ p = 0 ∧ k ≠ 0)) ∧
   (∀ c p i n, bad (.mstep c p i n) (p = 0 ∧ c ≠ 0 ∨ 255 < i.toNat + n.toNat)) ∧ (∀ c p k, bad (.mdec c p k) (p = 0 ∧ c ≠ 0 ∨ k = 7)) ∧
   (∀ i ∈ ([.medge, .mflush, .mstat, .lsched, .gdef, .pgmap, .pgdone] : List (BitVec 5 → BitVec 1 → Instr)), ∀ c p, bad (i c p) (p = 0 ∧ c ≠ 0)) ∧
   (∀ c p e k l t g a, let x := p = 0 ∧ c ≠ 0; bad (.mcall c p e l) x ∧ bad (.mlatch c p l t) x ∧ bad (.mrout c p e k) x ∧ bad (.mcut c p a) x ∧ bad (.gld c p g) x) ∧
   (∀ i ∈ ([.cpy, .cpys, .cpyg, .cpyt, .cpyx, .cpyf, .cpyw, .cpyq] : List (BitVec 5 → BitVec 1 → BitVec 3 → BitVec 3 → BitVec 1 → Instr)), ∀ c p r k x,
     bad (i c p r k x) (p = 0 ∧ c ≠ 0 ∨ (x = 1 ∧ (p = 0 ∨ c ≠ 0)) ∨ (p = 0 ∧ k ≠ 0) ∨ 6 ≤ k.toNat ∨ 6 ≤ r.toNat)) ∧
   (∀ c p o k, bad (.fpost c p o k) (p = 0 ∧ c ≠ 0 ∨ (o ≠ 0 ∧ o ≠ 2) ∨ 6 ≤ k.toNat)) ∧
   (∀ c p o k n w, bad (.namo c p o k n w) (p = 0 ∧ c ≠ 0 ∨ 5 ≤ o.toNat ∨ 6 ≤ k.toNat ∨ (o = 4 ∧ k ≠ 3 ∧ k ≠ 4) ∨ 9 ≤ n.toNat)) ∧
   (∀ c p o k e w, bad (.ncas c p o k e w) (p = 0 ∧ c ≠ 0 ∨ 5 ≤ o.toNat ∨ 6 ≤ k.toNat ∨ (o = 4 ∧ k ≠ 3 ∧ k ≠ 4) ∨ 2 ≤ e.toNat))) ∧
  (∀ f : BitVec 128,
   let res (i : Instr) (c : Prop) : Prop := 2 ∈ issueCauses f false i ↔ c
   (∀ i ∈ ([.vadd, .vsub, .vmul, .vmin, .vmax, .vdiv, .vfma, .vfms, .vscale, .viadd, .visub, .vimul, .vimulh, .vimin, .vimax, .vshl, .vshr, .vsar, .vand, .vor, .vxor, .vnarw] : List VForm),
     ∀ d a b m t, res (i d a b m t) (56 ≤ d.toNat ∨ (48 ≤ d.toNat ∧ 8 ≤ t.toNat) ∨ 58 ≤ a.toNat ∨ 58 ≤ b.toNat)) ∧
   (∀ i ∈ ([.vwadd, .vwmul] : List VForm), ∀ d a b m t, res (i d a b m t) (56 ≤ d.toNat ∨ (48 ≤ d.toNat ∧ 6 ≤ t.toNat) ∨ 58 ≤ a.toNat ∨ 58 ≤ b.toNat)) ∧
   (∀ d a m t, let c := 56 ≤ d.toNat ∨ (48 ≤ d.toNat ∧ 8 ≤ t.toNat) ∨ 58 ≤ a.toNat; res (.vabs d a m t) c ∧ res (.vneg d a m t) c) ∧
   (∀ i ∈ specials, ∀ d a r m t, res (i d a r m t) (56 ≤ d.toNat ∨ 58 ≤ a.toNat)) ∧
   (∀ d a n m t, let c := 56 ≤ d.toNat ∨ 58 ≤ a.toNat; res (.vpack d a n m t) c ∧ res (.vunpk d a n m t) c) ∧
   (∀ i ∈ ([.vsel, .vperm, .vzip, .vuzp] : List VForm), ∀ d a b m t, res (i d a b m t) (48 ≤ d.toNat ∨ 58 ≤ a.toNat ∨ 58 ≤ b.toNat)) ∧
   (∀ d a n m t r x k y, let c := 48 ≤ d.toNat ∨ 58 ≤ a.toNat
     res (.vcvt d a x r m t) c ∧ res (.vmov d a m t) c ∧ res (.vslide d a k y) c ∧ res (.vred d a n m t) c ∧ res (.vscan d a n m t) c) ∧
   (∀ c e a b m t, res (.vcmp c e a b m t) (58 ≤ a.toNat ∨ 58 ≤ b.toNat)) ∧
   (∀ v g b m t, res (.vld v g m t) (48 ≤ v.toNat) ∧ res (.vst v g m t) (58 ≤ v.toNat) ∧ res (.vldx v g b m t) (48 ≤ v.toNat ∨ 58 ≤ b.toNat) ∧
     res (.vstx v g b m t) (58 ≤ v.toNat ∨ 58 ≤ b.toNat)) ∧
   (∀ v c l k, res (.xtov v c l k) (48 ≤ v.toNat ∨ 56 ≤ c.toNat) ∧ res (.xfromv v c l k) (48 ≤ v.toNat ∨ (1 ≤ c.toNat ∧ c.toNat ≤ 15) ∨ 48 ≤ c.toNat)) ∧
   (∀ v t, res (.lsend v t) (48 ≤ v.toNat)) ∧ (∀ z b m, res (.vcut z b m) (48 ≤ b.toNat ∧ b ≠ 56)) ∧
   (∀ a k i n, res (.stg k a) (24 ≤ k.toNat ∨ 56 ≤ a.toNat) ∧ res (.stgi k i n) (24 ≤ k.toNat))))

/-! ## Scalar results -/

/-- The register forms of two operands with latency 1, and MOV (02 R46): each completes with the manual's result, poisoned where an operand
is (R43), in its destination. -/
def Obligations.ScalarRegisterForms : Prop := ∀ d a b : BitVec 6,
  Answers (.add d a b) (result2 (fun x y => BitVec.ofNat 64 (x.toNat + y.toNat)) 1 d a b) ∧
  Answers (.sub d a b) (result2 (fun x y => BitVec.ofInt 64 ((x.toNat : Int) - y.toNat)) 1 d a b) ∧
  Answers (.and d a b) (result2 (fun x y => x &&& y) 1 d a b) ∧
  Answers (.or d a b) (result2 (fun x y => x ||| y) 1 d a b) ∧
  Answers (.xor d a b) (result2 (fun x y => x ^^^ y) 1 d a b) ∧
  Answers (.andn d a b) (result2 (fun x y => x &&& ~~~y) 1 d a b) ∧
  Answers (.shl d a b) (result2 (fun x y => BitVec.ofNat 64 (x.toNat * 2 ^ (y.toNat % 64))) 1 d a b) ∧
  Answers (.shr d a b) (result2 (fun x y => BitVec.ofNat 64 (x.toNat / 2 ^ (y.toNat % 64))) 1 d a b) ∧
  Answers (.sar d a b) (result2 (fun x y => BitVec.ofInt 64 (x.toInt / 2 ^ (y.toNat % 64))) 1 d a b) ∧
  Answers (.rotl d a b) (result2 (fun x y => (x <<< (y.toNat % 64)) ||| (x >>> (64 - y.toNat % 64))) 1 d a b) ∧
  Answers (.min d a b) (result2 (fun x y => if x.toInt ≤ y.toInt then x else y) 1 d a b) ∧
  Answers (.max d a b) (result2 (fun x y => if x.toInt ≤ y.toInt then y else x) 1 d a b) ∧
  Answers (.minu d a b) (result2 (fun x y => if x.toNat ≤ y.toNat then x else y) 1 d a b) ∧
  Answers (.maxu d a b) (result2 (fun x y => if x.toNat ≤ y.toNat then y else x) 1 d a b) ∧
  Answers (.ceq d a b) (result2 (fun x y => truth (x = y)) 1 d a b) ∧
  Answers (.cne d a b) (result2 (fun x y => truth (x ≠ y)) 1 d a b) ∧
  Answers (.clt d a b) (result2 (fun x y => truth (x.toInt < y.toInt)) 1 d a b) ∧
  Answers (.cle d a b) (result2 (fun x y => truth (x.toInt ≤ y.toInt)) 1 d a b) ∧
  Answers (.cltu d a b) (result2 (fun x y => truth (x.toNat < y.toNat)) 1 d a b) ∧
  Answers (.cleu d a b) (result2 (fun x y => truth (x.toNat ≤ y.toNat)) 1 d a b) ∧
  Answers (.mov d a) (result1 (fun x => x) d a)

/-- The products (02 R46) with latency 3, and the quotients and remainders (02 R48) with latency 24, the two corner cases of R48
among them. -/
def Obligations.ScalarProductsAndQuotients : Prop := ∀ d a b : BitVec 6,
  (slotsOf (.div d a b) = [2] ∧ slotsOf (.divu d a b) = [2] ∧ slotsOf (.rem d a b) = [2] ∧ slotsOf (.remu d a b) = [2]) ∧
  Answers (.mul d a b) (result2 (fun x y => BitVec.ofNat 64 (x.toNat * y.toNat)) 3 d a b) ∧
  Answers (.mulh d a b) (result2 (fun x y => BitVec.ofInt 64 (x.toInt * y.toInt / 2 ^ 64)) 3 d a b) ∧
  Answers (.mulhu d a b) (result2 (fun x y => BitVec.ofNat 64 (x.toNat * y.toNat / 2 ^ 64)) 3 d a b) ∧
  Answers (.div d a b) (result2 (fun x y => if y = 0 then BitVec.allOnes 64
    else if x.toInt = -2 ^ 63 ∧ y.toInt = -1 then BitVec.ofInt 64 (-2 ^ 63) else BitVec.ofInt 64 (x.toInt.tdiv y.toInt)) 24 d a b) ∧
  Answers (.divu d a b) (result2 (fun x y => if y = 0 then BitVec.allOnes 64 else BitVec.ofNat 64 (x.toNat / y.toNat)) 24 d a b) ∧
  Answers (.rem d a b) (result2 (fun x y => if y = 0 then x
    else if x.toInt = -2 ^ 63 ∧ y.toInt = -1 then 0 else BitVec.ofInt 64 (x.toInt - x.toInt.tdiv y.toInt * y.toInt)) 24 d a b) ∧
  Answers (.remu d a b) (result2 (fun x y => if y = 0 then x else BitVec.ofNat 64 (x.toNat % y.toNat)) 24 d a b)

/-- SEL, BEXT, BINS and the bit counts (02 R46, R47). SEL reads c and the operand it selects only. BEXT and BINS take the position from bits
[5:0] of their field operand and the width less one from bits [11:6]. CLZ and CTZ of 0 are 64. -/
def Obligations.ScalarSelectAndFields : Prop := ∀ d a b c : BitVec 6,
  Answers (.sel d a b c) (fun s u =>
    let z := opd s u 2 c
    let r := if z.bits ≠ 0 then opd s u 0 a else opd s u 1 b
    setScalar u d 1 { bits := r.bits, poison := z.poison || r.poison }) ∧
  Answers (.bext d a b) (result2 (fun x y =>
    BitVec.ofNat 64 (x.toNat / 2 ^ (y.toNat % 64) % 2 ^ (y.toNat / 64 % 64 + 1))) 1 d a b) ∧
  Answers (.bins d a b c) (fun s u =>
    let x := opd s u 0 a
    let y := opd s u 1 b
    let z := opd s u 2 c
    let pos := z.bits.toNat % 64
    let m := BitVec.ofNat 64 ((2 ^ (z.bits.toNat / 64 % 64 + 1) - 1) * 2 ^ pos)
    setScalar u d 1 { bits := (x.bits &&& ~~~m) ||| (BitVec.ofNat 64 (y.bits.toNat * 2 ^ pos) &&& m),
                      poison := x.poison || y.poison || z.poison }) ∧
  (∃ f g h : Word → Word, Answers (.clz d a) (result1 f d a) ∧ Answers (.ctz d a) (result1 g d a) ∧ Answers (.popc d a) (result1 h d a) ∧
    (∀ x, (f x).toNat ≤ 64 ∧ x.toNat < 2 ^ (64 - (f x).toNat) ∧ (x ≠ 0 → 2 ^ (63 - (f x).toNat) ≤ x.toNat)) ∧
    (∀ x, (g x).toNat ≤ 64 ∧ x.toNat % 2 ^ (g x).toNat = 0 ∧ (x ≠ 0 → x.getLsbD (g x).toNat = true)) ∧
    (f 0).toNat = 64 ∧ (g 0).toNat = 64 ∧
    (∀ x, (h x).toNat = ((List.range 64).filter (fun i => x.getLsbD i)).length))

/-- The immediate forms and the constants (02 R49, R50). -/
def Obligations.ScalarImmediateForms : Prop := ∀ (d a n : BitVec 6) (k : BitVec 13) (c : BitVec 19),
  Answers (.addi d a k) (result1 (fun x => BitVec.ofInt 64 (x.toInt + k.toInt)) d a) ∧
  Answers (.andi d a k) (result1 (fun x => x &&& BitVec.ofNat 64 k.toNat) d a) ∧
  Answers (.ori d a k) (result1 (fun x => x ||| BitVec.ofNat 64 k.toNat) d a) ∧
  Answers (.xori d a k) (result1 (fun x => x ^^^ BitVec.ofNat 64 k.toNat) d a) ∧
  Answers (.shli d a n) (result1 (fun x => BitVec.ofNat 64 (x.toNat * 2 ^ n.toNat)) d a) ∧
  Answers (.shri d a n) (result1 (fun x => BitVec.ofNat 64 (x.toNat / 2 ^ n.toNat)) d a) ∧
  Answers (.sari d a n) (result1 (fun x => BitVec.ofInt 64 (x.toInt / 2 ^ n.toNat)) d a) ∧
  Answers (.ceqi d a k) (result1 (fun x => truth (x.toInt = k.toInt)) d a) ∧
  Answers (.clti d a k) (result1 (fun x => truth (x.toInt < k.toInt)) d a) ∧
  Answers (.cltui d a k) (result1 (fun x => truth ((x.toNat : Int) < k.toInt % 2 ^ 64)) d a) ∧
  Answers (.sext d a n) (result1 (fun x =>
    BitVec.ofInt 64 (if x.getLsbD (n.toNat - 1) then (x.toNat % 2 ^ n.toNat : Int) - 2 ^ n.toNat else x.toNat % 2 ^ n.toNat)) d a) ∧
  Answers (.zext d a n) (result1 (fun x => BitVec.ofNat 64 (x.toNat % 2 ^ n.toNat)) d a) ∧
  Answers (.movi d c) (fun _ u => setScalar u d 1 { bits := BitVec.ofInt 64 c.toInt }) ∧
  Answers (.lui d c) (fun _ u => setScalar u d 1 { bits := BitVec.ofInt 64 (c.toInt * 2 ^ 13) })

/-- Staging and state registers (02 R72, R73, R75; 11 R228): STG writes the value, STGI sixteen bits and no others, SRD reads with
latency 2 (sr.seg where the overlays' feature is accepted), SWR writes at the end of the bundle; of sr.fpstat SRD and
SWR are a flag retirement, and the bits of results that landed in this clock come in after the value that SWR writes (06 R135). A poisoned
source of STG or SWR is consumed (R44). Codes 0 to 7 are mp, 8 to 15 cp, 16 to 23 np (01 R23), each its own register. A state register reads what
was last written to its writable bits; a value of RM that is no mode leaves RM, PEND of sr.seg is read-only, and a write to one register
changes no other (05 R105). -/
def Obligations.StagingAndStateRegisters : Prop := ∀ (d a : BitVec 6) (r : BitVec 12) (k : BitVec 2) (i : BitVec 16),
  encodeSlot (.stgi 10 1 0x40) = 0x72520080#32 ∧
  (bits (encodeSlot (.stg d a)) 25 7 = 0x38#7 ∧ bits (encodeSlot (.stgi d k i)) 25 7 = 0x39#7 ∧
    (24 ≤ d.toNat → ∀ f h, 2 ∈ issueCauses f h (.stg d a) ∧ 2 ∈ issueCauses f h (.stgi d k i))) ∧
  Answers (.stg d a) (fun s u => if (opd s u 0 a).poison then addFatal u 0x03 0
    else { u with work := stageWrite u.work d.toNat (opd s u 0 a).bits }) ∧
  Answers (.stgi d k i) (fun _ u =>
    { u with work := stageWrite u.work d.toNat (putBits (stageRead u.work d.toNat) (16 * k.toNat) i) }) ∧
  (∀ x : Word, bits (putBits x (16 * k.toNat) i) (16 * k.toNat) 16 = i ∧
    ∀ n, n < 16 * k.toNat ∨ 16 * k.toNat + 16 ≤ n → (putBits x (16 * k.toNat) i).getLsbD n = x.getLsbD n) ∧
  (r ≠ 9 → r ≠ 10 → Answers (.srd d r) (fun _ u => setScalar u d 2 { bits := readSr u.start u.seq r.toNat })) ∧
  AnswersWhen (.srd d 10) (fun s _ => anyBit s.faccept 0 1 = true) (fun _ u => setScalar u d 2 { bits := readSr u.start u.seq 10 }) ∧
  Answers (.srd d 9) (fun _ u =>
    setScalar { u with work := retireAll u.work } d 2 { bits := (retireAll u.start).sr.fpstat.setWidth 64 }) ∧
  (r ≠ 9 → Answers (.swr a r) (fun s u => if (opd s u 0 a).poison then addFatal u 0x03 0
    else { u with work := { u.work with sr := writeSr u.work.sr r.toNat (opd s u 0 a).bits } })) ∧
  Answers (.swr a 9) (fun s u => if (opd s u 0 a).poison then addFatal u 0x03 0
    else { u with work := retireAll { u.work with sr := { u.work.sr with fpstat := bits (opd s u 0 a).bits 0 6 ||| u.work.fpNow } } }) ∧
  (∀ (q : Seq) (c e : Nat) (w : Word), c < 24 → e < 24 → q.mp.length = 8 → q.cp.length = 8 → q.np.length = 8 →
    stageRead (stageWrite q c w) c = w ∧ (e ≠ c → stageRead (stageWrite q c w) e = stageRead q e) ∧
    stageWrite q c w = { q with mp := (stageWrite q c w).mp, cp := (stageWrite q c w).cp, np := (stageWrite q c w).np } ∧
    (c < 8 → stageRead q c = at' q.mp c 0) ∧ (8 ≤ c → c < 16 → stageRead q c = at' q.cp (c - 8) 0) ∧
    (16 ≤ c → stageRead q c = at' q.np (c - 16) 0)) ∧
  (∀ (q : Seq) (n x : Nat) (w : Word),
    let y (j : Nat) : Word := readSr { q with sr := writeSr q.sr x w } n j
    (x = 0 → y 0 = w &&& 0x87FF) ∧ (x = 3 → y 3 = w &&& 0xFFF) ∧
    (x = 8 → y 8 = if 1 ≤ w.toNat % 8 ∧ w.toNat % 8 ≤ 5 then w &&& 7 else readSr q n 8) ∧ (x = 9 → y 9 = w &&& 0x3F) ∧
    (x = 10 → y 10 = (w &&& 0x1BF) ||| (readSr q n 10 &&& 0x40)) ∧ (x = 11 → y 11 = w &&& 0xFFFFFFFF) ∧
    (∀ j, j ≠ x → y j = readSr q n j) ∧ (x ∉ [0, 3, 8, 9, 10, 11] → writeSr q.sr x w = q.sr)) ∧
  (∀ (q : Seq) (n : Nat), readSr q n 0x001 = q.sr.trapcause ∧ readSr q n 0x002 = q.sr.faultmask ∧ readSr q n 0x00C = q.sr.cutnext ∧
    (readSr q n 0x00D).toNat = q.sr.cutlabel.toNat ∧ (readSr q n 0x00E).toNat = q.sr.cutmiss.toNat ∧ readSr q n 0x00F = q.sr.sched ∧
    (readSr q n 0x010).toNat = q.sr.tile.toNat ∧ (n < 512 → (readSr q n 0x011).toNat = n) ∧
    (readSr q n 0x012).toNat = q.sr.winBase.toNat + 2 ^ 20 * q.sr.winSize.toNat ∧ (readSr q n 0x013).toNat = q.sr.wdog.toNat ∧
    (readSr q n 0x007 = if q.sr.hstat then 1 else 0) ∧
    (let h := if q.sr.hstat then q.savedShadow else q.shadow
     (h = none → readSr q n 0x004 = 0) ∧
     ∀ t k, h = some ⟨t, k⟩ → k ≤ 3 → (readSr q n 0x004).toNat = t.toNat + 2 ^ 12 * k + 2 ^ 15) ∧
    (∀ i, i < 2 → let e := (if q.sr.hstat then q.savedLoops else q.loops)[i]?
      (e = none → readSr q n (5 + i) = 0) ∧
      ∀ a b k, e = some ⟨a, b, k⟩ → k < 2 ^ 32 → (readSr q n (5 + i)).toNat = a.toNat + 2 ^ 11 * b.toNat + 2 ^ 22 * k + 2 ^ 63))

/-- Where a scalar result goes (01 R21; 02 R41, R42; 05 R112): with latency 1 a push becomes q0 and every older entry ages by one, in the
shadow queue inside a handler; a named register takes the value; with a longer latency the push makes its place and the entry, or the
named register's, waits in the table, every register keeping its value until the bound, and landing gives the value to the place. A result
in flight ages with the entry it is for, and is gone past q15. -/
def Obligations.ScalarResultsLand : Prop :=
  (∀ (b : Bundle) (v : Scalar), b.start.sr.hstat = false →
    (setScalar b 0 1 v).work.q = v :: b.work.q.take 15 ∧ (setScalar b 0 1 v).work.sq = b.work.sq ∧
    (setScalar b 0 1 v).work.g = b.work.g) ∧
  (∀ (b : Bundle) (v : Scalar), b.start.sr.hstat = true →
    (setScalar b 0 1 v).work.sq = v :: b.work.sq.take 15 ∧ (setScalar b 0 1 v).work.q = b.work.q ∧
    (setScalar b 0 1 v).work.g = b.work.g) ∧
  (∀ (b : Bundle) (v : Scalar) (k : Nat), 1 < k →
    (setScalar b 0 k v).work.g = b.work.g ∧
    (b.start.sr.hstat = false → (setScalar b 0 k v).work.q.drop 1 = b.work.q.take 15 ∧ (setScalar b 0 k v).work.sq = b.work.sq ∧
      (setScalar b 0 k v).work.pending = agePending false b.work.pending ++
        [{ dest := .queue 0, value := v, left := k, transfer := b.slot == 3 }]) ∧
    (b.start.sr.hstat = true → (setScalar b 0 k v).work.sq.drop 1 = b.work.sq.take 15 ∧ (setScalar b 0 k v).work.q = b.work.q ∧
      (setScalar b 0 k v).work.pending = agePending true b.work.pending ++
        [{ dest := .shadow 0, value := v, left := k, transfer := b.slot == 3 }])) ∧
  (∀ (h : Bool) (p : List Pending) (e : Pending), e ∈ agePending h p ↔ ∃ x ∈ p, e = { x with dest := e.dest } ∧
    (match x.dest with
     | .queue a => if h = true then e.dest = .queue a else a < 15 ∧ e.dest = .queue (a + 1)
     | .shadow a => if h = true then a < 15 ∧ e.dest = .shadow (a + 1) else e.dest = .shadow a
     | d => e.dest = d)) ∧
  (∀ (q : Seq) (v : Scalar) (a : Nat), (a < q.q.length → at' (land q { dest := .queue a, value := v, left := 0 }).q a {} = v) ∧
    (a < q.sq.length → at' (land q { dest := .shadow a, value := v, left := 0 }).sq a {} = v)) ∧
  (∀ (b : Bundle) (v : Scalar) (r : Nat), r < 32 → b.work.g.length = 32 →
    at' (setScalar b (BitVec.ofNat 6 (16 + r)) 1 v).work.g r {} = v ∧
    (∀ j, j ≠ r → at' (setScalar b (BitVec.ofNat 6 (16 + r)) 1 v).work.g j {} = at' b.work.g j {}) ∧
    (setScalar b (BitVec.ofNat 6 (16 + r)) 1 v).work.q = b.work.q) ∧
  (∀ (b : Bundle) (v : Scalar) (r k : Nat), r < 32 → 1 < k → b.work.g.length = 32 →
    (setScalar b (BitVec.ofNat 6 (16 + r)) k v).work.g = b.work.g ∧
    (setScalar b (BitVec.ofNat 6 (16 + r)) k v).work.pending = b.work.pending ++
      [{ dest := .named r, value := v, left := k, transfer := b.slot == 3 }] ∧
    at' (land b.work { dest := .named r, value := v, left := k }).g r {} = v)

/-- What an operand code reads (01 R21, R22; 02 R40, R41; 03 R88; 05 R112; 07 R144; 11 R225, R226, R234; 13 R276), range by range.
Scalar codes 0 to 15 are entries of the queue, of the shadow queue inside a handler; 16 to 47 are g0 to g31; 48 to 55 are zero, the tile
coordinates, the sequencer's number, 256, the schedule counter's low half and all ones, never poisoned. Vector codes 0 to 47 are v0 to v47,
48 to 55 the streams, 56 zero and 57 the lane numbers; a predicate field is all lanes for 0 and m1 to m7 else, and m0 is read as data. What
a result in flight, a group load not yet acquired, an open stream or a decision not yet landed or acquired (11 R231) will write reads as free bits, which carry no
poison (01 R19, 02 R43, log entry 1); a transfer toward the vector side leaves the old value (03 R88). A vector operation reads its registers so. -/
def Obligations.OperandsRead : Prop :=
  (∀ (s : State) (u : Bundle) (pos : Nat) (c : BitVec 6),
    let q := u.start
    let inFlight (d : Dest) : Prop := ∃ e ∈ q.pending, e.dest = d ∧ e.exact = false ∧ e.lanes ≠ 0
    let reads (d : Dest) (x : Scalar) : Prop := (¬ inFlight d → opd s u pos c = x) ∧
      (inFlight d → (opd s u pos c).poison = false ∧ (opd s u pos c).bits = Config.freeBits 64 s.free pos)
    (c.toNat < 16 → q.sr.hstat = false → reads (.queue c.toNat) (at' q.q c.toNat {})) ∧
    (c.toNat < 16 → q.sr.hstat = true → reads (.shadow c.toNat) (at' q.sq c.toNat {})) ∧
    (16 ≤ c.toNat → c.toNat < 48 → reads (.named (c.toNat - 16)) (at' q.g (c.toNat - 16) {})) ∧
    (48 ≤ c.toNat → (opd s u pos c).poison = false) ∧
    (opd s u pos 48).bits = 0 ∧ (opd s u pos 49).bits = BitVec.ofNat 64 (q.sr.tile.toNat % 2 ^ 16) ∧
    (opd s u pos 50).bits = BitVec.ofNat 64 (q.sr.tile.toNat / 2 ^ 16 % 2 ^ 16) ∧
    (opd s u pos 51).bits = BitVec.ofNat 64 (q.sr.tile.toNat / 2 ^ 32) ∧ (opd s u pos 52).bits = BitVec.ofNat 64 u.seq ∧
    (opd s u pos 53).bits = 256 ∧ (opd s u pos 54).bits = BitVec.ofNat 64 (q.sr.sched.toNat % 2 ^ 32) ∧
    (opd s u pos 55).bits = BitVec.ofNat 64 (2 ^ 64 - 1)) ∧
  (∀ (fr : Nat) (q : Seq) (ch : Bool) (pos : Nat) (c : BitVec 6) (j : Nat), j < 256 →
    let lane : Lane := at' (vectorOperand fr q ch pos c) j 0
    let free : Lane := Config.freeBits 32 fr (256 * pos + j)
    let z := at' q.z (c.toNat - 48) {}
    let still : Prop := z.left ≠ 0 ∨ ∃ o ∈ z.olds, o.1.getLsbD j = true
    let ahead : Prop := ch = true ∧ z.chain = 0
    let loading : Prop := ∃ k ∈ q.net.queue ++ q.net.running.map (·.cmd), ∃ cf p x, k.op = .gld cf p x ∧ fieldN (at' k.stage 1 0) 0 6 = c.toNat
    let opened : Prop := (∃ e ∈ q.pending, e.dest = .vector c.toNat ∧ e.exact = false ∧ e.lanes.getLsbD j = true) ∨ loading ∨
      ∃ g ∈ q.gldOpen, g.vd = c.toNat ∧ g.lanes.getLsbD j = true
    (c.toNat < 48 → (¬ opened → lane = at' (at' q.v c.toNat []) j 0) ∧ (opened → lane = free)) ∧
    (48 ≤ c.toNat → c.toNat < 56 →
      (z.valid = false → z.cut = 0 → lane = 0) ∧
      (z.valid = true ∨ z.cut ≠ 0 →
        (z.cut.getLsbD j = true ∨ ahead ∨ ¬ still → lane = at' z.value j 0) ∧
        (z.cut.getLsbD j = false → ¬ ahead → still → lane = free))) ∧
    (c = 56 → lane = 0) ∧ (c = 57 → lane = BitVec.ofNat 32 j)) ∧
  (∀ (fr : Nat) (q : Seq) (pos r j : Nat), j < 256 →
    let landing : Prop := (∃ e ∈ q.pending, e.dest = .mask r ∧ e.exact = false ∧ e.lanes.getLsbD j = true) ∨
      (∃ z ∈ q.z, ∃ d, z.vdec = some d ∧ d.md.toNat = r ∧ d.scope.getLsbD j = true ∧ d.lost.getLsbD j = false) ∨
      ∃ g ∈ q.maskOpen, g.md = r ∧ g.lanes.getLsbD j = true
    (¬ landing → (maskRead fr q pos r).getLsbD j = (at' q.m r 0).getLsbD j) ∧
    (landing → (maskRead fr q pos r).getLsbD j = (Config.freeBits 256 fr (pos + 1000000)).getLsbD j)) ∧
  (∀ fr q j, j < 256 → (predicate fr q 0).getLsbD j = true) ∧ (∀ fr q k, k ≠ 0 → predicate fr q k = maskRead fr q 3 k.toNat) ∧
  (∀ s u delta d pos c, vread s u delta d pos c = vectorOperand s.free u.start (decide (delta ≠ 0 ∧ 48 ≤ d.toNat ∧ d.toNat ≤ 55)) pos c) ∧
  (∀ i f g h d a b m s u,
    let x (c : BitVec 6) (p : Nat) : List Nat := elems i.ty.toNat (vread s u i.delta d p c)
    let n := elemCount i.ty.toNat
    vec1 i f d a m s u = elementwise s u i i.ty.toNat n d [a] false [vread s u i.delta d 0 a] m ((x a 0).map f) ∧
    vec2 i g d a b m s u = elementwise s u i i.ty.toNat n d [a, b] false [vread s u i.delta d 0 a, vread s u i.delta d 1 b] m (zip2 g (x a 0) (x b 1)) ∧
    vec3 i h d a b m s u = elementwise s u i i.ty.toNat n d [a, b] (isStream d)
      [vread s u i.delta d 0 a, vread s u i.delta d 1 b, vread s u i.delta d 2 d] m (zip3 h (x a 0) (x b 1) (x d 2)))

/-! ## Scalar memory -/

/-- LD and LDA (02 R52, R53, R56) complete on a clean base, an aligned address and an access inside the window: the bytes as they
stand at issue, little-endian, extended by the type, with latency 4; undamaged bytes give no poison and no record, and damaged bytes give the same result poisoned and
one error record (for LDS the record is the model's choice, log entry 129).
What LD, LDA and LDS do instead (02 R53, R54): LD and LDA consume a poisoned base, fault on a misaligned address and stop outside
the window; LDS gives a poisoned zero in each of these cases, and does nothing else. -/
def Obligations.LoadsComplete : Prop :=
  (∀ (d a : BitVec 6) (o : BitVec 13),
  let ea (s : State) (u : Bundle) : Word := (opd s u 0 a).bits + o.signExtend 64
  let damaged (s : State) (u : Bundle) (w : Nat) : Bool := poisoned s (placeP u.seq (ea s u).toNat) w
  let value (signed : Bool) (w : Nat) (s : State) (u : Bundle) : Word :=
    let x := readNat s (placeP u.seq (ea s u).toNat) w
    if signed = true ∧ 2 ^ (8 * w - 1) ≤ x then BitVec.ofInt 64 ((x : Int) - 2 ^ (8 * w)) else BitVec.ofNat 64 x
  let ld (i : Instr) (signed : Bool) (w : Nat) : Prop :=
    AnswersWhen i (fun s u => (opd s u 0 a).poison = false ∧ Accessible u (ea s u) w ∧ damaged s u w = false)
      (fun s u => setScalar u d 4 { bits := value signed w s u, poison := false }) ∧
    AnswersWhen i (fun s u => (opd s u 0 a).poison = false ∧ Accessible u (ea s u) w ∧ damaged s u w = true)
      (fun s u => setScalar { u with errs := u.errs ++ [damage u.seq 2 1] } d 4 { bits := value signed w s u, poison := true })
  ld (.ldI8 d a o) true 1 ∧ ld (.ldN8 d a o) false 1 ∧ ld (.ldI16 d a o) true 2 ∧ ld (.ldN16 d a o) false 2 ∧
  ld (.ldI32 d a o) true 4 ∧ ld (.ldN32 d a o) false 4 ∧ ld (.ldI64 d a o) true 8 ∧
  ld (.ldaI32 d a o) true 4 ∧ ld (.ldaN32 d a o) false 4 ∧ ld (.ldaI64 d a o) true 8 ∧
  ld (.ldsI8 d a o) true 1 ∧ ld (.ldsN8 d a o) false 1 ∧ ld (.ldsI16 d a o) true 2 ∧ ld (.ldsN16 d a o) false 2 ∧
  ld (.ldsI32 d a o) true 4 ∧ ld (.ldsN32 d a o) false 4 ∧ ld (.ldsI64 d a o) true 8) ∧
  (∀ (d a : BitVec 6) (o : BitVec 13),
  let ea (s : State) (u : Bundle) : Word := (opd s u 0 a).bits + o.signExtend 64
  let ld (i : Instr) (w : Nat) : Prop :=
    AnswersWhen i (fun s u => (opd s u 0 a).poison = true) (fun _ u => addFatal u 0x03 0) ∧
    AnswersWhen i (fun s u => (opd s u 0 a).poison = false ∧ (ea s u).toNat % w ≠ 0) (fun _ u => addFault u 5 0) ∧
    AnswersWhen i (fun s u => (opd s u 0 a).poison = false ∧ (ea s u).toNat % w = 0 ∧ inWindow u.start (ea s u).toNat w = false)
      (fun s u => addFatal u 0x01 (ea s u))
  let lds (i : Instr) (w : Nat) : Prop :=
    AnswersWhen i (fun s u => (opd s u 0 a).poison = true ∨ (ea s u).toNat % w ≠ 0 ∨ inWindow u.start (ea s u).toNat w = false)
      (fun _ u => setScalar u d 4 { bits := 0, poison := true })
  ld (.ldI8 d a o) 1 ∧ ld (.ldN8 d a o) 1 ∧ ld (.ldI16 d a o) 2 ∧ ld (.ldN16 d a o) 2 ∧ ld (.ldI32 d a o) 4 ∧ ld (.ldN32 d a o) 4 ∧
  ld (.ldI64 d a o) 8 ∧ ld (.ldaI32 d a o) 4 ∧ ld (.ldaN32 d a o) 4 ∧ ld (.ldaI64 d a o) 8 ∧
  lds (.ldsI8 d a o) 1 ∧ lds (.ldsN8 d a o) 1 ∧ lds (.ldsI16 d a o) 2 ∧ lds (.ldsN16 d a o) 2 ∧ lds (.ldsI32 d a o) 4 ∧
  lds (.ldsN32 d a o) 4 ∧ lds (.ldsI64 d a o) 8)

/-- ST and STL (02 R55, R56): the checks in their order, and otherwise the low bytes of the data, little-endian, written at the end of the
bundle at base plus offset. A store alone in its bundle (02 R57): its bytes read back, and every byte of memory outside them reads as before. -/
def Obligations.StoresComplete : Prop :=
  (∀ (i : Instr) (w : Nat) (a : BitVec 6) (o : BitVec 13) (d : BitVec 6),
  storeForm i = some (w, a, o, d) →
    AnswersWhen i (fun s u => (opd s u 0 a).poison = false ∧ (opd s u 1 d).poison = false ∧ Accessible u ((opd s u 0 a).bits + o.signExtend 64) w)
      (fun s u => { u with stores := u.stores ++
        [⟨placeP u.seq ((opd s u 0 a).bits + o.signExtend 64).toNat, leBytes w (opd s u 1 d).bits.toNat⟩] }) ∧
    AnswersWhen i (fun s u => (opd s u 0 a).poison = true) (fun _ u => addFatal u 0x03 0) ∧
    AnswersWhen i (fun s u => (opd s u 0 a).poison = false ∧ ((opd s u 0 a).bits + o.signExtend 64).toNat % w ≠ 0) (fun _ u => addFault u 5 0) ∧
    AnswersWhen i (fun s u => (opd s u 0 a).poison = false ∧ ((opd s u 0 a).bits + o.signExtend 64).toNat % w = 0 ∧ (opd s u 1 d).poison = true)
      (fun _ u => addFatal u 0x03 0) ∧
    AnswersWhen i (fun s u => (opd s u 0 a).poison = false ∧ (opd s u 1 d).poison = false ∧
        ((opd s u 0 a).bits + o.signExtend 64).toNat % w = 0 ∧ inWindow u.start ((opd s u 0 a).bits + o.signExtend 64).toNat w = false)
      (fun s u => addFatal u 0x01 ((opd s u 0 a).bits + o.signExtend 64))) ∧
  ∀ (i : Instr) (w : Nat) (a : BitVec 6) (o : BitVec 13) (d : BitVec 6) (s : State),
    storeForm i = some (w, a, o, d) → s.bundle = none → Memory.wf s.mem = true →
    let q := getSeq s s.cur
    let x := scalarOperand s.free s.cur q 0 a
    let v := scalarOperand s.free s.cur q 1 d
    let ea := (x.bits + o.signExtend 64).toNat
    issueCauses s.faccept q.sr.hstat i = [] → x.poison = false → v.poison = false → ea % w = 0 → inWindow q ea w = true →
    backEdgeFault (openBundle s s.cur) = [] →
    ∃ t, exec i s = .next t ∧ readNat t (placeP s.cur ea) w = v.bits.toNat % 2 ^ (8 * w) ∧
      (∀ m, m < placeP s.cur ea ∨ placeP s.cur ea + w ≤ m → memGet t.mem m = memGet s.mem m) ∧
      (∀ n, n ≠ s.cur → getSeq t n = getSeq s n) ∧ (getSeq t s.cur).g = q.g ∧ (getSeq t s.cur).q = q.q ∧ (getSeq t s.cur).f = q.f ∧
      (getSeq t s.cur).sr = q.sr

/-- AMO and CAS (02 R58, R59) complete on clean operands, an aligned address inside the window and undamaged bytes: the old value
sign-extended with latency 6, and the new one stored at the same place at the end of the bundle: for AMO, f(kind, old, v) of R58; for a CAS
that finds its compare value, the swap value; a CAS that finds another stores nothing. On damaged bytes the result is poisoned, one error
record is made, and nothing is stored.
Elsewhere they do what a store does (R58, R59, R54): a poisoned address is consumed poison, a misaligned one the fault 0x05, poisoned data (for a
CAS, a poisoned compare or swap value) is consumed poison, and an address outside the window a fatal error. -/
def Obligations.AtomicsComplete : Prop := ∀ (d a b c : BitVec 6) (k : BitVec 4) (o : BitVec 3) (x : BitVec 1),
  let ok (w : Nat) (bad : Bool) (s : State) (u : Bundle) : Prop :=
    (opd s u 0 a).poison = false ∧ (opd s u 1 b).poison = false ∧ Accessible u (opd s u 0 a).bits w ∧
      poisoned s (placeP u.seq (opd s u 0 a).bits.toNat) w = bad
  let old (w : Nat) (s : State) (u : Bundle) : Nat := readNat s (placeP u.seq (opd s u 0 a).bits.toNat) w
  let out (w : Nat) (bad : Bool) (s : State) (u : Bundle) : Bundle :=
    setScalar (if bad then { u with errs := u.errs ++ [damage u.seq 2 1] } else u) d 6
      { bits := BitVec.ofInt 64 (if 2 ^ (8 * w - 1) ≤ old w s u then (old w s u : Int) - 2 ^ (8 * w) else old w s u), poison := bad }
  let signed (w y : Nat) : Int := if 2 ^ (8 * w - 1) ≤ y then (y : Int) - 2 ^ (8 * w) else y
  let f (w y v : Nat) : Nat :=
    match k.toNat with
    | 0 => (y + v) % 2 ^ (8 * w)
    | 1 => y &&& v
    | 2 => y ||| v
    | 3 => y ^^^ v
    | 4 => if signed w y ≤ signed w v then y else v
    | 5 => if signed w y ≤ signed w v then v else y
    | 6 => min y v
    | 7 => max y v
    | _ => v
  let amo (i : Instr) (w : Nat) : Prop :=
    AnswersWhen i (ok w false) (fun s u => addStore (out w false s u) (placeP u.seq (opd s u 0 a).bits.toNat)
      (leBytes w (f w (old w s u) ((opd s u 1 b).bits.toNat % 2 ^ (8 * w))))) ∧
    AnswersWhen i (ok w true) (out w true)
  let cas (i : Instr) (w : Nat) : Prop :=
    AnswersWhen i (fun s u => ok w false s u ∧ (opd s u 2 c).poison = false) (fun s u =>
      if old w s u = (opd s u 1 b).bits.toNat % 2 ^ (8 * w) then
        addStore (out w false s u) (placeP u.seq (opd s u 0 a).bits.toNat) (leBytes w ((opd s u 2 c).bits.toNat % 2 ^ (8 * w)))
      else out w false s u) ∧
    AnswersWhen i (fun s u => ok w true s u ∧ (opd s u 2 c).poison = false) (out w true)
  let checks (i : Instr) (w : Nat) (swap : Bool) : Prop :=
    let ea (s : State) (u : Bundle) : Word := (opd s u 0 a).bits
    let data (s : State) (u : Bundle) : Bool := (opd s u 1 b).poison || (swap && (opd s u 2 c).poison)
    AnswersWhen i (fun s u => (opd s u 0 a).poison = true) (fun _ u => addFatal u 0x03 0) ∧
    AnswersWhen i (fun s u => (opd s u 0 a).poison = false ∧ (ea s u).toNat % w ≠ 0) (fun _ u => addFault u 5 0) ∧
    AnswersWhen i (fun s u => (opd s u 0 a).poison = false ∧ (ea s u).toNat % w = 0 ∧ data s u = true) (fun _ u => addFatal u 0x03 0) ∧
    AnswersWhen i (fun s u => (opd s u 0 a).poison = false ∧ (ea s u).toNat % w = 0 ∧ data s u = false ∧ inWindow u.start (ea s u).toNat w = false)
      (fun s u => addFatal u 0x01 (ea s u))
  (amo (.amoI32 d a b k o) 4 ∧ amo (.amoI64 d a b k o) 8 ∧ cas (.casI32 d a b c x) 4 ∧ cas (.casI64 d a b c x) 8) ∧
  checks (.amoI32 d a b k o) 4 false ∧ checks (.amoI64 d a b k o) 8 false ∧ checks (.casI32 d a b c x) 4 true ∧ checks (.casI64 d a b c x) 8 true

/-- VEXP2, VLOG2, VTANH and VSIGM of a finite nonzero operand (06 R136): the result is the exact function's value rounded once, with its flags, in each of the
five modes, where that value is a code or a midpoint, or stands off each by 2^-600 of itself; far out, VTANH and VSIGM round as values just below 1 do. -/
def Obligations.SpecialFunctionsRoundOnce : Prop := ∀ (k x : Nat) (p : Mode), k ≤ 1 → x < 2 ^ codeWidth k → 0 < codeMag k x → codeMag k x < infMag k →
  1 ≤ p.toNat → p.toNat ≤ 5 →
  let y : ℝ := (codeVal k x : ℝ) / 2 ^ codeScale k
  let rounds (g : SpecialFn) (z : ℝ) : Prop := StandsOff k (z * 2 ^ codeScale k) → RoundedReal k p (z * 2 ^ codeScale k) (specialCode g k p x)
  let below (n : Bool) : Nat × BitVec 6 := (signed k n (if p = 2 ∨ (p = 3 ∧ n = false) ∨ (p = 4 ∧ n = true) then oneCode k - 1 else oneCode k), fInexact)
  rounds .exp2 ((2 : ℝ) ^ y) ∧ (codeNeg k x = false → codeMag k x ≠ oneCode k → rounds .log2 (Real.logb 2 y)) ∧
  rounds .tanh (Real.tanh y) ∧ rounds .sigm (1 / (1 + Real.exp (-y))) ∧
  (64 ≤ |y| → specialCode .tanh k p x = below (codeNeg k x)) ∧ (64 ≤ y → specialCode .sigm k p x = below false)

/-! ## Control transfer and sync -/

/-- BR, JMP, JMPI, CALL, RET and CHK outside a shadow (02 R62 to R65, R70): taken, each is a transfer to its target; a BR whose condition
fails and a CHK of a clean operand do nothing; CALL links the bundle after its delay slots in g31; the poisoned operand of a BR with a
condition (in a shadow too: log entry 90), a JMPI or a RET is consumed (R44). In a shadow a taken transfer is the fault 0x04 (R66).
LOOP and TRET outside a shadow (02 R66, R68, R71): a count of 0 skips the body, a count n enters it for n passes, a poisoned count is
consumed; TRET asks for the return at the commit. In a shadow both are the fault 0x04. -/
def Obligations.TransfersOfControl : Prop :=
  (∀ (c : BitVec 4) (a : BitVec 6) (o : BitVec 15),
  let clear (_ : State) (u : Bundle) : Prop := u.start.shadow = none
  let inside (_ : State) (u : Bundle) : Prop := u.start.shadow.isSome = true
  let x (s : State) (u : Bundle) : Int := (opd s u 0 a).bits.toInt
  let holds (s : State) (u : Bundle) : Prop :=
    c = 0 ∨ (opd s u 0 a).poison = false ∧ ((c = 1 ∧ x s u = 0) ∨ (c = 2 ∧ x s u ≠ 0) ∨ (c = 3 ∧ x s u < 0) ∨ (c = 4 ∧ 0 ≤ x s u) ∨
      (c = 5 ∧ 0 < x s u) ∨ (c = 6 ∧ x s u ≤ 0))
  let aim (u : Bundle) : BitVec 11 := BitVec.ofInt 11 (u.start.pc.toNat + o.toInt)
  let fault (u : Bundle) : Bundle := addFault u 4 0
  AnswersWhen (.br c a o) (fun s u => clear s u ∧ holds s u) (fun _ u => { u with ctl := .transfer (aim u) }) ∧
  AnswersWhen (.br c a o) (fun s u => c ≠ 0 ∧ (opd s u 0 a).poison = false ∧ ¬ holds s u) (fun _ u => u) ∧
  AnswersWhen (.br c a o) (fun s u => c ≠ 0 ∧ (opd s u 0 a).poison = true) (fun _ u => addFatal u 0x03 0) ∧
  AnswersWhen (.jmp o) clear (fun _ u => { u with ctl := .transfer (aim u) }) ∧
  AnswersWhen (.jmpi a) (fun s u => clear s u ∧ (opd s u 0 a).poison = false)
    (fun s u => { u with ctl := .transfer (BitVec.ofNat 11 (opd s u 0 a).bits.toNat) }) ∧
  (∀ s b, Enabled s b (.jmpi a) → clear s b → (opd s b 0 a).poison = true → ∃ w, exec (.jmpi a) s =
    .next { s with bundle := some w, free := s.free + 1 } ∧ w.fatals = b.fatals ++ [(b.slot, 0x03, 0)]) ∧
  AnswersWhen (.call o) clear (fun _ u =>
    setScalar { u with ctl := .transfer (aim u) } 47 1 { bits := BitVec.ofNat 64 ((u.start.pc.toNat + 4) % 2048) }) ∧
  AnswersWhen .ret (fun s u => clear s u ∧ (opd s u 0 47).poison = false)
    (fun s u => { u with ctl := .transfer (BitVec.ofNat 11 (opd s u 0 47).bits.toNat) }) ∧
  (∀ s b, Enabled s b .ret → clear s b → (opd s b 0 47).poison = true → ∃ w, exec .ret s =
    .next { s with bundle := some w, free := s.free + 1 } ∧ w.fatals = b.fatals ++ [(b.slot, 0x03, 0)]) ∧
  AnswersWhen (.chk a o) clear (fun s u => if (opd s u 0 a).poison then { u with ctl := .transfer (aim u) } else u) ∧
  (AnswersWhen (.br c a o) (fun s u => inside s u ∧ holds s u) (fun _ u => fault u) ∧
   AnswersWhen (.jmp o) inside (fun _ u => fault u) ∧
   AnswersWhen (.jmpi a) (fun s u => inside s u ∧ (opd s u 0 a).poison = false) (fun _ u => fault u) ∧
   (∀ s b, Enabled s b (.call o) → inside s b → ∃ w, exec (.call o) s = .next { s with bundle := some w, free := s.free + 1 } ∧
     w.faults = b.faults ++ [(b.slot, 4, 0)] ∧ w.ctl = b.ctl) ∧
   AnswersWhen .ret (fun s u => inside s u ∧ (opd s u 0 47).poison = false) (fun _ u => fault u) ∧
   AnswersWhen (.chk a o) (fun s u => inside s u ∧ (opd s u 0 a).poison = true) (fun _ u => fault u) ∧
   AnswersWhen (.chk a o) (fun s u => inside s u ∧ (opd s u 0 a).poison = false) (fun _ u => u))) ∧
  (∀ (a : BitVec 6) (o : BitVec 15),
  let last (u : Bundle) : BitVec 11 := BitVec.ofInt 11 (u.start.pc.toNat + o.toInt)
  AnswersWhen (.loop a o) (fun s u => u.start.shadow = none ∧ (opd s u 0 a).poison = false) (fun s u =>
    let n := (opd s u 0 a).bits.toNat % 2 ^ 32
    if n = 0 then { u with ctl := .skipLoop (last u + 1) } else { u with ctl := .enterLoop ⟨u.start.pc + 1, last u, n⟩ }) ∧
  AnswersWhen (.loop a o) (fun s u => u.start.shadow = none ∧ (opd s u 0 a).poison = true) (fun _ u => addFatal u 0x03 0) ∧
  AnswersWhen (.loop a o) (fun _ u => u.start.shadow.isSome = true) (fun _ u => addFault u 4 0) ∧
  AnswersWhen .tret (fun _ u => u.start.shadow = none) (fun _ u => { u with ctl := .tret }) ∧
  AnswersWhen .tret (fun _ u => u.start.shadow.isSome = true) (fun _ u => addFault u 4 0))

/-- The sync slot (03 R77 to R87): a wait whose flag has reached its threshold lets the bundle go on, and with the acquire order sees what
earlier posts on the flag released, the group loads of 13 R276 and the decisions of 11 R231 among it; any other wait stalls the bundle; WAITC then takes the threshold
off the flag, POST adds its increment, CLRF clears, QUIET, DRAIN and END ask for their effect at the commit, BRK and TRAPI raise
their faults with their codes. Which group loads an acquire lets be read, and that CLRF takes away those whose posts it removes
(a post of its own clock counts after the clear), is the model's reading (log entry 51).
A DRAIN (03 R83) is asked for with its scope. SEGB (03 R86, 05 R120): the segment is recorded; an invalid entry sets BAD, and LAST with it
(log entry 34), a segment resident or being fetched is left, any other is fetched. How long the fetch takes the manual leaves open (log entry 7). -/
def Obligations.SyncSlot : Prop :=
  (∀ (f : BitVec 5) (o c : BitVec 3) (t : BitVec 16),
  let met (u : Bundle) : Prop := t.toNat ≤ (at' u.start.f f.toNat 0).toNat
  let seen (s : State) (q : Seq) : Seq := { q with
    gldOpen := q.gldOpen.filter (fun g => !(g.flag == f.toNat && decide (g.clock < s.clock)))
    maskOpen := q.maskOpen.filter (fun g => !(g.flag == f.toNat && decide (g.clock < s.clock))) }
  let through (s : State) (u : Bundle) : Bundle := if o = 1 then { u with start := seen s u.start, work := seen s u.work } else u
  AnswersWhen (.wait f o t) (fun _ u => met u) through ∧
  AnswersWhen (.wait f o t) (fun _ u => ¬ met u) (fun _ u => addStall u (f.setWidth 64 ||| (t.setWidth 64 <<< 16))) ∧
  AnswersWhen (.waitc f o t) (fun _ u => met u)
    (fun s u => { through s u with work := { (through s u).work with fBase := some (f.toNat, some t) } }) ∧
  AnswersWhen (.waitc f o t) (fun _ u => ¬ met u) (fun _ u => addStall u (f.setWidth 64 ||| (t.setWidth 64 <<< 16))) ∧
  Answers (.post f o c t) (fun _ u =>
    { u with work := { u.work with fInc := u.work.fInc.set f.toNat (at' u.work.fInc f.toNat 0 + t.toNat) } }) ∧
  Answers (.clrf f) (fun s u => { u with work := { u.work with
    fBase := some (f.toNat, none)
    gldOpen := u.work.gldOpen.map (fun g => if g.flag = f.toNat ∧ g.clock < s.clock then { g with flag := 32 } else g)
    maskOpen := u.work.maskOpen.map (fun g => if g.flag = f.toNat ∧ g.clock < s.clock then { g with flag := 32 } else g) } }) ∧
  Answers (.quiet t) (fun _ u => { u with quiet := some t }) ∧
  Answers (.drain c) (fun _ u => { u with drains := some c }) ∧
  Answers .endOp (fun _ u => { u with ends := true }) ∧
  Answers (.brk t) (fun _ u => { u with faults := u.faults ++ [(u.slot, 0x07, t)] }) ∧
  Answers (.trapi t) (fun _ u => { u with faults := u.faults ++ [(u.slot, 0x06, t)] })) ∧
  (∀ (k : BitVec 6),
  AnswersWhen (.segb k) (fun s u => segmentEntry s u.work k.toNat = none)
    (fun _ u => { u with work := { u.work with sr := { u.work.sr with segLast := k, segBad := true } } }) ∧
  AnswersWhen (.segb k) (fun s u => segmentEntry s u.work k.toNat ≠ none ∧
      (u.work.segRes.getLsbD k.toNat = true ∨ ∃ f ∈ u.work.segFetch, f.seg = k.toNat))
    (fun _ u => { u with work := { u.work with sr := { u.work.sr with segLast := k } } }) ∧
  (∀ s b e, Enabled s b (.segb k) → segmentEntry s b.work k.toNat = some e → b.work.segRes.getLsbD k.toNat = false →
    (∀ f ∈ b.work.segFetch, f.seg ≠ k.toNat) →
    ∃ c w, exec (.segb k) s = .next { s with bundle := some c, free := s.free + 1 } ∧
      c = { b with work := { b.work with sr := { b.work.sr with segLast := k }, segFetch := b.work.segFetch ++ [⟨k.toNat, e.1, e.2.1, e.2.2, w, []⟩] } }))


/-! ## The transfer slot -/

/-- The transfer slot (03 R88 to R93): latency 4; toward the vector side the destination keeps its value until the transfer lands, and a
poisoned source of XTOV, XAG and XMASK direction 0 is consumed (R89); lanes, mask quarters and stream status are read at issue. XMASK direction 0
enters the table, and the decisions still to land in that mask are told of a later write of the quarter, which they do not undo (R88; log entry 13); nothing
else of the bundle changes. XAG's parameter, once landed, takes its bits of the word and resets the walk (R91). Of the status word (R93) VALID, DONE, FROZEN (an open stream in a handler, 11 R239), ANYCUT and OP are
stated, and the decided lanes; a register with VALID = 0 gives a zero status. -/
def Obligations.TransferSlot : Prop := ∀ (v d : BitVec 6) (l : BitVec 8) (g z e : BitVec 3) (p : BitVec 4) (q : BitVec 2),
  let word (s : State) (u : Bundle) (c : BitVec 6) : Word := (opd s u 0 c).bits
  let clean (s : State) (u : Bundle) : Prop := (opd s u 0 d).poison = false
  let enter (u : Bundle) (x : Pending) : Bundle := { u with work := { u.work with pending := u.work.pending ++ [x] } }
  AnswersWhen (.xtov v d l 0) clean (fun s u => enter u
    { dest := .vector v.toNat, vec := List.replicate 256 (BitVec.ofNat 32 (word s u d).toNat), left := 4, exact := true }) ∧
  AnswersWhen (.xtov v d l 1) clean (fun s u => enter u
    { dest := .vector v.toNat, lanes := 1#256 <<< l.toNat, vec := List.replicate 256 (BitVec.ofNat 32 (word s u d).toNat), left := 4, exact := true }) ∧
  (∀ s b, Enabled s b (.xtov v d l 2) → clean s b → ∃ x, exec (.xtov v d l 2) s = .next { s with bundle := some (enter b x), free := s.free + 1 } ∧
    x.dest = .vector v.toNat ∧ x.lanes = (1#256 <<< l.toNat) ||| (1#256 <<< (l.toNat + 1)) ∧ x.left = 4 ∧ x.exact = true ∧
    at' x.vec l.toNat 0 = BitVec.ofNat 32 (word s b d).toNat ∧
    (l.toNat < 255 → at' x.vec (l.toNat + 1) 0 = BitVec.ofNat 32 ((word s b d).toNat / 2 ^ 32))) ∧
  AnswersWhen (.xtov v d l q) (fun s u => (opd s u 0 d).poison = true) (fun _ u => addFatal u 0x03 0) ∧
  Answers (.xfromv v d l 0) (fun s u =>
    setScalar u d 4 { bits := BitVec.ofInt 64 (at' (vectorOperand s.free u.start false 0 v) l.toNat 0).toInt }) ∧
  Answers (.xfromv v d l 1) (fun s u =>
    setScalar u d 4 { bits := BitVec.ofNat 64 (at' (vectorOperand s.free u.start false 0 v) l.toNat 0).toNat }) ∧
  Answers (.xfromv v d l 2) (fun s u =>
    setScalar u d 4 { bits := BitVec.ofNat 64 ((at' (vectorOperand s.free u.start false 0 v) l.toNat 0).toNat +
      2 ^ 32 * (at' (vectorOperand s.free u.start false 0 v) (l.toNat + 1) 0).toNat) }) ∧
  AnswersWhen (.xag g p d) (fun s u => (opd s u 0 d).poison = true) (fun _ u => addFatal u 0x03 0) ∧
  AnswersWhen (.xag g p d) clean (fun s u => enter u { dest := .param g.toNat p.toNat, value := { bits := word s u d }, left := 4, exact := true }) ∧
  (∀ (x : Gen) (w : Word), let y := setParam x p.toNat w
    y.idx = [0, 0, 0, 0] ∧
    y.base = (if p = 0 then BitVec.ofNat 20 w.toNat else x.base) ∧
    y.count = (if 1 ≤ p.toNat ∧ p.toNat ≤ 4 then x.count.set (p.toNat - 1) (BitVec.ofNat 16 w.toNat) else x.count) ∧
    y.stride = (if 5 ≤ p.toNat ∧ p.toNat ≤ 8 then x.stride.set (p.toNat - 5) (BitVec.ofNat 32 w.toNat) else x.stride) ∧
    y.ctl = (if 9 ≤ p.toNat then BitVec.ofNat 3 w.toNat else x.ctl)) ∧
  AnswersWhen (.xmask g 0 q d) (fun s u => (opd s u 0 d).poison = true) (fun _ u => addFatal u 0x03 0) ∧
  AnswersWhen (.xmask g 0 q d) clean (fun s u => { u with work := { u.work with
    pending := u.work.pending ++ [{ dest := .mask g.toNat, lanes := quarterMask q, mvec := (word s u d).setWidth 256 <<< (64 * q.toNat), left := 4, exact := true }]
    z := u.work.z.map (fun y => { y with vdec := y.vdec.map (fun v =>
      if v.md.toNat = g.toNat then { v with later := v.later ++ [(4, quarterMask q)] } else v) }) } }) ∧
  (∀ j, j < 256 → ((quarterMask q).getLsbD j = true ↔ j / 64 = q.toNat)) ∧
  Answers (.xmask g 1 q d) (fun s u => setScalar u d 4 { bits := bits (maskRead s.free u.start 0 g.toNat) (64 * q.toNat) 64 }) ∧
  (∀ s b, Enabled s b (.xsts z e d) → ∃ w, exec (.xsts z e d) s = .next { s with bundle := some (setScalar b d 4 { bits := w }), free := s.free + 1 } ∧
    (1 ≤ e.toNat → w = bits (at' b.start.z z.toNat {}).decided (64 * (e.toNat - 1)) 64) ∧
    (e = 0 → (at' b.start.z z.toNat {}).valid = false → w = 0) ∧
    (e = 0 → (at' b.start.z z.toNat {}).valid = true → w.getLsbD 0 = true ∧
      (w.getLsbD 1 = true ↔ openLanes (at' b.start.z z.toNat {}) &&& ~~~(at' b.start.z z.toNat {}).cut = 0) ∧
      (w.getLsbD 2 = true ↔ b.start.sr.hstat = true ∧ ((at' b.start.z z.toNat {}).left ≠ 0 ∨ (at' b.start.z z.toNat {}).olds ≠ [])) ∧
      (w.getLsbD 3 = true ↔ (at' b.start.z z.toNat {}).cut ≠ 0) ∧ bits w 16 7 = (at' b.start.z z.toNat {}).op))

/-! ## The vector slot -/

/-- The elementwise forms of two and three operands (07 R150, R151, R153, R154): each completes; its result in the enabled lanes comes
from the elements of the operands read at issue, with the bound of its class. The float elements (06 R131 to R133, R136): NaN operands give
nan_result; zero times infinity the NaN of cause 4, infinities of opposite sign cause 3, 0/0 and ∞/∞ cause 8; an exact zero sum is +0, under RDN
−0, two zeros of one sign keep it, and a zero product has the sign of its factors' exclusive or, which the fused forms then add (the sign of an exact zero product
is deduced, log entry 29); a finite value divided by zero is an infinity with no flag; every other finite result is the exact sum,
difference, product, quotient or fused value rounded once, with its flags. The smaller and the larger are an operand's own code, −0 below +0. -/
def Obligations.VectorTwoOperandForms : Prop :=
  (∀ (d a b : BitVec 6) (m : BitVec 3) (t : BitVec 4),
  let form (i : Instr) (op : BitVec 7) (f : BitVec 3 → Nat → Nat → Nat × BitVec 6) : Prop :=
    Answers i (fun s u => vec2 { op := op, ty := t, st := t, rm := u.start.sr.vmode, bound := 6, delta := 2 } (f u.start.sr.vmode) d a b m s u)
  form (.vadd d a b m t) 0x01 (addCode t.toNat) ∧ form (.vsub d a b m t) 0x02 (subCode t.toNat) ∧
  form (.vmul d a b m t) 0x03 (mulCode t.toNat) ∧ form (.vmin d a b m t) 0x06 (fun _ => minmaxCode t.toNat false) ∧
  form (.vmax d a b m t) 0x07 (fun _ => minmaxCode t.toNat true) ∧
  form (.viadd d a b m t) 0x18 (fun _ x y => ((x + y) % 2 ^ elemWidth t.toNat, 0)) ∧
  form (.visub d a b m t) 0x19 (fun _ x y => ((((x : Int) - y) % 2 ^ elemWidth t.toNat).toNat, 0)) ∧
  form (.vimul d a b m t) 0x1A (fun _ x y => (x * y % 2 ^ elemWidth t.toNat, 0)) ∧
  form (.vimulh d a b m t) 0x1B (fun _ x y =>
    ((readBy t.toNat x * readBy t.toNat y / 2 ^ elemWidth t.toNat % 2 ^ elemWidth t.toNat).toNat, 0)) ∧
  form (.vimin d a b m t) 0x1C (fun _ x y => (if readBy t.toNat x ≤ readBy t.toNat y then x else y, 0)) ∧
  form (.vimax d a b m t) 0x1D (fun _ x y => (if readBy t.toNat x ≤ readBy t.toNat y then y else x, 0)) ∧
  form (.vand d a b m t) 0x1E (fun _ x y => (x &&& y, 0)) ∧ form (.vor d a b m t) 0x1F (fun _ x y => (x ||| y, 0)) ∧
  form (.vxor d a b m t) 0x20 (fun _ x y => (x ^^^ y, 0)) ∧
  form (.vshl d a b m t) 0x21 (fun _ x y => (x * 2 ^ (y % elemWidth t.toNat) % 2 ^ elemWidth t.toNat, 0)) ∧
  form (.vshr d a b m t) 0x22 (fun _ x y => (x / 2 ^ (y % elemWidth t.toNat), 0)) ∧
  form (.vsar d a b m t) 0x23 (fun _ x y =>
    ((sRead (elemWidth t.toNat) x / 2 ^ (y % elemWidth t.toNat) % 2 ^ elemWidth t.toNat).toNat, 0)) ∧
  Answers (.vdiv d a b m t) (fun s u =>
    vec2 { op := 0x0A, ty := t, st := t, rm := u.start.sr.vmode, bound := 20, delta := 4 } (divCode t.toNat u.start.sr.vmode) d a b m s u) ∧
  Answers (.vwadd d a b m t) (widenOp 0x24 false d a b m t) ∧ Answers (.vwmul d a b m t) (widenOp 0x25 true d a b m t) ∧
  Answers (.vfma d a b m t) (fun s u =>
    vec3 { op := 0x04, ty := t, st := t, rm := u.start.sr.vmode, bound := 8, delta := 2 } (fmaCode t.toNat u.start.sr.vmode false) d a b m s u) ∧
  Answers (.vfms d a b m t) (fun s u =>
    vec3 { op := 0x05, ty := t, st := t, rm := u.start.sr.vmode, bound := 8, delta := 2 } (fmaCode t.toNat u.start.sr.vmode true) d a b m s u)) ∧
  (∀ (k x y z : Nat) (p : Mode), k ≤ 1 → x < 2 ^ codeWidth k → y < 2 ^ codeWidth k → z < 2 ^ codeWidth k →
   let isNan (c : Nat) : Prop := infMag k < codeMag k c
   let isInf (c : Nat) : Prop := codeMag k c = infMag k
   let fin (c : Nat) : Prop := codeMag k c < infMag k
   let zero (c : Nat) : Prop := codeMag k c = 0
   let gen (c : Nat) : Nat × BitVec 6 := (nanOfCause k c, fInvalid)
   let sx := codeNeg k x
   let sy := codeNeg k y
   let sz := codeNeg k z
   let exactZero (one : Bool) (keeps : Bool) : Nat × BitVec 6 := (signed k (if keeps then one else p == 3) 0, 0)
   (∀ r ∈ [addCode k p x y, subCode k p x y, mulCode k p x y, divCode k p x y, minmaxCode k false x y, minmaxCode k true x y],
     isNan x ∨ isNan y → r = nanAmong k [x, y]) ∧
   (∀ g, isNan x ∨ isNan y ∨ isNan z → fmaCode k p g x y z = nanAmong k [x, y, z]) ∧
   (¬ isNan x → ¬ isNan y → subCode k p x y = addCode k p x (signed k (!sy) (codeMag k y))) ∧
   (isInf x → isInf y → addCode k p x y = if sx = sy then (x, 0) else gen 3) ∧
   (isInf x → fin y → addCode k p x y = (x, 0) ∧ addCode k p y x = (x, 0)) ∧
   (fin x → fin y → codeVal k x + codeVal k y = 0 → addCode k p x y = exactZero sx (decide (codeMag k x = 0) && sx == sy)) ∧
   (fin x → fin y → codeVal k x + codeVal k y ≠ 0 → RoundedTo k p (codeVal k x + codeVal k y) 1 (addCode k p x y)) ∧
   (zero x → isInf y → mulCode k p x y = gen 4 ∧ mulCode k p y x = gen 4) ∧
   (isInf x → ¬ zero y → ¬ isNan y → mulCode k p x y = (signed k (sx != sy) (infMag k), 0) ∧ mulCode k p y x = (signed k (sx != sy) (infMag k), 0)) ∧
   (fin x → fin y → zero x ∨ zero y → mulCode k p x y = (signed k (sx != sy) 0, 0)) ∧
   (fin x → fin y → ¬ zero x → ¬ zero y → RoundedTo k p (codeVal k x * codeVal k y) (2 ^ codeScale k) (mulCode k p x y)) ∧
   (∀ g : Bool,
     let sp := (sx != sy) != g
     let w := (if g then -(codeVal k x * codeVal k y) else codeVal k x * codeVal k y) + codeVal k z * 2 ^ codeScale k
     (¬ isNan z → zero x ∧ isInf y ∨ isInf x ∧ zero y → fmaCode k p g x y z = gen 4) ∧
     (¬ isNan z → isInf x ∧ ¬ zero y ∧ ¬ isNan y ∨ ¬ zero x ∧ ¬ isNan x ∧ isInf y →
       fmaCode k p g x y z = if codeMag k z = infMag k ∧ sz ≠ sp then gen 3 else (signed k sp (infMag k), 0)) ∧
     (fin x → fin y → isInf z → fmaCode k p g x y z = (z, 0)) ∧
     (fin x → fin y → fin z → (w = 0 → fmaCode k p g x y z = exactZero sz (decide (codeMag k z = 0) && sz == sp)) ∧
       (w ≠ 0 → RoundedTo k p w (2 ^ codeScale k) (fmaCode k p g x y z)))) ∧
   (zero x ∧ zero y ∨ isInf x ∧ isInf y → divCode k p x y = gen 8) ∧
   (fin x ∧ ¬ zero x ∧ zero y ∨ isInf x ∧ fin y → divCode k p x y = (signed k (sx != sy) (infMag k), 0)) ∧
   (fin x ∧ isInf y ∨ zero x ∧ fin y ∧ ¬ zero y → divCode k p x y = (signed k (sx != sy) 0, 0)) ∧
   (fin x → fin y → ¬ zero x → ¬ zero y →
     RoundedTo k p (codeVal k x * 2 ^ codeScale k * (if sy then -1 else 1)) (codeVal k y).natAbs (divCode k p x y)) ∧
   (¬ isNan x → ¬ isNan y →
     let less := decide (codeVal k x < codeVal k y) || (decide (codeVal k x = codeVal k y) && sx)
     minmaxCode k false x y = (if less then x else y, 0) ∧ minmaxCode k true x y = (if less then y else x, 0)))

/-- The elementwise forms of one operand (07 R152, 06 R136), with the rounding mode of the word or of sr.vmode (01 R23): each completes. Of
the functions' values the table of special inputs of R136 is stated whole, NaN operands, the exact powers of two of VEXP2 and VLOG2, the
reciprocal rounded, and the square root and its reciprocal, by their squares; the other values of VEXP2, VLOG2, VTANH and VSIGM are O30. -/
def Obligations.VectorOneOperandForms : Prop :=
  (∀ (d a : BitVec 6) (r m : BitVec 3) (t : BitVec 4),
  let mode (u : Bundle) : BitVec 3 := if r = 0 then u.start.sr.vmode else r
  let fn (i : Instr) (op : BitVec 7) (f : SpecialFn) : Prop :=
    Answers i (fun s u => vec1 { op := op, ty := t, st := t, rm := mode u, bound := 20, delta := 4 } (specialCode f t.toNat (mode u)) d a m s u)
  fn (.vsqrt d a r m t) 0x0B .sqrt ∧ fn (.vrsq d a r m t) 0x0C .rsq ∧ fn (.vrcp d a r m t) 0x0D .rcp ∧ fn (.vexp2 d a r m t) 0x0E .exp2 ∧
  fn (.vlog2 d a r m t) 0x0F .log2 ∧ fn (.vtanh d a r m t) 0x10 .tanh ∧ fn (.vsigm d a r m t) 0x11 .sigm ∧
  Answers (.vabs d a m t) (fun s u => vec1 { op := 0x08, ty := t, st := t, rm := u.start.sr.vmode, bound := 6, delta := 2 }
    (fun x => if t.toNat ≤ 1 then (x % 2 ^ (elemWidth t.toNat - 1), 0)
      else ((((sRead (elemWidth t.toNat) x).natAbs : Int) % 2 ^ elemWidth t.toNat).toNat, 0)) d a m s u) ∧
  Answers (.vneg d a m t) (fun s u => vec1 { op := 0x09, ty := t, st := t, rm := u.start.sr.vmode, bound := 6, delta := 2 }
    (fun x => if t.toNat ≤ 1 then ((x + 2 ^ (elemWidth t.toNat - 1)) % 2 ^ elemWidth t.toNat, 0)
      else (((-(sRead (elemWidth t.toNat) x)) % 2 ^ elemWidth t.toNat).toNat, 0)) d a m s u)) ∧
  (∀ (k x : Nat) (p : Mode), k ≤ 1 → x < 2 ^ codeWidth k →
   let f (g : SpecialFn) : Nat × BitVec 6 := specialCode g k p x
   let n := codeNeg k x
   let inf (b : Bool) : Nat × BitVec 6 := (signed k b (infMag k), 0)
   let nil (b : Bool) : Nat × BitVec 6 := (signed k b 0, 0)
   let one : Nat × BitVec 6 := (oneCode k, 0)
   let refused : Nat × BitVec 6 := (nanOfCause k 8, fInvalid)
   (infMag k < codeMag k x → ∀ g, f g = nanAmong k [x]) ∧
   (codeMag k x = 0 → f .exp2 = one ∧ f .log2 = inf true ∧ f .tanh = nil n ∧ f .sigm = (126 * 2 ^ codeFrac k, 0) ∧ f .sqrt = nil n ∧
     f .rsq = inf n ∧ f .rcp = inf n) ∧
   (codeMag k x = infMag k → f .exp2 = (if n then nil false else inf false) ∧ f .log2 = (if n then refused else inf false) ∧
     f .tanh = (signed k n (oneCode k), 0) ∧ f .sigm = (if n then nil false else one) ∧ f .sqrt = (if n then refused else inf false) ∧
     f .rsq = (if n then refused else nil false) ∧ f .rcp = nil n) ∧
   (0 < codeMag k x → codeMag k x < infMag k → n = true → f .log2 = refused ∧ f .sqrt = refused ∧ f .rsq = refused) ∧
   (∀ i : Int, -126 ≤ i → i ≤ 127 → (codeMag k x < infMag k → codeVal k x = i * 2 ^ codeScale k → f .exp2 = ((127 + i).toNat * 2 ^ codeFrac k, 0)) ∧
     (x = (127 + i).toNat * 2 ^ codeFrac k → codeVal k (f .log2).1 = i * 2 ^ codeScale k ∧ (f .log2).2 = 0 ∧ (i = 0 → (f .log2).1 = 0))) ∧
   (0 < codeMag k x → codeMag k x < infMag k →
     RoundedTo k p (if n then -(2 ^ (2 * codeScale k)) else 2 ^ (2 * codeScale k)) (codeVal k x).natAbs (f .rcp)) ∧
   (0 < codeMag k x → codeMag k x < infMag k → n = false →
     let v (c : Nat) : Int := codeVal k c
     let r := (f .sqrt).1
     let w := v x * 2 ^ codeScale k
     0 < r ∧ r < infMag k ∧ (f .sqrt).2 = (if v r * v r = w then 0 else fInexact) ∧
     (p = 2 ∨ p = 3 → v r * v r ≤ w ∧ w < v (r + 1) * v (r + 1)) ∧ (p = 4 → v (r - 1) * v (r - 1) < w ∧ w ≤ v r * v r) ∧
     (p = 1 ∨ p = 5 → (v (r - 1) + v r) * (v (r - 1) + v r) ≤ 4 * w ∧ 4 * w ≤ (v r + v (r + 1)) * (v r + v (r + 1)))) ∧
   (0 < codeMag k x → codeMag k x < infMag k → n = false →
     let v (c : Nat) : Int := codeVal k c
     let r := (f .rsq).1
     let w : Int := 2 ^ (3 * codeScale k)
     0 < r ∧ r < infMag k ∧ (f .rsq).2 = (if v r * v r * v x = w then 0 else fInexact) ∧
     (p = 2 ∨ p = 3 → v r * v r * v x ≤ w ∧ w < v (r + 1) * v (r + 1) * v x) ∧ (p = 4 → v (r - 1) * v (r - 1) * v x < w ∧ w ≤ v r * v r * v x) ∧
     (p = 1 ∨ p = 5 → (v (r - 1) + v r) * (v (r - 1) + v r) * v x ≤ 4 * w ∧ 4 * w ≤ (v r + v (r + 1)) * (v r + v (r + 1)) * v x)))

/-- Where a vector result goes (01 R19; 05 R109; 07 R144 to R146, R148): into a v register it waits in the table with its lanes and its bound, the
register keeping its value until then, and landing writes exactly those lanes; into a z register it is an open stream, its values standing where no open stream
of another register reads the one it replaces (11 R227). The result of an elementwise form: element k stands in lanes g·k on as its type's table says, written where bit g·k
of the predicate is set; disabled elements and those past the n that it acts on are not written. -/
def Obligations.VectorResultsLand : Prop :=
  (∀ t, t < 10 → lanesPer t = (if t = 8 then 2 else if t = 9 then 4 else 1) ∧ elemCount t = 256 / lanesPer t ∧
    elemWidth t = at' [32, 16, 8, 8, 16, 16, 32, 32, 64, 128] t 0 ∧
    ∀ (v : VReg) (k : Nat), k < elemCount t → let lane (i : Nat) : Nat := (at' v (lanesPer t * k + i) 0).toNat
      at' (elems t v) k 0 = (if t = 8 then lane 0 + 2 ^ 32 * lane 1 else if t = 9 then lane 0 + 2 ^ 32 * lane 1 + 2 ^ 64 * lane 2 + 2 ^ 96 * lane 3
        else lane 0 % 2 ^ elemWidth t)) ∧
  (∀ (t n j : Nat) (p : Mask), t < 10 → j < 256 →
    ((enabledLanes (lanesPer t) n p).getLsbD j = true ↔ j / lanesPer t < n ∧ p.getLsbD (j / lanesPer t * lanesPer t) = true)) ∧
  (∀ (fr : Nat) (q : Seq), predicate fr q 0 = allLanes ∧ ∀ k, k ≠ 0 → predicate fr q k = maskRead fr q 3 k.toNat) ∧
  (∀ (s : State) (u : Bundle) (i : VInfo) (t n : Nat) (d : BitVec 6) (l : List (BitVec 6)) (w : Bool) (c : List VReg) (m : BitVec 3) (r : List (Nat × BitVec 6)),
    t < 10 → n ≤ elemCount t → ∃ v f, elementwise s u i t n d l w c m r =
      vectorResult s u i d l w c (enabledLanes (lanesPer t) n (predicate s.free u.start m)) v f ∧
    ∀ k j, k < n → k < r.length → j < lanesPer t → let x := (at' r k (0, 0)).1
      at' f (lanesPer t * k + j) 0 = (at' r k (0, 0)).2 ∧ at' v (lanesPer t * k + j) 0 =
        (if t = 2 ∨ t = 4 then BitVec.ofInt 32 (sRead (elemWidth t) x) else if t = 8 ∨ t = 9 then BitVec.ofNat 32 (x / 2 ^ (32 * j))
         else BitVec.ofNat 32 (x % 2 ^ elemWidth t))) ∧
  (∀ (s : State) (u : Bundle) (i : VInfo) (d : BitVec 6) (l : List (BitVec 6)) (w : Bool) (k : List VReg) (m : Mask) (v : VReg)
      (f : List (BitVec 6)), d.toNat < 48 →
    let c := vectorResult s u i d l w k m v f
    c.work.v = u.work.v ∧ c.work.m = u.work.m ∧ c.work.g = u.work.g ∧ c.stores = u.stores ∧
    ∃ x, c.work.pending = u.work.pending ++ [x] ∧ x.dest = .vector d.toNat ∧ x.lanes = m ∧ x.vec = v ∧ x.left = i.bound ∧ x.exact = false) ∧
  (∀ (q : Seq) (e : Pending) (r j : Nat), e.dest = .vector r → r < 48 → q.v.length = 48 → j < 256 →
    at' (at' (land q e).v r []) j 0 = (if e.lanes.getLsbD j then at' e.vec j 0 else at' (at' q.v r []) j 0)) ∧
  (∀ (s : State) (u : Bundle) (i : VInfo) (d : BitVec 6) (l : List (BitVec 6)) (w : Bool) (k : List VReg) (m : Mask) (v : VReg)
      (f : List (BitVec 6)), 48 ≤ d.toNat → d.toNat ≤ 55 → u.work.z.length = 8 →
    (∀ x ∈ streamsOf u.work, d.toNat ≠ 48 + x.1 → x.2.left = 0 ∨ d ∉ x.2.srcs ∨ x.2.cut = allLanes) →
    let z := at' (vectorResult s u i d l w k m v f).work.z (d.toNat - 48) {}
    z.valid = true ∧ z.op = i.op ∧ z.pred = m ∧ z.cut = 0 ∧ z.chain = i.delta ∧ i.bound ≤ z.left ∧ z.done = false ∧
    ∀ j, j < 256 → m.getLsbD j = true → at' z.value j 0 = at' v j 0)

/-- Conversions, comparisons, selections and packing (07 R155 to R161): each completes; a comparison decides every lane bit of its enabled
elements, a selection takes each element by its mask bit, a mask operation each bit by its table, and VPACK in bit mode forms the string
of its codes, a disabled one keeping the old bits: that its entry covers lanes 0 to 31, its enabled codes standing as PRED and the disabled ones read
at issue, is the model's reading (log entry 78). The values (06 R127, R130, R133, R134): a conversion to an integer picks, saturates with invalid and
marks dropped bits inexact, a NaN giving 0; one to a float rounds; .bf16 to .f32 is exact; a narrow code of E2M1 reads as its table says, and
decoding a code of a preset and encoding it again gives it back; infinities and NaNs enter a preset as R134 says; VSCALE rounds the element times its scale once. -/
def Obligations.VectorConversions : Prop :=
  (∀ (d a b f : BitVec 6) (c e k r m : BitVec 3) (t tt : BitVec 4),
  Answers (.vnarw d a b m t) (fun s u =>
    let x := vread s u 2 d 0 a
    let y := vread s u 2 d 1 b
    elementwise s u { op := 0x26, ty := t, st := t, rm := u.start.sr.vmode, bound := 6, delta := 2 } t.toNat (elemCount (narrowSrc t.toNat)) d [a, b] false
      [x, y] m (zip2 (narrowCode t.toNat u.start.sr.vmode) (elems (narrowSrc t.toNat) x) (elems (narrowSrc t.toNat) y))) ∧
  (∀ s u, Enabled s u (.vcmp c e a b m t) → ∃ w x, exec (.vcmp c e a b m t) s = .next { s with bundle := some w, free := s.free + 1 } ∧
    w.work.m = u.work.m ∧ w.work.pending = u.work.pending ++ [x] ∧ x.dest = .mask e.toNat ∧ x.left = 6 ∧
    x.lanes = enabledLanes (lanesPer t.toNat) (elemCount t.toNat) (predicate s.free u.start m) ∧
    ∀ j, j < 256 → x.mvec.getLsbD j = (cmpCode c.toNat t.toNat (at' (elems t.toNat (vread s u 0 0 0 a)) (j / lanesPer t.toNat) 0)
      (at' (elems t.toNat (vread s u 0 0 1 b)) (j / lanesPer t.toNat) 0)).1) ∧
  (∀ s u, Enabled s u (.vsel d a b m t) → ∃ v, exec (.vsel d a b m t) s = .next { s with bundle := some (vectorResult s u
      { op := 0x29, ty := t, st := t, rm := u.start.sr.vmode, bound := 6, delta := 0 } d [] false [] allLanes v []), free := s.free + 1 } ∧
    ∀ j, j < 256 →
      let g := lanesPer t.toNat
      let x : Lane := if (maskRead s.free u.start 3 m.toNat).getLsbD (j / g * g) then at' (vread s u 0 d 0 a) j 0 else at' (vread s u 0 d 1 b) j 0
      at' v j 0 = if g = 1 then laneOf t.toNat x.toNat else x) ∧
  (∀ s u, Enabled s u (.vmop c e k tt) → ∃ w x, exec (.vmop c e k tt) s = .next { s with bundle := some w, free := s.free + 1 } ∧
    w.work.pending = u.work.pending ++ [x] ∧ x.dest = .mask c.toNat ∧ x.left = 6 ∧ x.lanes = BitVec.allOnes 256 ∧
    ∀ j, j < 256 → x.mvec.getLsbD j = tt.getLsbD (2 * ((maskRead s.free u.start 0 e.toNat).getLsbD j).toNat +
      ((maskRead s.free u.start 1 k.toNat).getLsbD j).toNat)) ∧
  Answers (.vcvt d a k r m t) (fun s u =>
    let mode := if r = 0 then u.start.sr.vmode else r
    let x := vread s u 0 d 0 a
    elementwise s u { op := 0x2C, ty := t, st := t, rm := mode, bound := 6, delta := 0 } t.toNat (Nat.min (elemCount (styTy k)) (elemCount t.toNat)) d [a]
      false [x] m ((elems (styTy k) x).map (cvtCode (styTy k) t.toNat mode))) ∧
  Answers (.vscale d a b m t) (fun s u =>
    let x := vread s u 2 d 0 a
    let y := vread s u 2 d 1 b
    elementwise s u { op := 0x2D, ty := t, st := t, rm := u.start.sr.vmode, bound := 6, delta := 2 } t.toNat 256 d [a, b] false [x, y] m
      (zip2 (fun p q => scaleCode t.toNat u.start.sr.vmode p (BitVec.ofNat 24 q)) (elems t.toNat x) (elems 7 y))) ∧
  AnswersWhen (.vpack d a f m t) (fun _ _ => f.getLsbD 4 = true) (fun s u =>
    let x := vread s u 2 d 0 a
    let codes := (elems t.toNat x).map (packCode f t.toNat u.start.sr.vmode)
    vectorResult s u { op := 0x2E, ty := t, st := 7, rm := u.start.sr.vmode, fn := f, bound := 6, delta := 2, codes := predicate s.free u.start m }
      d [a] false [x] (predicate s.free u.start m) (codes.map (fun c => BitVec.ofNat 32 c.1)) (codes.map (·.2))) ∧
  (∀ s u, Enabled s u (.vpack d a f m t) → f.getLsbD 4 = false → ∃ own caps v fl, exec (.vpack d a f m t) s =
    .next { s with bundle := some (vectorResult s u { op := 0x2E, ty := t, st := 7, rm := u.start.sr.vmode, fn := f, bound := 6, delta := 2, codes := predicate s.free u.start m } d [a] own caps (maskOf (fun j => decide (j < 32))) v fl), free := s.free + 1 } ∧
    (d.toNat < 48 →
      let w := (packEl f).w
      let code (k : Nat) : Nat := if (predicate s.free u.start m).getLsbD k
        then (at' ((elems t.toNat (vread s u 2 d 0 a)).map (packCode f t.toNat u.start.sr.vmode)) k (0, 0)).1
        else laneString (vread s u 2 d 2 d) / 2 ^ (k * w) % 2 ^ w
      ∀ j, j < 32 → at' v j 0 = BitVec.ofNat 32 (((List.range (1024 / w)).map (fun k => code k * 2 ^ (k * w))).sum / 2 ^ (32 * j)))) ∧
  Answers (.vunpk d a f m t) (fun s u =>
    let x := vread s u 2 d 0 a
    let w := (packEl f).w
    let n := if f.getLsbD 4 then 256 else 1024 / w
    let codes := if f.getLsbD 4 then mapLanes (fun _ l => l.toNat % 2 ^ w) x
      else (List.range n).map (fun k => laneString x / 2 ^ (k * w) % 2 ^ w)
    elementwise s u { op := 0x2F, ty := t, st := t, rm := u.start.sr.vmode, fn := f, bound := 6, delta := 2 } t.toNat n d [a] false [x] m
      (codes.map (unpackCode f t.toNat)))) ∧
  (∀ (k u h x : Nat) (p : Mode) (f : BitVec 6) (sc : BitVec 24), k ≤ 1 → 2 ≤ u → u ≤ 9 → 2 ≤ h → h ≤ 8 → x < 2 ^ codeWidth k →
   let isNan : Prop := infMag k < codeMag k x
   let isInf : Prop := codeMag k x = infMag k
   let fin : Prop := codeMag k x < infMag k
   let n := codeNeg k x
   let quiet := x ||| 2 ^ (codeFrac k - 1)
   let sig : BitVec 6 := if x.testBit (codeFrac k - 1) then 0 else fInvalid
   let half : Nat := 2 ^ (elemWidth h - 1)
   let lo : Int := if isSigned h then -(half : Int) else 0
   let hi : Int := if isSigned h then (half : Int) - 1 else 2 * half - 1
   let kept (i : Int) (dropped : Bool) : Nat × BitVec 6 := (((if i < lo then lo else if hi < i then hi else i) % 2 ^ elemWidth h).toNat,
     (if i < lo ∨ hi < i then fInvalid else 0) ||| (if dropped then fInexact else 0))
   let whole (c : Nat) : Int := if u = 9 then sRead 128 c else readBy u c
   (isNan → cvtCode k h p x = (0, fNanLost ||| fInvalid)) ∧
   (isInf → cvtCode k h p x = (((if n then lo else hi) % 2 ^ elemWidth h).toNat, fInvalid)) ∧
   (fin → ∃ i, PickedTo p (codeVal k x) (2 ^ codeScale k) i ∧ cvtCode k h p x = kept i (i * 2 ^ codeScale k != codeVal k x)) ∧
   (∀ c, c < 2 ^ elemWidth u → cvtCode u h p c = kept (whole c) false ∧
     (whole c = 0 → cvtCode u k p c = (0, 0)) ∧ (whole c ≠ 0 → RoundedTo k p (whole c * 2 ^ codeScale k) 1 (cvtCode u k p c))) ∧
   (cvtCode k k p x = if codeMag k x ≤ infMag k then (x, 0) else (quiet, sig)) ∧
   (k = 1 → cvtCode 1 0 p x = if codeMag k x ≤ infMag k then (x * 65536, 0) else (quiet * 65536, sig)) ∧
   (k = 0 → (isNan → cvtCode 0 1 p x = (quiet / 65536, sig)) ∧ (isInf → cvtCode 0 1 p x = (signed 1 n (infMag 1), 0)) ∧
     (codeVal 0 x = 0 → cvtCode 0 1 p x = (signed 1 n 0, 0)) ∧ (fin → codeVal 0 x ≠ 0 → RoundedTo 1 p (codeVal 0 x) (2 ^ 16) (cvtCode 0 1 p x))) ∧
   (∀ a b, h ≤ 7 → ∃ i, PickedTo p (sRead (2 * elemWidth h) a) (2 ^ (b % 64)) i ∧
     narrowCode h p a b = kept i (i * 2 ^ (b % 64) != sRead (2 * elemWidth h) a)) ∧
   (∀ cc y, y < 2 ^ codeWidth k → (codeMag k x ≤ infMag k → codeMag k y ≤ infMag k → cmpCode cc k x y = (ccHolds cc (compare (codeVal k x) (codeVal k y)), 0)) ∧
     (isNan → (cmpCode cc k x y).1 = (cc == 1 || cc == 6) ∧ (cmpCode cc k y x).1 = (cc == 1 || cc == 6))) ∧
   (let e := sc.toNat / 65536
    let s := sc.toNat % 65536
    let cause := x / 2 ^ (codeFrac k - 5) % 16
    (e = 255 → ¬ isNan → scaleCode k p x sc = (nanOfCause k 2, fInvalid)) ∧ (isNan → cause = 6 ∨ cause = 7 → (scaleCode k p x sc).1 = nanOfCause k cause) ∧
    (sc = 0 → (isInf → scaleCode k p x sc = (nanOfCause k 4, fInvalid)) ∧ (fin → scaleCode k p x sc = (signed k n 0, 0))) ∧
    (1 ≤ e → e ≤ 254 → isInf → scaleCode k p x sc = (x, 0)) ∧
    (1 ≤ e → e ≤ 254 → fin → codeVal k x ≠ 0 → RoundedTo k p (codeVal k x * (65536 + s) * 2 ^ e) (2 ^ 143) (scaleCode k p x sc))) ∧
   (let j := fieldN f 0 4
    let w := [4, 6, 6, 8, 8, 4, 4, 8, 8][j]?.getD 0
    let top : Nat := [7, 0x1F, 0x1F, 0x7E, 0x7C][j]?.getD 0
    let mark : Nat := [0, 0, 0, 0x7F, 0x7E][j]?.getD 0
    let sign : Nat := if n then 2 ^ (w - 1) else 0
    (j = 0 → ∀ c, c < 8 → codeVal k (unpackCode f k c).1 = [0, 1, 2, 3, 4, 6, 8, 12][c]?.getD 0 * 2 ^ (codeScale k - 1) ∧
      (unpackCode f k (c + 8)).1 = signed k true (unpackCode f k c).1) ∧
    (∀ c, j ≤ 8 → c < 2 ^ w → (j = 3 → c % 128 ≠ 127) → (j = 4 → c % 128 ≤ 0x7C) → packCode f k p (unpackCode f k c).1 = (c, 0) ∧ (unpackCode f k c).2 = 0) ∧
    (j ≤ 4 → isInf → packCode f k p x = (sign + top, if j = 4 then 0 else fOverflow)) ∧
    (j ≤ 4 → isNan → packCode f k p x = ((if j < 3 then 0 else sign + mark), fNanLost ||| sig)) ∧
    (∀ c, 5 ≤ j → j ≤ 8 → c < 2 ^ w → unpackCode f 6 c = (((if j = 5 ∨ j = 7 then sRead w c else c) % 2 ^ 32).toNat, 0)) ∧
    (5 ≤ j → j ≤ 8 → ∀ c, c < 2 ^ 32 →
      let l : Int := if j = 5 ∨ j = 7 then -(2 ^ (w - 1)) else 0
      let g : Int := if j = 5 ∨ j = 7 then 2 ^ (w - 1) - 1 else 2 ^ w - 1
      let i := sRead 32 c
      packCode f 6 p c = (((if i < l then l else if g < i then g else i) % 2 ^ w).toNat, if i < l ∨ g < i then fInvalid else 0))))

/-- Permutes, reductions and scans (07 R162 to R166): each completes with its elements; where they go is as for every vector result. VRED gives
each segment's tree to its first element, VSCAN each element the running value of its segment. The tree: two halves of a segment meet in op(left, right), a lone member
passes unchanged, none gives none, and an empty segment its identity; the running value takes the first member unchanged, then op(r, x) at each later one, and is the
identity before it. -/
def Obligations.VectorPermutesAndReductions : Prop :=
  (∀ (o t : Nat) (p : Mode),
    let op := redStep o t p
    (∀ x, redTree o t p 0 [x] 0 = (x, 0)) ∧
    (∀ (k : Nat) (l r : List (Option Nat)), l.length = 2 ^ k → r.length = 2 ^ k → redTree o t p (k + 1) (l ++ r) 0 =
      (match (redTree o t p k l 0).1, (redTree o t p k r 0).1 with
       | some x, some y => (some (op x y).1, (redTree o t p k l 0).2 ||| (redTree o t p k r 0).2 ||| (op x y).2)
       | some x, none => (some x, (redTree o t p k l 0).2 ||| (redTree o t p k r 0).2)
       | none, y => (y, (redTree o t p k l 0).2 ||| (redTree o t p k r 0).2))) ∧
    (∀ (k : Nat) (l : List (Option Nat)), k ≤ 8 → l.length = 2 ^ k → redTree o t p 8 l 0 = redTree o t p k l 0) ∧
    (∀ l : List (Option Nat),
      let go (r : Option Nat × BitVec 6) (x : Option Nat) : Option Nat × BitVec 6 := match r.1, x with
        | some v, some y => (some (op v y).1, r.2 ||| (op v y).2)
        | some _, none => r
        | none, y => (y, r.2)
      (scanGo o t p none l).1.length = l.length ∧ (scanGo o t p none l).2 = (l.foldl go (none, 0)).2 ∧
      ∀ k, k < l.length → at' (scanGo o t p none l).1 k 0 = ((l.take (k + 1)).foldl go (none, 0)).1.getD (redIdentity o t)) ∧
    (t ≤ 1 → (∀ x y, redStep 0 t p x y = addCode t p x y ∧ redStep 1 t p x y = minmaxCode t true x y ∧ redStep 2 t p x y = minmaxCode t false x y) ∧
      redIdentity 0 t = 0 ∧ redIdentity 1 t = signed t true (infMag t) ∧ redIdentity 2 t = infMag t) ∧
    (2 ≤ t → t ≤ 9 → (∀ x y, redStep 0 t p x y = ((x + y) % 2 ^ elemWidth t, 0)) ∧ redIdentity 0 t = 0) ∧
    (2 ≤ t → t ≤ 8 → (∀ x y, redStep 1 t p x y = (if readBy t x ≤ readBy t y then y else x, 0) ∧ redStep 2 t p x y = (if readBy t x ≤ readBy t y then x else y, 0) ∧
      redStep 3 t p x y = (x &&& y, 0) ∧ redStep 4 t p x y = (x ||| y, 0) ∧ redStep 5 t p x y = (x ^^^ y, 0)) ∧
      (∀ x, x < 2 ^ elemWidth t → readBy t (redIdentity 1 t) ≤ readBy t x ∧ readBy t x ≤ readBy t (redIdentity 2 t)) ∧
      redIdentity 3 t = 2 ^ elemWidth t - 1 ∧ redIdentity 4 t = 0 ∧ redIdentity 5 t = 0)) ∧
  (∀ (t k : Nat) (p : Mask) (v : VReg), k < elemCount t →
    at' (contributions t p v) k none = if p.getLsbD (lanesPer t * k) then some (at' (elems t v) k 0) else none) ∧
  (∀ (n k j : Nat) (l : List (Option Nat)), j < k → at' (segmentsOf n k l) j [] = (l.drop (n * j)).take n) ∧
  ∀ (d a b f : BitVec 6) (m : BitVec 3) (t : BitVec 4) (n : BitVec 8) (x : BitVec 1),
  let four (i : Instr) (op : BitVec 7) (g : List Nat → List Nat → Nat → Nat) (y : BitVec 6) : Prop :=
    Answers i (fun s u => elementwise s u { op := op, ty := t, st := t, rm := u.start.sr.vmode, bound := 4, delta := 0 } t.toNat (elemCount t.toNat) d [] false
      [] m ((List.range (elemCount t.toNat)).map (fun k => (g (elems t.toNat (vread s u 0 d 0 a)) (elems t.toNat (vread s u 0 d 1 y)) k, 0))))
  four (.vmov d a m t) 0x30 (fun p _ k => at' p k 0) a ∧
  four (.vzip d a b m t) 0x33 (fun p q k => if k % 2 = 0 then at' p (k / 2) 0 else at' q (k / 2) 0) b ∧
  four (.vuzp d a b m t) 0x34 (fun p q k => if k < elemCount t.toNat / 2 then at' p (2 * k) 0 else at' q (2 * (k - elemCount t.toNat / 2)) 0) b ∧
  Answers (.vperm d a b m t) (fun s u => elementwise s u { op := 0x31, ty := t, st := t, rm := u.start.sr.vmode, bound := 4, delta := 0 } t.toNat
    (elemCount t.toNat) d [] false [] m ((List.range (elemCount t.toNat)).map (fun k =>
      (at' (elems t.toNat (vread s u 0 d 0 a)) ((at' (vread s u 0 d 1 b) (lanesPer t.toNat * k) 0).toNat % elemCount t.toNat) 0, 0)))) ∧
  (∀ s u, Enabled s u (.vslide d a n x) → ∃ v, exec (.vslide d a n x) s = .next { s with bundle := some (vectorResult s u { op := 0x32, ty := 6, st := 6, bound := 4 } d [] false [] allLanes v []), free := s.free + 1 } ∧
    (x = 0 → ∀ j, j < 256 → at' v j 0 = (if j < n.toNat then 0 else at' (vread s u 0 d 0 a) (j - n.toNat) 0)) ∧
    (x = 1 → ∀ j, j < 256 → at' v j 0 = (if j + n.toNat < 256 then at' (vread s u 0 d 0 a) (j + n.toNat) 0 else 0))) ∧
  (let size : Nat := elemCount t.toNat / 2 ^ (f.toNat / 8)
   let parts (s : State) (u : Bundle) : List (List (Option Nat)) :=
     segmentsOf size (2 ^ (f.toNat / 8)) (contributions t.toNat (predicate s.free u.start m) (vread s u 0 d 0 a))
   Answers (.vred d a f m t) (fun s u =>
     let roots := (parts s u).map (fun x => redTree (f.toNat % 8) t.toNat u.start.sr.vmode 8 x 0)
     vectorResult s u { op := 0x38, ty := t, st := t, rm := u.start.sr.vmode, fn := f, bound := 12 } d [] false []
       (maskOf (fun j => j / lanesPer t.toNat % size == 0))
       (unelems t.toNat (roots.flatMap (fun x => x.1.getD (redIdentity (f.toNat % 8) t.toNat) :: List.replicate (size - 1) 0)))
       [roots.foldl (fun k x => k ||| x.2) 0]) ∧
   Answers (.vscan d a f m t) (fun s u =>
     let runs := (parts s u).map (scanGo (f.toNat % 8) t.toNat u.start.sr.vmode none)
     vectorResult s u { op := 0x39, ty := t, st := t, rm := u.start.sr.vmode, fn := f, bound := 14 } d [] false [] allLanes
       (unelems t.toNat (runs.flatMap (·.1))) [runs.foldl (fun k x => k ||| x.2) 0]))

/-- Vector loads and stores, decisions and cuts (07 R167 to R171; 11 R229 to R234). VLD and VST pop 256 addresses of their generator,
VLDX and VSTX none. Each address is held within its space; a load gives each enabled lane its bytes, or what stands for damaged ones with one
record a lane (log entry 91), and a store's bytes enter the bundle in lane order, those out of bounds left out. VDEC attaches its decision,
which decides each lane in scope by R156 on the completed value, with its deadline, two clocks past the clock in which every lane of the stream is
complete, those that its register holds for an earlier stream among them (R231; deduced for the latter, log entry 33), and VCUT gives the cut lanes the fill. -/
def Obligations.VectorMemoryAndStreams : Prop := ∀ (v b : BitVec 6) (g m c z e : BitVec 3) (t : BitVec 4) (p : BitVec 1) (f : BitVec 5),
  let popped (u : Bundle) : Bundle := { u with work := { u.work with ag := u.work.ag.set g.toNat (genPop 256 (at' u.start.ag g.toNat {})).2 } }
  let addrs (u : Bundle) : List Int := (genPop 256 (at' u.start.ag g.toNat {})).1
  Answers (.vld v g m t) (fun s u => loadVector s (popped u) (at' u.start.ag g.toNat {}) t.toNat v m (addrs u)) ∧
  Answers (.vst v g m t) (fun s u => storeVector s (popped u) (at' u.start.ag g.toNat {}) t.toNat v m (addrs u)) ∧
  Answers (.vldx v g b m t) (fun s u => loadVector s u (at' u.start.ag g.toNat {}) t.toNat v m
    (indexedAddrs (at' u.start.ag g.toNat {}) (vectorOperand s.free u.start false 1 b))) ∧
  Answers (.vstx v g b m t) (fun s u => storeVector s u (at' u.start.ag g.toNat {}) t.toNat v m
    (indexedAddrs (at' u.start.ag g.toNat {}) (vectorOperand s.free u.start false 1 b))) ∧
  (∀ (s : State) (u : Bundle) (w : Gen) (l : List Int), l.length = 256 →
    let n := lanesPer t.toNat
    let on := enabledLanes n (elemCount t.toNat) (predicate s.free u.start m)
    let place (k : Nat) : Nat := genPlace u.seq w (clampRead (genBounds u.start w) (genEsz w) (at' l k 0))
    let bad (k : Nat) : Bool := poisoned s (place k) (genEsz w)
    let stored (k : Nat) : Option StoreOp :=
      if on.getLsbD k then (clampStore (genBounds u.start w) (genEsz w) (at' l k 0)).map (fun a =>
        ⟨genPlace u.seq w a, leBytes (genEsz w) ((at' (vectorOperand s.free u.start false 0 v) k 0).toNat % 2 ^ (8 * laneBytes t.toNat))⟩)
      else none
    (∃ x, loadVector s u w t.toNat v m l = vectorResult s { u with errs := u.errs ++ List.replicate ((List.range 256).countP (fun k => on.getLsbD k && bad k)) (damage u.seq (if genInE w then 3 else 2) 1) }
        { op := 0x3C, ty := t, st := t, bound := 6 } v [] false [] on x [] ∧
      ∀ k, k < 256 → on.getLsbD k = true → at' x k 0 = if (List.range n).any (fun j => bad (k / n * n + j)) then damagedLane t.toNat
        else laneOf t.toNat (readNat s (place k) (genEsz w) % 2 ^ (8 * laneBytes t.toNat))) ∧
    storeVector s u w t.toNat v m l = { u with stores := u.stores ++ (List.range 256).filterMap stored }) ∧
  (∀ (lo hi : Int) (n : Nat) (a : Int), 0 < n →
    clampStore (lo, hi) n a = (if a - a % n < lo ∨ hi ≤ a - a % n then none else some (a - a % n).toNat) ∧
    clampRead (lo, hi) n a = (if a - a % n < lo then lo.toNat else if hi ≤ a - a % n then (hi - n).toNat else (a - a % n).toNat)) ∧
  (∀ s u, Enabled s u (.vdec c e z b m p f) → u.work.z.length = 8 →
    ∃ w d, exec (.vdec c e z b m p f) s = .next { s with bundle := some w, free := s.free + 1 } ∧
      (at' w.work.z z.toNat {}).vdec = some d ∧ d.md = c ∧ d.cc = e ∧ d.scope = predicate s.free u.start m ∧ d.flag = f ∧ (d.pe = true ↔ p = 1) ∧
      d.left = (if d.scope = 0 then 1 else streamWait (at' u.start.z z.toNat {}) + 2) ∧
      (let y := at' u.start.z z.toNat {}
       ∀ j, j < 256 → d.bits.getLsbD j = (cmpCode e.toNat (streamTy y) (codeOf (streamTy y) [at' (completedLanes y) j 0])
         (codeOf (streamTy y) [at' (vectorOperand s.free u.start false 1 b) j 0])).1)) ∧
  (∀ y : Stream, y.left ≤ streamWait y ∧ (∀ o ∈ y.olds, o.2 ≤ streamWait y) ∧ (streamWait y = y.left ∨ ∃ o ∈ y.olds, streamWait y = o.2)) ∧
  (∀ s u, Enabled s u (.vcut z b m) → u.work.z.length = 8 →
    ∃ w, exec (.vcut z b m) s = .next { s with bundle := some w, free := s.free + 1 } ∧
      (at' w.work.z z.toNat {}).cut = ((at' u.work.z z.toNat {}).cut ||| predicate s.free u.start m) ∧
      (∀ j, j < 256 → (predicate s.free u.start m).getLsbD j = true →
        at' (at' w.work.z z.toNat {}).value j 0 = at' (vectorOperand s.free u.start false 1 b) j 0))

/-! ## Engine commands -/

/-- Every engine command but LSEND (01 R17, R18, R20, R28): it enters its engine's queue at the commit with a snapshot of that
engine's staging registers as they stood before the bundle; a full queue (8 places, or 16) stalls the bundle.
LSEND (13 R270, 01 R17): with a place free and its slot of the lode schedule two clocks away, the 64 lanes it names enter the network queue; before
that clock the bundle stalls. -/
def Obligations.EngineCommandsEnter : Prop :=
  let snap (s : State) (u : Bundle) (i : Instr) (l : List Word) : Command :=
    { op := i, stage := l, vmode := u.start.sr.vmode, bundle := u.start.pc, clock := s.clock, serial := s.free }
  (∀ i s b, isCommandOp i = true → slotsOf i = [5] → Enabled s b i → b.start.mx.queue.length < 8 →
    exec i s = .next { s with bundle := some { b with work := { b.work with mx := { b.work.mx with
      queue := b.work.mx.queue ++ [snap s b i b.start.mp] } } }, free := s.free + 1 }) ∧
  (∀ i s b, isCommandOp i = true → slotsOf i = [6] → Enabled s b i → b.start.cpy.queue.length < 16 →
    exec i s = .next { s with bundle := some { b with work := { b.work with cpy := { b.work.cpy with
      queue := b.work.cpy.queue ++ [snap s b i b.start.cp] } } }, free := s.free + 1 }) ∧
  (∀ i s b, isCommandOp i = true → slotsOf i = [7] → isLsend i = false → Enabled s b i → b.start.net.queue.length < 16 →
    exec i s = .next { s with bundle := some { b with work := { b.work with net := { b.work.net with
      queue := b.work.net.queue ++ [snap s b i b.start.np] } } }, free := s.free + 1 }) ∧
  (∀ i s b, isCommandOp i = true → Enabled s b i →
    (slotsOf i = [5] ∧ 8 ≤ b.start.mx.queue.length ∨ slotsOf i = [6] ∧ 16 ≤ b.start.cpy.queue.length ∨
      slotsOf i = [7] ∧ 16 ≤ b.start.net.queue.length) →
    exec i s = .next { s with bundle := some (addStall b 0), free := s.free + 1 }) ∧
  (∀ (v : BitVec 6) (k : BitVec 2) (s : State) (b : Bundle), Enabled s b (.lsend v k) →
  (b.start.net.queue.length < 16 → lsendReady s b.seq b.start = true →
    ∃ w c, exec (.lsend v k) s = .next { s with bundle := some w, free := s.free + 1 } ∧ w.work.net.queue = b.work.net.queue ++ [c] ∧
      c.op = .lsend v k ∧ ∀ j, j < 64 → at' c.lanes j 0 = at' (vectorOperand s.free b.start false 0 v) (64 * k.toNat + j) 0) ∧
  (b.start.net.queue.length < 16 → lsendReady s b.seq b.start = false →
    exec (.lsend v k) s = .next { s with bundle := some (addStall b 0), free := s.free + 1 }))

/-! ## Frames -/

/-- The frame of the scalar-result operations and of the loads (02, 03): whatever the operation does in the bundle, memory and every
other sequencer stand, no store or control request is added, and of its own sequencer only the destination changes (the queue for a push). -/
def Obligations.ScalarResultFrame : Prop := ∀ (i : Instr) (d : BitVec 6) (s t : State) (b : Bundle),
  scalarDest i = some d → s.bundle = some b → exec i s = .next t →
  OnlyBundle s t ∧ (∀ a, memGet t.mem a = memGet s.mem a) ∧ ∃ c, t.bundle = some c ∧ SameRequests b c ∧ OnlyScalar d b.work c.work

/-- The frame of the scalar stores and atomics (02 R55, R57 to R59): of the sequencer nothing changes for a store, and only the destination for an atomic;
memory stands until the bundle commits, and at most one store is added, of the form's width at the address it computes. -/
def Obligations.ScalarStoreFrame : Prop :=
  (∀ (i : Instr) (w : Nat) (a : BitVec 6) (o : BitVec 13) (d : BitVec 6) (s t : State) (b : Bundle),
    storeForm i = some (w, a, o, d) → s.bundle = some b → exec i s = .next t →
    OnlyBundle s t ∧ (∀ x, memGet t.mem x = memGet s.mem x) ∧ ∃ c, t.bundle = some c ∧ c.work = b.work ∧ c.start = b.start ∧ c.seq = b.seq ∧ c.ctl = b.ctl ∧
      (c.stores = b.stores ∨ ∃ l, c.stores = b.stores ++ [⟨placeP b.seq (effAddr (opd s b 0 a).bits o).toNat, l⟩] ∧ l.length = w)) ∧
  (∀ (i : Instr) (w : Nat) (d a : BitVec 6) (s t : State) (b : Bundle),
    atomicForm i = some (w, d, a) → s.bundle = some b → exec i s = .next t →
    OnlyBundle s t ∧ (∀ x, memGet t.mem x = memGet s.mem x) ∧ ∃ c, t.bundle = some c ∧ OnlyScalar d b.work c.work ∧ c.start = b.start ∧ c.seq = b.seq ∧
      c.ctl = b.ctl ∧ (c.stores = b.stores ∨ ∃ l, c.stores = b.stores ++ [⟨placeP b.seq (opd s b 0 a).bits.toNat, l⟩] ∧ l.length = w))

/-- The frame of the vector slot (07, 11): no scalar register, queue, staging or control state changes; memory stands until the commit; only
VST and VSTX add stores; the generators change by a pop alone; of the state registers only sr.fpstat. Mask registers change at once only where a
VDEC is abandoned (11 R232). -/
def Obligations.VectorFrame : Prop := ∀ (i : Instr) (s t : State) (b : Bundle),
  isVectorOp i = true → s.bundle = some b → exec i s = .next t →
  OnlyBundle s t ∧ (∀ a, memGet t.mem a = memGet s.mem a) ∧ ∃ c, t.bundle = some c ∧ c.start = b.start ∧ c.seq = b.seq ∧ c.ctl = b.ctl ∧ c.ends = b.ends ∧ c.quiet = b.quiet ∧
    c.work = { b.work with z := c.work.z, leaving := c.work.leaving, m := c.work.m, ag := c.work.ag, pending := c.work.pending,
                           fInc := c.work.fInc, fpNow := c.work.fpNow, sr := { b.work.sr with fpstat := c.work.sr.fpstat } } ∧
    ((∀ k ∈ b.work.z, k.vdec = none) → c.work.m = b.work.m) ∧
    ((∀ v g m y, i ≠ .vst v g m y) → (∀ v g x m y, i ≠ .vstx v g x m y) → c.stores = b.stores) ∧
    ((∀ v g m y, i ≠ .vst v g m y) → (∀ v g m y, i ≠ .vld v g m y) → c.work.ag = b.work.ag)

/-- The frame of the engine commands (01 R18, R20): only the command's own queue changes, that of the engine of its slot; the queues of the other
two engines stand. -/
def Obligations.CommandFrame : Prop := ∀ (i : Instr) (s t : State) (b : Bundle),
  isCommandOp i = true → s.bundle = some b → exec i s = .next t →
  OnlyBundle s t ∧ (∀ a, memGet t.mem a = memGet s.mem a) ∧ ∃ c, t.bundle = some c ∧ SameRequests b c ∧
    c.work = { b.work with mx := { b.work.mx with queue := c.work.mx.queue }, cpy := { b.work.cpy with queue := c.work.cpy.queue },
                           net := { b.work.net with queue := c.work.net.queue } } ∧
    (slotsOf i = [5] ∧ c.work.cpy.queue = b.work.cpy.queue ∧ c.work.net.queue = b.work.net.queue ∨
     slotsOf i = [6] ∧ c.work.mx.queue = b.work.mx.queue ∧ c.work.net.queue = b.work.net.queue ∨
     slotsOf i = [7] ∧ c.work.mx.queue = b.work.mx.queue ∧ c.work.cpy.queue = b.work.cpy.queue)

/-! ## Micro-steps and the matrix engine -/

/-- The micro-steps of a routine in progress (08 R187 to R193, R197): each completes. The role steps set the roles of their sites; FILL at a site that
takes it begins that site's fill; SWAP makes the other latch of the pair active once its sites' fills are done, and waits till then; FEED begins with its
rows; REPEAT opens its body, or passes over it at a count of 0; SYNC waits for a period, or posts its flag once nothing earlier is owed; END ends the routine. That a fill's value is its whole source as it stands
at its start is deduced (log entry 17). -/
def Obligations.MicroStepsRun : Prop := ∀ (s : State) (r : Routine), (getSeq s s.cur).mx.routine = some r → r.ended = false →
  r.pc ∉ (getSeq s s.cur).microBad →
  let m0 := (getSeq s s.cur).mx
  let rt (t : State) : Option Routine := (getSeq t s.cur).mx.routine
  let roles (i : Instr) (m : BitVec 8) (x : Role) : Prop :=
    ∃ t u, exec i s = .next t ∧ rt t = some u ∧ u.roles = setRoles r.roles m x ∧ u.ready = s.clock + 1 ∧ u.active = r.active
  (∀ m, roles (.stepHead m) m .headRole ∧ roles (.stepJoin m) m .joinRole ∧ roles (.stepAdd m) m .addRole ∧ roles (.stepPass m) m .passRole) ∧
  (∀ m k, roles (.stepTail m k) m (.tailRole k)) ∧
  (∃ t u, exec .stepEnd s = .next t ∧ rt t = some u ∧ u.ended = true ∧ (getSeq t s.cur).mx.lodeBuf = []) ∧
  (∀ m l t0 rel p adv, (∃ t, exec (.stepFill m l t0 rel p adv) s = .next t ∧ t.mem = s.mem ∧ t.clock = s.clock) ∧
    ∀ j, sitesIn m = [j] →
      let site := siteOf s.cur j
      let st := getSite s site
      let d := at' r.params p.toNat 0
      let pl := planOf st site d (adv.toNat * tget 0 r.fillRuns r.pc) (t0 == 1)
      st.retired = false → fillRefused d pl = false → (openingsOf s s.cur j pl).stop = none → (openingsOf s s.cur j pl).lost = [] →
      ∃ t u f, exec (.stepFill m l t0 rel p adv) s = .next t ∧ rt t = some u ∧ (getSeq t s.cur).mx.fills = m0.fills ++ [f] ∧ f.site = j ∧
        f.latch = fillTarget r.pair l rel (at' r.active j 0) ∧ f.value = (expand { s with free := s.free + 1 } pl).map (·.1) ∧
        f.owner = r.serial ∧ f.doneAt = Nat.max (s.clock + 20) st.portFree + portClocks pl + 4 ∧ u.ready = s.clock + 1 ∧
        u.fillsStarted = r.fillsStarted + 1) ∧
  (∀ m, fillsPending m0 (sitesIn m) = false → ∃ t u, exec (.stepSwap m) s = .next t ∧ rt t = some u ∧ u.ready = s.clock + 1 ∧
    u.active = (sitesIn m).foldl (fun l j => l.set j (otherLatch (at' l j 0))) r.active) ∧
  (∀ m, fillsPending m0 (sitesIn m) = true → ∃ t u, exec (.stepSwap m) s = .next t ∧ rt t = some u ∧
    u.active = r.active ∧ u.pc = r.pc) ∧
  (∀ m src af ent ag c scl, ∃ t, exec (.stepFeed m src af ent ag c scl) s = .next t ∧ t.mem = s.mem) ∧
  (∀ m src af ent ag c scl, r.cutRow = none → (∀ j ∈ sitesIn m, (getSite s (siteOf s.cur j)).retired = false) →
    ∃ t u f, exec (.stepFeed m src af ent ag c scl) s = .next t ∧ rt t = some u ∧ u.feed = some f ∧ u.pc = r.pc ∧
      f.word = .stepFeed m src af ent ag c scl ∧ f.rows = (if c = 0 then 65536 else c.toNat) ∧ f.start = s.clock ∧
      f.next = (if src = 1 then s.clock + 6 else s.clock)) ∧
  (∀ c l cp k, ∃ t u, exec (.stepRepeat c l cp k) s = .next t ∧ rt t = some u ∧ u.ready = s.clock + 1 ∧
    (0 < repeatCount r.params c cp k → u.pc = r.pc + 1 ∧ u.loops = (r.pc + 1, r.pc + l.toNat, repeatCount r.params c cp k) :: r.loops) ∧
    (repeatCount r.params c cp k = 0 → (u.pc, u.loops) = closeLoops (r.pc + 1 + l.toNat) r.loops)) ∧
  (∀ f, ∃ t u, exec (.stepSync 0 f) s = .next t ∧ rt t = some u ∧ u.waitSync = true) ∧
  (∀ f, ∃ t u, exec (.stepSync 1 f) s = .next t ∧ rt t = some u ∧ u.ready = s.clock + 1 ∧ u.roles = r.roles ∧ t.mem = s.mem) ∧
  (∀ f, m0.edgeBuf = [] → m0.sent = [] → m0.fills = [] → r.posts = [] → f.toNat < (getSeq s s.cur).fInc.length →
    ∃ t, exec (.stepSync 1 f) s = .next t ∧ at' (getSeq t s.cur).fInc f.toNat 0 = at' (getSeq s s.cur).fInc f.toNat 0 + 1)

/-- The steps of the matrix engine (08 R173, R177, R183, R185, R186, R191, R195, R197, R198; 11 R235, R237; 15 R300): each completes where its condition holds, on the
state alone. A command leaves the queue as it starts: MROUT sets a routine's entry, MSTEP the words of the store, MEDGE with accepted staging the edge,
MFLUSH sends the held rows to the edge (their leaving the accumulator as it starts is deduced, log entry 44), MCALL starts a routine that passes the checks and stops
the context where its entry is empty or a check fails. MLATCH begins the fill of its site, its value the whole source as it stands then (deduced, log entry 17); MSTAT writes its record and, under CLR, clears what it counts, or outside the window
stops the context with its command gone; MDEC arms the next MCALL (11 R235); MCUT adds its cut to the target's rows (11 R237), a reserved bit or no target refusing it. A complete
command posts its flag, and later ones start in the next clock (lastDone, deduced, log entry 41); a fill's latch takes its value; rows enter, leave and cross. -/
def Obligations.MatrixEngineSteps : Prop :=
  let posted (s t : State) (n : Nat) (pe : Bool) (cf : Nat) : Prop :=
    pe = true → cf < (getSeq s n).fInc.length → at' (getSeq t n).fInc cf 0 = at' (getSeq s n).fInc cf 0 + 1
  (∀ (s : State) (n : Nat) (c : Command) (r : List Command), n < 512 → (getSeq s n).mx.queue = c :: r → matrixMayStart s.clock (getSeq s n).mx c = true →
    (∃ t, exec (.matrixCommandStart n) s = .next t ∧ (getSeq t n).mx.queue = r) ∧
    (∀ cf p e st, c.op = .mrout cf p e st → ∃ t, exec (.matrixCommandStart n) s = .next t ∧
      (getSeq t n).routines = (getSeq s n).routines.set e.toNat (some st) ∧ t.mem = s.mem) ∧
    (∀ cf p i k, c.op = .mstep cf p i k → ∃ t, exec (.matrixCommandStart n) s = .next t ∧
      (getSeq t n).micro = writeSteps (getSeq s n).micro i.toNat (c.stage.take (k.toNat + 1)) ∧ t.mem = s.mem) ∧
    (∀ cf p, c.op = .medge cf p → edgeRefused c.stage (getSeq s n).mx.acc.length = false → ∃ t e, exec (.matrixCommandStart n) s = .next t ∧
      (getSeq t n).mx.edge = some e ∧ e.cfg = c.stage.take 4 ∧ t.mem = s.mem ∧
      e.mode = (if bits (mpOf c.stage 0) 4 3 = 0 then c.vmode else bits (mpOf c.stage 0) 4 3)) ∧
    (∀ cf p, c.op = .mflush cf p → ∃ t, exec (.matrixCommandStart n) s = .next t ∧ (getSeq t n).mx.acc = [] ∧
      (getSeq t n).mx.edgeBuf.length = (getSeq s n).mx.edgeBuf.length + (getSeq s n).mx.acc.length ∧ t.mem = s.mem) ∧
    (∀ cf p rt l st, c.op = .mcall cf p rt l → ((getSeq s n).routines[rt.toNat]?).join = some st →
      (∃ w, checkRoutine { getSeq s n with mx := { (getSeq s n).mx with queue := r } } n (l.toNat / 2) l.toNat (c.stage.take 8) st.toNat = .ok w) →
      ∃ t u, exec (.matrixCommandStart n) s = .next t ∧ (getSeq t n).mx.routine = some u ∧ u.pc = st.toNat ∧ u.params = c.stage.take 8 ∧
        u.active = List.replicate 8 l.toNat ∧ u.roles = List.replicate 8 none ∧ u.ended = false) ∧
    (∀ cf p rt l, c.op = .mcall cf p rt l →
      (∀ st, ((getSeq s n).routines[rt.toNat]?).join = some st → ∃ e, checkRoutine { getSeq s n with mx := { (getSeq s n).mx with queue := r } } n
        (l.toNat / 2) l.toNat (c.stage.take 8) st.toNat = .error e) →
      ∃ t, exec (.matrixCommandStart n) s = .next t ∧ (getSeq t n).mx.routine = (getSeq s n).mx.routine ∧ t.mem = s.mem ∧
        (∃ x, t.fatals = s.fatals ++ [x] ∧ bits x 0 8 = 0x06#8) ∧
        ∀ k x, (getSeq s n).ctx = some k → getCtx s k = some x → ∃ y, getCtx t k = some y ∧ 3 ≤ y.life) ∧
    (∀ cf p l t0 j, c.op = .mlatch cf p l t0 → sitesIn (fdSites (mpOf c.stage 0)) = [j] →
      let site := siteOf n j
      let st := getSite s site
      let pl := planOf st site (mpOf c.stage 0) 0 (t0 == 1)
      st.retired = false → fillRefused (mpOf c.stage 0) pl = false → (openingsOf s n j pl).stop = none → (openingsOf s n j pl).lost = [] →
      ∃ t f x, exec (.matrixCommandStart n) s = .next t ∧ (getSeq t n).mx.fills = (getSeq s n).mx.fills ++ [f] ∧ f.site = j ∧ f.latch = l.toNat ∧
        f.value = (expand s pl).map (·.1) ∧ f.owner = c.serial ∧ f.doneAt = Nat.max (s.clock + 20) st.portFree + portClocks pl + 4 ∧
        (getSeq t n).mx.running = (getSeq s n).mx.running ++ [x] ∧ x.cmd = c ∧ x.waitsFill = true ∧ t.mem = s.mem) ∧
    (∀ cf p, c.op = .mstat cf p →
      let q := getSeq s n
      let w := mpOf c.stage 0
      let a := w.toNat / 32 % 2 ^ 15 * 32
      anyBit w 20 43 = false → Memory.wf s.mem = true →
      (q.sr.winBase.toNat ≤ a → a + 32 ≤ q.sr.winBase.toNat + q.sr.winSize.toNat →
        ∃ t, exec (.matrixCommandStart n) s = .next t ∧ readBytes t (placeP n a) 32 = leBytes 4 q.mx.err.toNat ++ leBytes 4 q.mx.fillCount.toNat ++
          leBytes 4 q.mx.rowCount.toNat ++ leBytes 4 q.mx.poisonCount.toNat ++ leBytes 4 q.mx.lmissCount.toNat ++ leBytes 4 q.mx.oobCount.toNat ++
          leBytes 8 q.sr.sched.toNat ∧ (∀ b, b < placeP n a ∨ placeP n a + 32 ≤ b → memGet t.mem b = memGet s.mem b) ∧
          (w.getLsbD 63 = false → (getSeq t n).mx.err = q.mx.err ∧ (getSeq t n).mx.fillCount = q.mx.fillCount ∧ (getSeq t n).mx.rowCount = q.mx.rowCount) ∧
          (w.getLsbD 63 = true → (getSeq t n).mx.err = 0 ∧ (getSeq t n).mx.fillCount = 0 ∧ (getSeq t n).mx.rowCount = 0 ∧
            (getSeq t n).mx.poisonCount = 0 ∧ (getSeq t n).mx.lmissCount = 0 ∧ (getSeq t n).mx.oobCount = 0)) ∧
      (a < q.sr.winBase.toNat ∨ q.sr.winBase.toNat + q.sr.winSize.toNat < a + 32 →
        ∃ t, exec (.matrixCommandStart n) s = .next t ∧ t.mem = s.mem ∧ (∃ x, t.fatals = s.fatals ++ [x] ∧ bits x 0 8 = 0x01#8) ∧
          ∀ x ∈ (getSeq t n).mx.running, x.cmd.serial ≠ c.serial)) ∧
    (∀ cf p k e, c.op = .mdec cf p k → (getSeq s n).mx.edge = some e → edgeOty e.cfg ≠ 9 → edgeAcc e.cfg = false → anyBit (mpOf c.stage 0) 26 38 = false →
      fieldN (mpOf c.stage 0) 0 3 = 0 → (anyBit (mpOf c.stage 0) 25 1 = true ∨ anyBit (mpOf c.stage 0) 20 5 = false) →
      ∃ t, exec (.matrixCommandStart n) s = .next t ∧ (getSeq t n).mx.arming = some ⟨mpOf c.stage 0, k⟩ ∧ t.mem = s.mem) ∧
    (∀ cf p a, c.op = .mcut cf p a →
      let row := (mpOf c.stage 1).toNat % 2 ^ 16
      (anyBit (mpOf c.stage 1) 16 48 = true ∨ (a = 1 ∧ mpOf c.stage 0 ≠ 0) ∨ (getSeq s n).mx.target = none →
        (∀ y, (getSeq s n).mx.routine = some y → y.cutRow = none) → ∃ t, exec (.matrixCommandStart n) s = .next t ∧ (getSeq t n).mx.err.getLsbD 3 = true) ∧
      (∀ x, (getSeq s n).mx.target = some x → x.edgeChanged = false → (∀ e, (getSeq s n).mx.edge = some e → edgeOty e.cfg ≠ 9 ∧ edgeAcc e.cfg = false) →
        anyBit (mpOf c.stage 1) 16 48 = false → (a = 1 → mpOf c.stage 0 = 0) → (∀ y, (getSeq s n).mx.routine = some y → y.cutRow = none ∧ y.fed ≤ row) →
        ∃ t y, exec (.matrixCommandStart n) s = .next t ∧ (getSeq t n).mx.target = some y ∧
          y.cuts = x.cuts ++ [(if a = 1 then BitVec.ofNat 64 (2 ^ 64 - 1) else mpOf c.stage 0, row)] ∧ (x.values = [] → t.mem = s.mem) ∧
          (a = 1 → ∀ z, (getSeq s n).mx.routine = some z → (getSeq t n).mx.routine = some { z with cutRow := some row })))) ∧
  (∀ (s : State) (n : Nat) (r : MatrixRun), n < 512 → (getSeq s n).mx.running.find? (runDone s.clock (getSeq s n).mx) = some r →
    ∃ t, exec (.matrixCommandComplete n) s = .next t ∧ t.mem = s.mem ∧ (getSeq t n).mx.lastDone = s.clock ∧
      (∀ x ∈ (getSeq t n).mx.running, x.cmd.serial ≠ r.cmd.serial) ∧ posted s t n (matrixHeader r.cmd.op).2 (matrixHeader r.cmd.op).1) ∧
  (∀ (s : State) (n : Nat) (r : Routine), n < 512 → (getSeq s n).mx.routine = some r → callDone s.clock (getSeq s n).mx r = true →
    ∃ t, exec (.mcallComplete n) s = .next t ∧ (getSeq t n).mx.routine = none ∧ t.mem = s.mem ∧
      ∀ k, k < (getSeq s n).fInc.length → at' (getSeq t n).fInc k 0 =
        at' (getSeq s n).fInc k 0 + (r.posts.filter (fun p => p.flag == k)).length + (if r.pe = true ∧ r.cf = k then 1 else 0)) ∧
  (∀ (s : State) (p : Nat) (f : Fill), p < 4096 →
    (getSeq s (siteOwner (siteOfPackage p)).1).mx.fills.find? (fun f => f.site == (siteOwner (siteOfPackage p)).2 && decide (f.doneAt ≤ s.clock)) = some f →
    ∃ t, exec (.fillComplete p) s = .next t ∧ t.mem = s.mem ∧
      (getSite t (siteOf (siteOwner (siteOfPackage p)).1 f.site)).latch =
        (getSite s (siteOf (siteOwner (siteOfPackage p)).1 f.site)).latch.set f.latch f.value) ∧
  (∀ (s : State) (n : Nat) (r : Routine) (f : Feed) m src af ent ag c scl, n < 512 → (getSeq s n).mx.routine = some r → r.feed = some f →
    f.word = .stepFeed m src af ent ag c scl → rowReady s n (getSeq s n).mx r f = true → ∃ t, exec (.bedRowEntry n) s = .next t ∧ t.mem = s.mem ∧
      ((∀ j ∈ sitesIn m, (getSite s (siteOf n j)).retired = false) → atCut r (sitesIn m) = false → feedTakesWest r.roles (sitesIn m) = false → 1 < f.rows → ∃ u g, (getSeq t n).mx.routine = some u ∧
        u.feed = some g ∧ g.rows = f.rows - 1 ∧ g.word = f.word ∧ u.pc = r.pc)) ∧
  (∀ (s : State) (n : Nat) (row : Row) (r : List Row), n < 512 → (getSeq s n).mx.edgeBuf = row :: r → deliveryDue s.clock (getSeq s n).mx = true →
    ∃ t, exec (.rowDelivery n) s = .next t ∧ (getSeq t n).mx.edgeBuf = r ∧
      (getSeq t n).mx.rowCount = (if row.flush = none then (getSeq s n).mx.rowCount + 1 else (getSeq s n).mx.rowCount)) ∧
  (∀ (s : State) (n w : Nat) (row : Row) (r : List Row), n < 512 → westOf n = some w → (getSeq s w).mx.sent = row :: r → row.arrive ≤ s.clock →
    linkOpen s n = true → ∃ t, exec (.linkRowArrival n) s = .next t ∧ (getSeq t w).mx.sent = r ∧ t.mem = s.mem ∧
      (getSeq t n).mx.incoming = (if 0 < (getSeq s n).mx.discardIn then (getSeq s n).mx.incoming else (getSeq s n).mx.incoming ++ [row]))

/-- The lode (13 R268 to R270, 08 R193): switches, period boundaries, injections and deliveries complete where they are due; a boundary lets the routines that
wait for it go on, and an injected vector is on its way for two clocks. -/
def Obligations.LodeSteps : Prop := ∀ (s : State) (cl : Nat), cl < 32 →
  (∀ w, (getLode s cl).waiting = some w → switchDue s cl = true → ∃ t, exec (.lodeSwitch cl) s = .next t ∧ (getLode t cl).table = some w.1 ∧
    (getLode t cl).origin = s.clock ∧ (getLode t cl).waiting = none ∧ (getLode t cl).counts = List.replicate 16 0 ∧ t.seqs = s.seqs ∧ t.mem = s.mem) ∧
  (boundaryDue s cl = true → ∃ t, exec (.periodBoundary cl) s = .next t ∧ t.mem = s.mem ∧ (getLode t cl).boundarySeen = s.clock + 1 ∧
    ∀ n r, n / 16 = cl → (getSeq s n).mx.routine = some r → r.waitSync = true → r.ready ≤ s.clock →
      ∃ u, (getSeq t n).mx.routine = some u ∧ u.waitSync = false ∧ u.pc = r.pc) ∧
  (injectionDue s cl ≠ none → ∃ t, exec (.lodeInjection cl) s = .next t ∧ t.mem = s.mem) ∧
  (∀ n c e y, injectionDue s cl = some (n, c) → (getLode s cl).table = some y →
    matchedEntry (getLode s cl) (n % 16) (at' (getLode s cl).counts (n % 16) 0) = some e →
    ∃ t v, exec (.lodeInjection cl) s = .next t ∧ (getLode t cl).deliver = (getLode s cl).deliver ++ [v] ∧ v.arrive = s.clock + 2 ∧
      v.rows = e.rows ∧ v.cols = e.cols ∧ v.lanes = c.lanes) ∧
  (∀ v r, (getLode s cl).deliver = v :: r → v.arrive ≤ s.clock → ∃ t, exec (.lodeDelivery cl) s = .next t ∧ (getLode t cl).deliver = r ∧ t.mem = s.mem)

/-- The steps in which results land, streams complete and decisions are made (05 R110; 11 R226, R231; 03 R88): every result whose bound has run out lands in the order
of issue, its destination taking its value in its lanes where no later one lands there too, and its sr.fpstat bits come in; one not yet due stands with its destination and its value;
registers that none lands in stand. A complete stream keeps its values; the bits of a VDEC land in its scope, but where a later write has landed (its lanes `lost`, log entry 13), and
its flag is posted. -/
def Obligations.LandingSteps : Prop := ∀ (s : State) (n : Nat), n < 512 →
  (let q := getSeq s n
   q.pending.any (fun e => e.left == 0) = true → ∃ t, exec (.pendingWriteLanding n) s = .next t ∧ t.mem = s.mem ∧ (∀ k, k ≠ n → getSeq t k = getSeq s k) ∧
    let w := getSeq t n
    w.pc = q.pc ∧ w.pending.map (fun e => { e with lanes := 0 }) = (q.pending.filter (fun e => e.left != 0)).map (fun e => { e with lanes := 0 }) ∧
    (∀ e ∈ q.pending, e.left ≠ 0 → (∀ x ∈ q.pending, x.left = 0 → x.dest ≠ e.dest) → e ∈ w.pending) ∧
    w.sr.fpstat = (q.pending.filter (fun e => e.left == 0)).foldl (fun f e => f ||| e.flags) q.sr.fpstat ∧
    (∀ l e r, q.pending = l ++ e :: r → e.left = 0 → e.lanes ≠ 0 → (∀ x ∈ r, x.left = 0 → x.lanes ≠ 0 → x.dest ≠ e.dest) →
      (∀ a, e.dest = .queue a → a < q.q.length → at' w.q a {} = e.value) ∧ (∀ a, e.dest = .shadow a → a < q.sq.length → at' w.sq a {} = e.value) ∧
      (∀ a, e.dest = .named a → a < q.g.length → at' w.g a {} = e.value) ∧
      (∀ g p, e.dest = .param g p → g < q.ag.length → (∀ x ∈ l ++ r, x.left = 0 → ∀ k, x.dest ≠ .param g k) → at' w.ag g {} = setParam (at' q.ag g {}) p e.value.bits) ∧
      ∀ j, j < 256 → e.lanes.getLsbD j = true →
        (∀ k, e.dest = .vector k → k < q.v.length → at' (at' w.v k []) j 0 = at' e.vec j 0) ∧
        (∀ k, e.dest = .mask k → k < q.m.length → (at' w.m k 0).getLsbD j = e.mvec.getLsbD j)) ∧
    (let lands (d : Dest) : Prop := ∃ e ∈ q.pending, e.left = 0 ∧ e.lanes ≠ 0 ∧ e.dest = d
     (∀ a, ¬ lands (.queue a) → at' w.q a {} = at' q.q a {}) ∧ (∀ a, ¬ lands (.shadow a) → at' w.sq a {} = at' q.sq a {}) ∧
     (∀ a, ¬ lands (.named a) → at' w.g a {} = at' q.g a {}) ∧ (∀ k, ¬ lands (.vector k) → at' w.v k [] = at' q.v k []) ∧
     (∀ k, ¬ lands (.mask k) → at' w.m k 0 = at' q.m k 0))) ∧
  (∀ z, (at' (getSeq s n).z z {}).valid = true → (at' (getSeq s n).z z {}).left = 0 → (at' (getSeq s n).z z {}).done = false →
    ∃ t, exec (.streamCompletion n z) s = .next t ∧ (at' (getSeq t n).z z {}).done = true ∧
      (at' (getSeq t n).z z {}).value = (at' (getSeq s n).z z {}).value ∧ t.mem = s.mem) ∧
  (∀ z d, (at' (getSeq s n).z z {}).vdec = some d → vdecDue d = true → d.md.toNat < (getSeq s n).m.length →
    ∃ t, exec (.vdecDecision n z) s = .next t ∧ t.mem = s.mem ∧ (at' (getSeq t n).z z {}).vdec = none ∧
      at' (getSeq t n).m d.md.toNat 0 = ((at' (getSeq s n).m d.md.toNat 0 &&& ~~~(d.scope &&& ~~~d.lost)) ||| (d.bits &&& (d.scope &&& ~~~d.lost))) ∧
      (d.pe = true → d.flag.toNat < (getSeq s n).fInc.length → at' (getSeq t n).fInc d.flag.toNat 0 = at' (getSeq s n).fInc d.flag.toNat 0 + 1))

/-! ## Copies and the network -/

/-- The steps of the copy engine (12 R244, R247 to R254, R256, R259, R262, R263; 10 R217, R221, R222). A copy leaves the queue as it starts, begun or held; one
whose end no range maps stops the context. An element of CPY, CPYS or CPYG at plain places moves whole, its positions those of R249; CPYF writes the low bytes of cp0, CPYT each target that
runs a task of the context, a refused one giving STATUS 3. CPYX writes a block's bytes or its compressed form, and compression and expansion undo each other; CPYW moves
one row (when after its start a copy goes on is a free value, log entry 7); CPYQ writes its counts, cleared under CLR, or the latencies: that CLR clears nothing with MODE 1 is the model's choice (log entry 120). A request whose wait
has ended goes on with the unit already read, and nothing else changes. A slice grants the permit it owes; a copy at its end completes with its record of R263 and its post. -/
def Obligations.CopyEngineSteps : Prop :=
  let next (s : State) (n : Nat) (r : CopyRun) : Prop := n < 512 ∧ wokenNext s = none ∧ (getSeq s n).cpy.running.find? (copyWaits s n) = some r ∧ r.begun = true ∧
    r.convert = false ∧ r.image = [] ∧ Memory.wf s.mem = true
  let kept (s t : State) (d w : Nat) : Prop := ∀ a, a < d ∨ d + w ≤ a → memGet t.mem a = memGet s.mem a
  let own (n : Nat) (x : CopyEnd) (a : Int) : Nat := if x.space = 1 then placeP n a.toNat else placeE n a.toNat
  let ends (t : State) (n serial : Nat) (P : CopyRun → Prop) : Prop := ∀ x ∈ (getSeq t n).cpy.running, x.cmd.serial = serial → P x
  (∀ (s : State) (n : Nat) (c : Command) (r : List Command), n < 512 → (getSeq s n).cpy.queue = c :: r → copyMayStart s n c = true →
    (∃ t, exec (.copyStart n) s = .next t ∧ (getSeq t n).cpy.queue = r) ∧
    let s1 := setSeq s n { getSeq s n with cpy := { (getSeq s n).cpy with queue := r } }
    let ctx := (getSeq s n).ctx.getD 16
    let old := (getSeq s n).cpy.running
    (∀ x ∈ old, x.cmd.serial ≠ c.serial) → copyKind c.op ≠ .query →
    (cpRec c = true → (windowOf (getSeq s n)).1 ≤ (cpRaddr c : Int) ∧ ((cpRaddr c + 32 : Nat) : Int) ≤ (windowOf (getSeq s n)).2) →
    (∀ y, beginCopy s1 n ctx (newRun c) = .run y → ∃ t, exec (.copyStart n) s = .next t ∧ y.cmd = c ∧
      (getSeq t n).cpy.running = old ++ [{ y with ready := s.clock + Config.freeClocks s.free, failR := [], failW := [] }]) ∧
    (∀ x w, beginCopy s1 n ctx (newRun c) = .held x w → ∃ t y, exec (.copyStart n) s = .next t ∧
      (getSeq t n).cpy.running = old ++ [y] ∧ y.cmd = c ∧ y.begun = false) ∧
    (∀ va, beginCopy s1 n ctx (newRun c) = .outside va → ∃ t x, exec (.copyStart n) s = .next t ∧ (getSeq t n).cpy.running = old ∧
      t.fatals = s.fatals ++ [x] ∧ bits x 0 8 = 0x02#8)) ∧
  (∀ (s : State) (n : Nat), n < 512 → wokenNext s = none → (nextAccess s n).isSome = true → ∃ t, exec (.requestTranslate n) s = .next t) ∧
  (∀ (s : State) (n p d b : Nat) (r x : CopyRun) (k : CopyKind), next s n r → r.wait = 5 → r.unit = none → copyKind r.cmd.op = k → k = .plain ∨ k = .strided ∨ k = .indexed →
    let ctx := (getSeq s n).ctx.getD 16
    let u := sourceUnit r.src false (cpEsz r.cmd) (sourcePos s n k r.cmd r.next)
    let y := fetchElement s n ctx k r
    (unitPieces r.src u.1 u.2.2.1).map (fun z => reachSpan s n ctx r r.src z 1) = [(.place p, cpEsz r.cmd)] → poisoned s p (cpEsz r.cmd) = false →
    y.2 = some x → destReach y.1 n ctx n x k (destPos y.1 n k r.cmd r.next) = some ([(.place d, cpEsz r.cmd)], b) →
    spaceOf d ≠ 1 →
    ∃ t, exec (.requestTranslate n) s = .next t ∧ readBytes t d (cpEsz r.cmd) = readBytes s p (cpEsz r.cmd) ∧ kept s t d (cpEsz r.cmd)) ∧
  (∀ (s : State) (n : Nat) (c : Command) (e : Nat),
    let st (w : Word) (i : Nat) : Int := sRead 32 (w.toNat / 2 ^ (32 * i) % 2 ^ 32)
    let pos (w : Word) : Int := (e % cpN0 c : Nat) * st w 0 + (e / cpN0 c : Nat) * st w 1
    let i := (cpOf c 5).toNat % 2 ^ 20 + 4 * e
    sourcePos s n .plain c e = e ∧ destPos s n .plain c e = e ∧
    (∀ k, k = .strided ∨ k = .targets → sourcePos s n k c e = pos (cpOf c 3) ∧ destPos s n k c e = pos (cpOf c 4)) ∧ destPos s n .filled c e = pos (cpOf c 4) ∧
    ((cpOf c 5).toNat % 4 = 0 → inWindow (getSeq s n) i 4 = true → poisoned s (placeP n i) 4 = false →
      let x := sRead 32 (readNat s (placeP n i) 4)
      (sourcePos s n .indexed c e, destPos s n .indexed c e) = if (cpOf c 5).getLsbD 20 then ((e : Int), x) else (x, (e : Int))) ∧
    ∀ (x : CopyEnd) (w : Nat) (p : Int), unitAt x false w p = (x.addr + p * w, 0)) ∧
  (∀ (s : State) (n d b : Nat) (r : CopyRun), next s n r → r.wait = 5 → r.unit = none → copyKind r.cmd.op = .filled →
    destReach s n ((getSeq s n).ctx.getD 16) n r .filled (destPos s n .filled r.cmd r.next) = some ([(.place d, cpEsz r.cmd)], b) →
    ∃ t, exec (.requestTranslate n) s = .next t ∧ readNat t d (cpEsz r.cmd) = (cpOf r.cmd 0).toNat % 2 ^ (8 * cpEsz r.cmd) ∧ kept s t d (cpEsz r.cmd)) ∧
  (∀ (s : State) (n : Nat) (r : CopyRun) (l : List Byte) (at_ : Nat → Nat), next s n r → r.wait = 5 → r.unit = some (0, l, false) → l.length = cpEsz r.cmd → copyKind r.cmd.op = .targets →
    let m := destList n .targets r.cmd
    let meets (k : Nat) (y : Reach) : Prop := ∃ b, destReach s n ((getSeq s n).ctx.getD 16) k r .targets (destPos s n .targets r.cmd r.next) = some ([(y, cpEsz r.cmd)], b)
    (∀ k ∈ m, meets k (.place (at_ k)) ∨ meets k .refused) → (∀ k ∈ m, ∀ j ∈ m, k ≠ j → at_ k + cpEsz r.cmd ≤ at_ j ∨ at_ j + cpEsz r.cmd ≤ at_ k) →
    ∃ t, exec (.requestTranslate n) s = .next t ∧ (∀ k ∈ m, meets k (.place (at_ k)) → readBytes t (at_ k) (cpEsz r.cmd) = l) ∧
      (∀ a, (∀ k ∈ m, meets k (.place (at_ k)) → a < at_ k ∨ at_ k + cpEsz r.cmd ≤ a) → memGet t.mem a = memGet s.mem a) ∧
      ends t n r.cmd.serial (fun x => x.next = r.next + 1 ∧ (r.status = 0 → x.status = if m.any (fun k => !runsTask s ((getSeq s n).ctx.getD 16) k) then 3 else x.status))) ∧
  (∀ (pb : Nat) (plain : List Byte) (last : Bool), 64 ≤ pb → pb ≤ 4160 → 0 < plain.length → plain.length ≤ 4096 → (plain.length < 4096 → last = true) →
    (∀ l, compressBlock pb plain false = some l → l.length = pb ∧ expandBlock pb last l = { out := plain, plen := plain.length }) ∧
    (compressBlock pb plain false = none ↔ pb - 4 < (compressGo (plain.length + 1) none plain).length ∧ pb - 4 < plain.length) ∧
    (∃ l, compressBlock pb plain true = some l ∧ l.length = pb ∧ leNat (l.take 4) = plain.length + 2 ^ 14 ∧ expandBlock pb last l = { out := [], plen := plain.length, psn := true }) ∧
    (∀ (c k o : Nat) (out r : List Byte) (b : Byte), out.length < c →
      (b.toNat < 0x80 → b.toNat < r.length → out.length + b.toNat < c →
        expandGo c (k + 1) o out (b :: r) = expandGo c k (o + 2 + b.toNat) (out ++ r.take (b.toNat + 1)) (r.drop (b.toNat + 1))) ∧
      (0x80 ≤ b.toNat → b.toNat < 0xC0 → out.length + (b.toNat - 0x7F) ≤ c →
        expandGo c (k + 1) o out (b :: r) = expandGo c k (o + 1) (out ++ List.replicate (b.toNat - 0x7F) 0) r) ∧
      (0xC0 ≤ b.toNat → out ≠ [] → out.length + (b.toNat - 0xBF) ≤ c →
        expandGo c (k + 1) o out (b :: r) = expandGo c k (o + 1) (out ++ List.replicate (b.toNat - 0xBF) (out.getLastD 0)) r))) ∧
  (∀ (s : State) (n : Nat) (r : CopyRun), next s n r → r.wait = 5 → copyKind r.cmd.op = .blocks →
    r.src.space = 1 ∨ r.src.space = 2 → r.dst.space = 1 ∨ r.dst.space = 2 → 0 ≤ r.src.lo → 0 ≤ r.dst.lo →
    let pb := cpxPB r.cmd
    let z : Nat := if cpxCompress r.cmd then 4096 else pb
    let a : Int := r.src.addr + (z * r.next : Nat)
    let d : Int := r.dst.addr + ((if cpxCompress r.cmd then pb else 4096) * r.next : Nat)
    let l := readBytes s (own n r.src a) z
    r.src.lo ≤ a → a + z ≤ r.src.hi → poisoned s (own n r.src a) z = false →
    ∀ m : List Byte, (if cpxCompress r.cmd then compressBlock pb l false = some m
        else expandBlock pb (decide (r.next + 1 = cpN0 r.cmd)) l = { out := m, plen := m.length }) → r.dst.lo ≤ d → d + m.length ≤ r.dst.hi →
    ∃ t, exec (.requestTranslate n) s = .next t ∧ readBytes t (own n r.dst d) m.length = m ∧ kept s t (own n r.dst d) m.length ∧
      ends t n r.cmd.serial (fun x => x.next = r.next + 1 ∧ x.written = r.written + m.length ∧ x.status = r.status)) ∧
  (∀ (s : State) (n : Nat) (r : CopyRun), next s n r → copyKind r.cmd.op = .rows →
    let j := at' (cpwSites r.cmd) (r.next % (cpwSites r.cmd).length) 0
    let i := r.next / (cpwSites r.cmd).length
    let w := placeW (siteOf n j) (2048 * (cpwPos r.cmd + i))
    let a := (cpOf r.cmd 0).toNat + 2048 * i
    let p := if cpSsp r.cmd = 1 then placeP n a else placeE n a
    let fr := if cpwReads r.cmd then w else p
    let dest := if cpwReads r.cmd then p else w
    (getSite s (siteOf n j)).retired = false → r.src.lo ≤ (a : Int) → (a : Int) + 2048 ≤ r.src.hi → poisoned s fr 2048 = false →
    ∃ t, exec (.requestTranslate n) s = .next t ∧ readBytes t dest 2048 = readBytes s fr 2048 ∧ kept s t dest 2048 ∧
      ends t n r.cmd.serial (fun x => x.next = r.next + 1 ∧ x.written = r.written + 1)) ∧
  (∀ (s : State) (n : Nat) (c : Command) (r : List Command), n < 512 → (getSeq s n).cpy.queue = c :: r → copyMayStart s n c = true → copyKind c.op = .query →
    anyBit (cpOf c 0) 22 42 = false → ((copyHeader c.op).rf = true → anyBit (cpOf c 7) 56 8 = false) → Memory.wf s.mem = true →
    let q := getSeq s n
    let table := (cpOf c 0).getLsbD 20
    let w := if table then 64 else 32
    let a := (cpOf c 0).toNat % 2 ^ 20 / w * w
    let cl := n % 128 / 16
    q.sr.winBase.toNat ≤ a → a + w ≤ q.sr.winBase.toNat + q.sr.winSize.toNat →
    ∃ t, exec (.copyStart n) s = .next t ∧ (getSeq t n).cpy.queue = r ∧ kept s t (placeP n a) w ∧
      (table = false → readBytes t (placeP n a) 32 = leBytes 4 q.cpy.completed.toNat ++ leBytes 4 q.cpy.failed.toNat ++ leBytes 8 q.cpy.refusals.toNat ++
        leBytes 8 q.cpy.elements.toNat ++ leBytes 8 q.sr.sched.toNat) ∧
      (table = true → ∀ i, i < 64 → (memGet t.mem (placeP n a + i)).toNat =
        8 + 4 * ((cl % 4 : Int) - (i / 8 % 4 : Nat)).natAbs + 6 * ((cl / 4 : Nat) - (i / 8 / 4 : Nat) : Int).natAbs) ∧
      (let zero := (cpOf c 0).getLsbD 21 && !table
       (getSeq t n).cpy.completed = (if zero then 0 else q.cpy.completed) ∧ (getSeq t n).cpy.failed = (if zero then 0 else q.cpy.failed) ∧
       (getSeq t n).cpy.refusals = (if zero then 0 else q.cpy.refusals) ∧ (getSeq t n).cpy.elements = (if zero then 0 else q.cpy.elements))) ∧
  (∀ (s : State) (n p : Nat) (r : NetRun), n < 512 → wokenNext s = none → (getSeq s n).cpy.running.find? (copyWaits s n) = none →
    (getSeq s n).net.running.find? (netWaits s n) = some r → r.wait ≠ 2 → r.wait ≠ 4 →
    reach s n ((getSeq s n).ctx.getD 16) r.fa 3 = .place p → spaceOf p ≠ 3 →
    ∃ t, exec (.requestTranslate n) s = .next t ∧ t.mem = s.mem ∧
      ∀ x ∈ (getSeq t n).net.running, x.cmd.serial = r.cmd.serial → x.phase = 1 ∧ x.place = p) ∧
  (∀ (s : State) (h : HeldRequest), h.seq < 512 → wokenNext s = some h →
    let n := h.seq
    let s1 : State := { s with woken := s.woken.erase h, dies := s.dies.map (fun p => (p.1, { p.2 with busy := false })) }
    let ctx := (getSeq s n).ctx.getD 16
    (∃ t, exec (.requestTranslate n) s = .next t) ∧
    (h.eng = 0 → (∀ x ∈ (getSeq s n).cpy.running, x.cmd.serial ≠ h.serial) → ∃ t, exec (.requestTranslate n) s = .next t ∧
      t.woken = s.woken.erase h ∧ t.seqs = s.seqs ∧ t.mem = s.mem) ∧
    (∀ r d b l, h.eng = 0 → (getSeq s n).cpy.running.find? (fun x => x.cmd.serial == h.serial) = some r → r.begun = true → copyKind r.cmd.op = .plain → r.convert = false →
      r.wait = 5 → r.unit = some (0, l, false) → l.length = cpEsz r.cmd → destReach s1 n ctx n r .plain r.next = some ([(.place d, cpEsz r.cmd)], b) → Memory.wf s.mem = true →
      ∃ t, exec (.requestTranslate n) s = .next t ∧ t.woken = s.woken.erase h ∧ readBytes t d (cpEsz r.cmd) = l ∧
        (∀ a, a < d ∨ d + cpEsz r.cmd ≤ a → memGet t.mem a = memGet s.mem a) ∧ (∀ m, m ≠ n → getSeq t m = getSeq s m) ∧ (getSeq t n).net = (getSeq s n).net ∧
        (∀ x ∈ (getSeq t n).cpy.running, x.cmd.serial = h.serial → x.next = r.next + 1 ∧ x.unit = none) ∧
        ∀ x ∈ (getSeq s n).cpy.running, x.cmd.serial ≠ h.serial → x ∈ (getSeq t n).cpy.running) ∧
    (∀ r p, h.eng = 1 → (getSeq s n).net.running.find? (fun x => x.cmd.serial == h.serial) = some r → r.ticket = none → r.wait = 5 → reach s1 n ctx r.fa 3 = .place p →
      spaceOf p ≠ 3 → poisoned s p (atomicWidth r.cmd.op) = false → Memory.wf s.mem = true →
      ∃ t, exec (.requestTranslate n) s = .next t ∧ t.woken = s.woken.erase h ∧ (∀ m, m ≠ n → getSeq t m = getSeq s m) ∧ (getSeq t n).cpy = (getSeq s n).cpy ∧
        (∀ a, a < p ∨ p + atomicWidth r.cmd.op ≤ a → memGet t.mem a = memGet s.mem a) ∧
        (∀ y, atomicNew r.cmd (atomicWidth r.cmd.op) (readNat s p (atomicWidth r.cmd.op)) = some y →
          readNat t p (atomicWidth r.cmd.op) = y % 2 ^ (8 * atomicWidth r.cmd.op)) ∧
        (∀ x ∈ (getSeq t n).net.running, x.cmd.serial = h.serial → x.phase = 2 ∧ x.value = extend true (atomicWidth r.cmd.op) (readNat s p (atomicWidth r.cmd.op))) ∧
        ∀ x ∈ (getSeq s n).net.running, x.cmd.serial ≠ h.serial → x ∈ (getSeq t n).net.running)) ∧
  (∀ (s : State) (die slice : Nat) (x : Nat × Nat × Nat × Nat), die < 4 → slice < 64 →
    s.refusals.find? (fun r => r.1 == die && r.2.1 == slice) = some x → ∃ t, exec (.retryPermit die slice) s = .next t ∧
      t.refusals = s.refusals.erase x ∧ t.mem = s.mem) ∧
  (∀ (s : State) (n : Nat) (r : CopyRun), n < 512 →
    (getSeq s n).cpy.running.find? (fun r => decide (r.total ≤ r.next) && decide (r.ready ≤ s.clock)) = some r →
    (∃ t, exec (.copyComplete n) s = .next t ∧ ∀ x ∈ (getSeq t n).cpy.running, x.cmd.serial ≠ r.cmd.serial) ∧
    (cpRec r.cmd = true → copyKind r.cmd.op ≠ .query → Memory.wf s.mem = true → (copyHeader r.cmd.op).rf = false →
      let p := placeP n ((cpOf r.cmd 6).toNat % 2 ^ 20 / 32 * 32)
      let least (k : Nat) : Nat := min k (2 ^ 32 - 1)
      ∃ t, exec (.copyComplete n) s = .next t ∧ kept s t p 32 ∧ readNat t p 1 = r.status.toNat ∧ readNat t (p + 1) 1 = r.flags.toNat ∧ readNat t (p + 2) 1 = r.fp.toNat ∧
        readNat t (p + 3) 1 = r.xerr.toNat ∧ readNat t (p + 4) 4 = least r.written ∧ readNat t (p + 8) 4 = least r.supp ∧ readNat t (p + 12) 4 = least r.poison ∧
        readNat t (p + 16) 4 = r.xoff % 2 ^ 32 ∧ readNat t (p + 20) 4 = least r.retry ∧ readNat t (p + 24) 8 = (getSeq s n).sr.sched.toNat) ∧
    (cpRec r.cmd = false → (copyHeader r.cmd.op).rf = false → (copyHeader r.cmd.op).pe = true → r.status = 0 →
      (copyHeader r.cmd.op).cf < (getSeq s n).fInc.length →
      ∃ t, exec (.copyComplete n) s = .next t ∧ t.mem = s.mem ∧
        at' (getSeq t n).fInc (copyHeader r.cmd.op).cf 0 = at' (getSeq s n).fInc (copyHeader r.cmd.op).cf 0 + 1))

/-- The steps of the network engine (13 R265 to R268, R271 to R273, R275 to R278, R281 to R283). A command starts: LSCHED's table waits for its switch, GDEF's group is defined, GLD takes the
definition in force, FPOST's post leaves, an atomic is mapped, PGMAP writes its entry, PGDONE lets the requests on its page go on or fail, each refused with the manual's status
and then changing nothing of its object (LschedEffect to PgdoneEffect say each whole). A GLD lands in the lanes its mode writes, and every lane of VD reads as unspecified until the acquire (log entry 51). The order of the checks of LSCHED and GDEF is deduced (log entry 52); that GLD judges its staging before its definition (log entry 125), an atomic its alignment before its range (138), and PGDONE its pager first (139), and the error reply of a die in reset to PGMAP and PGDONE (107), are the model's choices. An atomic that no earlier ticket holds is performed at its place, where
undamaged, with the old value as its result; the oldest post that may arrive does, and increments the flag that it reaches, or none, with status 2; a command completes and posts its flag. -/
def Obligations.NetworkEngineSteps : Prop :=
  (∀ (s : State) (n : Nat) (c : Command), n < 512 → netHead (getSeq s n) = some c → netMayStart s.clock (getSeq s n) c = true →
    ∃ t, exec (.networkCommandStart n) s = .next t ∧ (getSeq t n).net.lastStart = s.clock ∧
      (getSeq t n).net.queue = (getSeq s n).net.queue.eraseP (fun c => !isLsend c.op)) ∧
  (∀ (s : State) (n : Nat) (c : Command), n < 512 → netHead (getSeq s n) = some c → netMayStart s.clock (getSeq s n) c = true →
    (npRec c = true → ownInside (getSeq s n) (npRaddr c) 16 = true) →
    (∀ cf p, c.op = .lsched cf p → LschedEffect s n c) ∧
    (∀ cf p, c.op = .gdef cf p → GdefEffect s n c) ∧
    (∀ cf p g, c.op = .gld cf p g → GldEffect s n c g) ∧
    (∀ cf p o z, c.op = .fpost cf p o z → FpostEffect s n c) ∧
    (∀ cf p o v z w, c.op = .namo cf p o v z w → NamoEffect s n c) ∧
    (∀ cf p o v f w, c.op = .ncas cf p o v f w → NamoEffect s n c) ∧
    (∀ cf p, c.op = .pgmap cf p → PgmapEffect s n c) ∧
    (∀ cf p, c.op = .pgdone cf p → PgdoneEffect s n c)) ∧
  (∀ (s : State) (n : Nat) (r : NetRun) (g : Group), n < 512 → (getSeq s n).net.running.find? (netMayComplete s (getSeq s n)) = some r → r.group = some g →
    let s0 : State := { modSeq s n (fun q => { q with net := { q.net with running := q.net.running.filter (fun x => x.cmd.serial != r.cmd.serial) } }) with free := s.free + 1 }
    let y := gldResult g r.cmd (wholeMembers s0 n r g)
    let d := gldVd r.cmd
    d < 48 → (getSeq s n).v.length = 48 → ∃ t, exec (.networkCommandComplete n) s = .next t ∧
      (∀ j, j < 256 → at' (at' (getSeq t n).v d []) j 0 = if y.1.getLsbD j then at' y.2 j 0 else at' (at' (getSeq s n).v d []) j 0) ∧
      (∀ i, i ≠ d → at' (getSeq t n).v i [] = at' (getSeq s n).v i []) ∧
      ∃ o ∈ (getSeq t n).gldOpen, o.vd = d ∧ o.lanes = allLanes ∧ o.flag = (if (netHeader r.cmd.op).2 then (netHeader r.cmd.op).1 else 32)) ∧
  (∀ (g : Group) (c : Command) (u v : List Leaf) (j x z : Nat) (p q : Word), at' u j .absent = .code x p → at' v j .absent = .code z q →
    (g.mode = 1 → j < 256 → (gldResult g c [u, v]).1 = allLanes ∧ at' (gldResult g c [u]).2 j 0 = BitVec.ofNat 32 x ∧
      at' (gldResult g c [u, v]).2 j 0 = BitVec.ofNat 32 (if g.op = 0 then addCode 0 1 x z else minmaxCode 0 (g.op == 1) x z).1) ∧
    (g.mode = 2 → g.fmt = 6 ∨ g.fmt = 7 → j < 256 → (g.op = 0 → at' (gldResult g c [u, v]).2 j 0 = BitVec.ofNat 32 (x + z)) ∧
      (at' (gldResult g c [u, v, []]).2 j 0 = if g.fmt = 6 then 0x80000000 else 0xFFFFFFFF))) ∧
  (∀ (s : State) (n : Nat) (r : NetRun), n < 512 →
    (getSeq s n).net.running.find? (fun r => r.phase == 1 && decide (r.ready ≤ s.clock) && !ticketWaits s r) = some r →
    (∃ t, exec (.fabricAtomic n) s = .next t) ∧
    (poisoned s r.place (atomicWidth r.cmd.op) = false → Memory.wf s.mem = true →
    ∃ t, exec (.fabricAtomic n) s = .next t ∧
      (∀ a, a < r.place ∨ r.place + atomicWidth r.cmd.op ≤ a → memGet t.mem a = memGet s.mem a) ∧
      (∀ y, atomicNew r.cmd (atomicWidth r.cmd.op) (readNat s r.place (atomicWidth r.cmd.op)) = some y →
        readNat t r.place (atomicWidth r.cmd.op) = y % 2 ^ (8 * atomicWidth r.cmd.op)) ∧
      (∀ cf p o z f w, r.cmd.op = .ncas cf p o z f w → let m := 2 ^ (8 * atomicWidth r.cmd.op)
        (readNat s r.place (atomicWidth r.cmd.op) = (npOf r.cmd 1).toNat % m → readNat t r.place (atomicWidth r.cmd.op) = (npOf r.cmd 2).toNat % m) ∧
        (readNat s r.place (atomicWidth r.cmd.op) ≠ (npOf r.cmd 1).toNat % m → t.mem = s.mem)) ∧
      (∀ x ∈ (getSeq t n).net.running, x.cmd.serial = r.cmd.serial → x.phase = 2 ∧
        x.value = extend true (atomicWidth r.cmd.op) (readNat s r.place (atomicWidth r.cmd.op))))) ∧
  (∀ (s : State) (n : Nat) (p : FlagPost), n < 512 → s.posts.find? (postMayArrive s n) = some p →
    (∃ t, exec (.flagPostArrival n) s = .next t) ∧
    (∀ m k, faClass p.fabric = 5 → reach s p.seq p.ctx p.fabric 2 = .flag m k → k < (getSeq s m).fInc.length →
      ∃ t, exec (.flagPostArrival n) s = .next t ∧ t.posts = s.posts.erase p ∧
        at' (getSeq t m).fInc k 0 = at' (getSeq s m).fInc k 0 + p.inc) ∧
    (∀ k, p.netOf = some k → p.copyOf = none → faClass p.fabric ≠ 5 → faPackage p.fabric = Config.ownPackage →
      ∃ t, exec (.flagPostArrival n) s = .next t ∧ t.posts = s.posts.erase p ∧ (∀ m, (getSeq t m).fInc = (getSeq s m).fInc) ∧
        ∀ x ∈ (getSeq t p.seq).net.running, x.cmd.serial = k → x.phase = 2 ∧ x.status = 2)) ∧
  (∀ (s : State) (n : Nat) (r : NetRun), n < 512 → (getSeq s n).net.running.find? (netMayComplete s (getSeq s n)) = some r →
    ∃ t, exec (.networkCommandComplete n) s = .next t ∧ (∀ x ∈ (getSeq t n).net.running, x.cmd.serial ≠ r.cmd.serial) ∧
      ((netHeader r.cmd.op).2 = true → (netHeader r.cmd.op).1 < (getSeq s n).fInc.length →
        at' (getSeq t n).fInc (netHeader r.cmd.op).1 0 = at' (getSeq s n).fInc (netHeader r.cmd.op).1 0 + 1))

/-! ## Launch queues and tasks -/

/-- The host's writes to launch queues and to FSTAT (20 R344, R349, R353, R370), and a register write: all complete; a queue is enabled only
with LOG2N 1 to 16, an aligned base and a context that exists; LOCK commits the offered features once (the model offers all twelve, log entry 9, so FACCEPT reads back their bits of what was
written); once the front core runs (20 R372; log entry 71) a poll of a running queue whose next packet is valid and readable finds its opcode, and a failure of a packet that it
has consumed puts it into the error state with that packet's record: that such a failure waits for the next slot in which the queue runs, for every cause, is deduced (log entry 56). -/
def Obligations.QueueRegisterSteps : Prop := ∀ (s : State) (q : Nat), q < 64 →
  (∀ v, ∃ t, exec (.notify q v) s = .next t ∧ (getQueue t q).note = BitVec.ofNat 32 v ∧ (getQueue t q).state = (getQueue s q).state) ∧
  (qEn (getQueue s q) = false → mayEnable s (getQueue s q) = true → s.mgmt.bootWaits = false →
    ∃ t, exec (.queueEnable q) s = .next t ∧ qEn (getQueue t q) = true ∧ (getQueue t q).enabling = true) ∧
  (mayEnable s (getQueue s q) = true ↔ 1 ≤ (getQueue s q).cfg.toNat % 32 ∧ (getQueue s q).cfg.toNat % 32 ≤ 16 ∧
    (getQueue s q).base.toNat % (64 * 2 ^ ((getQueue s q).cfg.toNat % 32)) = 0 ∧ getCtx s ((getQueue s q).cfg.toNat / 2 ^ 7 % 16) ≠ none) ∧
  (mayEnable s (getQueue s q) = false → exec (.queueEnable q) s = .next s) ∧
  (qEn (getQueue s q) = true → ∃ t, exec (.queueDisable q) s = .next t ∧ qEn (getQueue t q) = false ∧ (getQueue t q).disabling = true) ∧
  ((getQueue s q).state = 2 → ∀ k, ∃ t, exec (.qctlReset q k) s = .next t ∧ (getQueue t q).resetting = some (decide (k % 2 = 1))) ∧
  (s.lock = false → ∃ t, exec .lock s = .next t ∧ t.lock = true ∧ t.faccept = s.faccept &&& Config.foffer) ∧
  (s.lock = true → exec .lock s = .next s) ∧
  (∀ bar off v, ∃ t, exec (.registerWrite bar off v) s = .next t) ∧
  (∀ v, v < 2 ^ 64 → s.lock = false → s.mgmt.bootWaits = false → ∃ t, exec (.registerWrite 0 0x110 v) s = .next t ∧ hostRead t 0 0x110 = BitVec.ofNat 64 v &&& 0xFFF#64) ∧
  (qEn (getQueue s q) = true ∨ (getQueue s q).disabling = true → (getQueue s q).consuming = none → frontRuns s = true → ∃ t, exec (.queuePoll q) s = .next t) ∧
  (∀ h p, qEn (getQueue s q) = true → (getQueue s q).disabling = false → (getQueue s q).enabling = false → (getQueue s q).state = 1 →
    (getQueue s q).lateFails = [] → (getQueue s q).consuming = none → frontRuns s = true →
    let s1 := setQueue s q { getQueue s q with lastPoll := s.clock + 1 }
    let c := qCtx (getQueue s q)
    let a := slotAddr (getQueue s q)
    coreRead s1 q c a 2 = .bytes h → leNat h / 256 % 2 = 1 → packetOf (coreNote s1 q c a 2) q = .bytes p → 1 ≤ (p.headD 0).toNat → (p.headD 0).toNat ≤ 3 →
    ∃ t, exec (.queuePoll q) s = .next t ∧ (getQueue t q).polled = some (p.headD 0).toNat ∧ t.mem = s.mem) ∧
  (∀ b r, qEn (getQueue s q) = true → (getQueue s q).disabling = false → (getQueue s q).enabling = false → (getQueue s q).state = 1 →
    (getQueue s q).lateFails = b :: r → (getQueue s q).consuming = none → frontRuns s = true →
    ∃ t, exec (.queuePoll q) s = .next t ∧ (getQueue t q).state = 2 ∧ (getQueue t q).qerr = queueRecord q b.1 b.2.1 b.2.2 (timeNow s))

/-- A packet just polled (20 R350 to R354; 19 R345): launch, barrier and signal-set packets are checked and acted on. A launch that fails a check puts its queue into the
error state with the record of its first failure; one that passes every check and whose dependency is met is consumed, and adds one launch. A failure at or past the range table's byte waits
while the table cannot be read. A barrier reads each DEP that has not yet read 0; with all met it is consumed, as a signal set is, and its signal changed; one that must wait keeps those that were met, also through an error of its queue. Consumption clears V, then writes the read index, in that order; where V's write is held the index stands
until it has landed. A launch whose tiles have all completed is reported. -/
def Obligations.PacketSteps : Prop := ∀ (s : State) (q : Nat), q < 64 →
  let s1 := setQueue s q { getQueue s q with polled := none }
  let c := qCtx (getQueue s q)
  let x := getQueue s q
  ((getQueue s q).polled = some 1 → ∃ t, exec (.launch q) s = .next t) ∧
  ((getQueue s q).polled = some 2 → ∃ t, exec (.barrier q) s = .next t) ∧
  ((getQueue s q).polled = some 3 → ∃ t, exec (.signalSet q) s = .next t) ∧
  (∀ p, packetOf s q = .bytes p →
    (let u := noteReads s1 q c (tableReads p)
     let v := if pk p 32 8 = 0 then u else coreNote u q c (pk p 32 8) 8
     (getQueue s q).polled = some 1 →
     (∀ f r, launchFailures s1 c p (checkTable s1 q c p).1 = f :: r →
       ∃ t, exec (.launch q) s = .next t ∧ t.launches = s.launches ∧ ((checkTable s1 q c p).2 = false → 16 ≤ f.1 → t = u) ∧
         ((checkTable s1 q c p).2 = true ∨ f.1 < 16 → (getQueue t q).state = 2 ∧ (getQueue t q).qerr = queueRecord q f.2 f.1 (getQueue s q).index (timeNow s))) ∧
     (∀ y, launchFailures s1 c p (checkTable s1 q c p).1 = [] → (checkTable s1 q c p).2 = true → readDep u q c (pk p 32 8) = .ready → getCtx s c = some y →
       ∃ l, exec (.launch q) s = .next (consume { v with serial := v.serial + 1 } q (.launch l)) ∧ l.ctx = c ∧ l.queue = q ∧ l.index = x.index ∧ l.handle = pk p 2 2 ∧
         l.sig = pk p 24 8 ∧ l.nx = pk p 8 2 ∧ l.ny = pk p 10 2 ∧ l.nz = pk p 12 2 ∧ l.running = 0)) ∧
    (let l := ([8, 16, 24, 32].filter (fun i => pk p i 8 != 0 && !(getQueue s q).depOk.contains (pk p i 8))).map (fun i => pk p i 8)
     let u (met : List Nat) : State := modQueue (l.foldl (fun v d => coreNote v q c d 8) s1) q (fun y => { y with depOk := y.depOk ++ met })
     (getQueue s q).polled = some 2 → barrierFailures p = [] →
     ((∀ d ∈ l, readDep s1 q c d = .ready) →
       exec (.barrier q) s = .next (consume (u l) q (if pk p 40 8 = 0 then .none else .signal (pk p 40 8) 0 { queue := q, byte := 40, index := x.index, dec := true }))) ∧
     ((∀ d ∈ l, readDep s1 q c d = .ready ∨ readDep s1 q c d = .notYet) → (∃ d ∈ l, readDep s1 q c d = .notYet) →
       exec (.barrier q) s = .next (u (l.filter (fun d => readDep s1 q c d == .ready)))) ∧
     (∀ a d b e, l = a ++ d :: b → readDep s1 q c d = .bad e → ∃ t, exec (.barrier q) s = .next t ∧ (getQueue t q).state = 2 ∧ t.launches = s.launches)) ∧
    ((getQueue s q).polled = some 3 → signalSetFailures p = [] →
      exec (.signalSet q) s = .next (consume s1 q (.signal (pk p 8 8) (pk p 16 8) { queue := q, byte := 8, index := x.index, dec := false })))) ∧
  (∀ act d e, reach s hub c (slotAddr x) 1 = .place d →
    reach s hub c (slotAddr x) 2 = .place d → poisoned s d 2 = false →
    let h := readNat s d 2
    let w := writeBytes (countReach (setQueue s q { x with polled := none }) hub c (slotAddr x) (.place d)) d (leBytes 2 (h - (if h / 256 % 2 = 1 then 256 else 0)))
    let i := (x.index + 1) % 2 ^ 64
    let w1 := setQueue w q { x with index := i, polled := none, depOk := [], consuming := none }
    reach w1 hub c x.ridx.toNat 2 = .place e →
    ∃ t, consume s q act = actOn t c act ∧ (getQueue t q).index = i ∧ (getQueue t q).polled = none ∧ (getQueue t q).consuming = none ∧
      t.mem = (writeBytes w e (leBytes 8 i)).mem ∧ t.launches = s.launches) ∧
  (∀ act p, coreRead s q c (slotAddr x) 2 = .bytes (leBytes 2 0x101) → reach s hub c (slotAddr x) 2 = .migrates p → ∃ k, (getQueue (consume s q act) q).consuming = some k ∧
    k.act = act ∧ k.indexed = false ∧ (getQueue (consume s q act) q).index = x.index) ∧
  (∀ l, actOn s c (.launch l) = { s with launches := s.launches ++ [l] }) ∧
  (∀ fa v g d, signalClass fa = true → reach s hub c fa 2 = .place d → Memory.wf s.mem = true → g.dec = false →
    readNat (actOn s c (.signal fa v g)) d 8 = v % 2 ^ 64) ∧
  (∀ fa v g d, signalClass fa = true → reach s hub c fa 3 = .place d → poisoned s d 8 = false → Memory.wf s.mem = true → g.dec = true →
    readNat (actOn s c (.signal fa v g)) d 8 = (readNat s d 8 + (2 ^ 64 - 1)) % 2 ^ 64) ∧
  (∀ l, s.launches.find? (fun y => y.id == l.id) = some l → reportable s l = true →
    (l.sig = 0 → ∃ t, exec (.signalDecrement l.id) s = .next t ∧ t.launches = s.launches.filter (fun y => y.id != l.id) ∧ t.mem = s.mem) ∧
    (l.sig ≠ 0 → exec (.signalDecrement l.id) s = .next (changeSignal { s with launches := s.launches.filter (fun y => y.id != l.id) } l.ctx l.sig []
      { queue := l.queue, byte := 24, index := l.index, dec := true })))

/-- Tasks (05 R104, R119, R120; 03 R84; 10 R210, R219; 16 R403; 19 R345; 20 R358): the die core reads the launch's range table and a tile is placed with those registers, its task ready to start
at the clock's end (log entry 67); a table that breaks R210 ends the launch, and its queue reports cause 0x06 at the next slot that it considers (deduced, log entry 56); a segment whose bundles can be read lands, and one whose page waits at a pager joins
that wait (log entry 83); a watchdog expires with cause 0x04; an ended task whose engines have drained frees its sequencer. -/
def Obligations.TaskSteps : Prop :=
  (∀ (s : State) (d j n : Nat) (l : Launch) (i : Image) (r : List (BitVec 128)), d < 4 → tileDue s d = some (j, n, l) →
    (getCtx s l.ctx).bind (fun x => x.images.find? (fun i => i.handle == l.handle)) = some i → launchRanges s d l = .ok r →
    (tableRefused s r = false →
      ∃ t, exec (.tilePlacement d) s = .next t ∧ (getSeq t n).status = .placed ∧ (getSeq t n).pc = i.entry ∧ (getSeq t n).ctx = some l.ctx ∧
        (getSeq t n).launch = some l.id ∧ (getSeq t n).sr.tile = tileWord l j ∧ (getSeq t n).sr.sched = 0 ∧ (getSeq t n).f = i.flags ∧
        (getSeq t n).ranges = r ++ List.replicate (8 - r.length) 0) ∧
    (tableRefused s r = true → ∃ t, exec (.tilePlacement d) s = .next t ∧ t.launches = s.launches.filter (fun x => x.id != l.id) ∧
      (getQueue t l.queue).lateFails = (getQueue s l.queue).lateFails ++ [(0x06, 16, l.index)])) ∧
  (∀ (s : State) (n : Nat) (f : SegFetch), n < 512 → (getSeq s n).segFetch.find? (fun f => f.left == 0) = some f → f.seg < 64 →
    (∀ t bad, fetchSegment s n f = .ok (t, bad) →
      ∃ t, exec (.segmentLanding n) s = .next t ∧ (getSeq t n).segFetch = (getSeq s n).segFetch.erase f ∧ (getSeq t n).segRes.getLsbD f.seg = true ∧
        (getSeq t n).sr.segErr = ((getSeq s n).sr.segErr || bad)) ∧
    (∀ p c x r, fetchSegment s n f = .error (some p) → (getSeq s n).ctx = some c → getCtx s c = some x → regionOf x p = some r →
      r.waits.any (fun w => w.page == p) = true → r.waits.contains (segRequest n f p) = false → ∃ t y k, exec (.segmentLanding n) s = .next t ∧ t.seqs = s.seqs ∧
        getCtx t c = some y ∧ regionOf y p = some k ∧ k.waits = r.waits ++ [segRequest n f p])) ∧
  (∀ (s : State) (n : Nat), n < 512 → (getSeq s n).status = .running → 2 ^ (getSeq s n).sr.wdog.toNat ≤ (getSeq s n).stallCount →
    ∃ t, exec (.watchdogExpiry n) s = .next t ∧ (getSeq t n).status = .stopped ∧ t.mem = s.mem ∧
      t.fatals = s.fatals ++ [fatalRecord (getSeq s n) n 0x04 (getSeq s n).stallSlot (getSeq s n).pc (getSeq s n).stallDetail]) ∧
  (∀ (s : State) (n : Nat), n < 512 → (getSeq s n).status = .ending → enginesIdle s n = true →
    ∃ t, exec (.taskCompletion n) s = .next t ∧ (getSeq t n).status = .idle ∧ (getSeq t n).launch = none ∧ t.mem = s.mem)

/-! ## Contexts -/

/-- The context mailbox (20 R360 to R368; 10 R218): a command that the mailbox holds is carried out and CMSTAT answers it. On a committed FACCEPT, with arguments in range
and nothing in conflict: CREATE gives the lowest free context; FREE with FORCE = 1 on settled engines ends the context; RESERVE adds its run of sequencers, and takes it away; ALLOC
adds the grant, and takes it away; TAREA sets the die's table area; INSTALL writes the entry; IMAGE registers the image it reads, and takes one away; PAGER adds the region. Before the
commit every one of these commands answers 0x01, FREE and IMAGE among them, and changes no context. That an INSTALL whose old entry has translated atomics still to perform
answers only once they have performed is the model's choice of how to wait (log entry 54). -/
def Obligations.MailboxSteps : Prop :=
  (∀ (s : State) (c : Nat) (x : Ctx), getCtx s c = some x → x.freeing = true → enginesSettled s c = true →
    ∃ t, exec (.free c) s = .next t ∧ t.ctxs = tdel s.ctxs c ∧ t.cmstat = 0) ∧
  (∀ (s : State) (c : Nat) (l : List (Nat × Nat)), s.cmInstall = some (c, l) → owes s l = false →
    ∃ t, exec (.install c) s = .next t ∧ t.cmInstall = none ∧ t.cmstat = 0 ∧ t.mem = s.mem) ∧
  ∀ (s : State) (w : Word) (c : Nat), c < 16 → s.cmcmd = some w → s.cmInstall = none → (getCtx s c).all (fun x => !x.freeing) = true →
  let s1 : State := { s with cmcmd := none }
  let done (i : Instr) : Prop := ∃ t, exec i s = .next t ∧ t.cmcmd = none ∧ (s.lock = false → t.cmstat = 0x100 ∧ t.ctxs = s.ctxs)
  let early (i : Instr) : Prop := ∃ t, exec i s = .next t ∧ (s.lock = false → t.cmcmd = none ∧ t.cmstat = 0x100 ∧ t.ctxs = s.ctxs)
  let may (k : Nat) (x : Ctx) : Prop := isCommand k c w = true ∧ s.lock = true ∧ getCtx s c = some x
  let gives (i : Instr) (P : State → Ctx → Prop) : Prop := ∃ t y, exec i s = .next t ∧ t.cmstat = 0 ∧ getCtx t c = some y ∧ P t y
  let first := fieldN s.cmarg0 0 9
  let count := fieldN s.cmarg0 9 10
  let run (n : Nat) : Prop := first ≤ n ∧ n < first + count
  let g : Grant := { cls := fieldN s.cmarg0 0 2, a0 := s.cmarg0 &&& ~~~((1 : Word) <<< 63), a1 := s.cmarg1, a2 := s.cmarg2 }
  let area : TableArea := { die := fieldN s.cmarg0 0 2, site := fieldN s.cmarg0 2 10, first := fieldN s.cmarg0 12 17, count := fieldN s.cmarg0 29 17 }
  (fieldN w 0 8 = 1 → done .create) ∧
  (isCommand 2 c w = true → early (.free c)) ∧
  (isCommand 3 c w = true → anyBit s.cmarg0 19 1 = false → done (.reserve c)) ∧
  (isCommand 3 c w = true → anyBit s.cmarg0 19 1 = true → done (.reserveRelease c)) ∧
  (isCommand 4 c w = true → anyBit s.cmarg0 63 1 = false → done (.alloc c)) ∧
  (isCommand 4 c w = true → anyBit s.cmarg0 63 1 = true → done (.allocRelease c)) ∧
  (isCommand 5 c w = true → done (.tarea c)) ∧ (isCommand 6 c w = true → done (.install c)) ∧
  (isCommand 7 c w = true → anyBit s.cmarg1 16 1 = false → early (.image c)) ∧
  (isCommand 7 c w = true → anyBit s.cmarg1 16 1 = true → done (.imageUnreg c)) ∧
  (isCommand 8 c w = true → done (.pager c)) ∧
  (fieldN w 0 8 = 1 → s.lock = true → s.cmarg0.toNat % 8 = 0 → s.cmarg0.toNat < 2 ^ 56 → signalClass s.cmarg0.toNat = true → anyBit s.cmarg1 1 63 = false →
    s.cmarg2 = 0 → ∀ k, freeContext s = some k → ∃ t x, exec .create s = .next t ∧ getCtx t k = some x ∧ x.cstat = s.cmarg0.toNat ∧ x.grants = [] ∧
      x.seqs = [] ∧ x.esc = anyBit s.cmarg1 0 1 ∧ t.cmstat = BitVec.ofNat 64 (2 ^ 32 * k)) ∧
  (∀ x, may 2 x → s.cmarg0 = 1 → s.cmarg1 = 0 → s.cmarg2 = 0 → enginesSettled (haltSeqs s1 c) c = true →
    ∃ t, exec (.free c) s = .next t ∧ t.ctxs = tdel s.ctxs c ∧ t.cmstat = 0 ∧ t.cmcmd = none) ∧
  (∀ x, may 3 x → anyBit s.cmarg0 19 45 = false → s.cmarg1 = 0 → s.cmarg2 = 0 → 0 < count → first + count ≤ 512 →
    gives (.reserve c) (fun _ y => ∀ n, n ∈ y.seqs ↔ run n ∨ n ∈ x.seqs)) ∧
  (∀ x, may 3 x → anyBit s.cmarg0 19 1 = true → anyBit s.cmarg0 20 44 = false → s.cmarg1 = 0 → s.cmarg2 = 0 → 0 < count → first + count ≤ 512 →
    (∀ n, run n → runsTask s c n = false) → gives (.reserveRelease c) (fun _ y => ∀ n, n ∈ y.seqs ↔ n ∈ x.seqs ∧ ¬run n)) ∧
  (∀ x, may 4 x → anyBit s.cmarg0 63 1 = false → (g.cls = 2 → anyBit s.faccept 5 1 = true) → grantBad s g g.a0 = false → grantConflicts s c g = false →
    gives (.alloc c) (fun t y => y.grants = x.grants ++ [g] ∧ t.mem = s.mem)) ∧
  (∀ x, may 4 x → anyBit s.cmarg0 63 1 = true → (g.cls = 2 → anyBit s.faccept 5 1 = true) → grantBad s g g.a0 = false → g ∈ x.grants → grantMapped s x g = false →
    gives (.allocRelease c) (fun t y => y.grants = x.grants.erase g ∧ t.mem = (clearGrant s g).mem)) ∧
  (∀ x, may 5 x → anyBit s.cmarg0 46 18 = false → s.cmarg1 = 0 → s.cmarg2 = 0 → 0 < area.count → area.count ≤ 65536 →
    (∀ b ∈ x.areas, b.die = area.die → b.installed = false) → areaConflicts s c area = false →
    gives (.tarea c) (fun _ y => y.areas = x.areas.filter (fun b => b.die != area.die) ++ [area])) ∧
  (∀ x p, may 6 x → anyBit s.cmarg0 56 8 = false → anyBit s.cmarg2 2 62 = false → faClass (fieldN s.cmarg0 0 56) ≤ 2 → fieldN s.cmarg0 0 56 % 65536 = 0 →
    linkFailed s hub (fieldN s.cmarg0 0 56) = false → dieStopped s (homeDie (fieldN s.cmarg0 0 56)) = false →
    entryOk s x (fieldN s.cmarg0 0 56) (fieldN s.cmarg2 0 2) s.cmarg1 = true → installPlace s x (fieldN s.cmarg0 0 56) (fieldN s.cmarg2 0 2) = .ok p →
    owedOn s c (fieldN s.cmarg0 0 56) (2 ^ levelShift (fieldN s.cmarg2 0 2)) = [] → Memory.wf s.mem = true →
    gives (.install c) (fun t _ => readNat t p 8 = s.cmarg1.toNat)) ∧
  (∀ x i, may 7 x → anyBit s.cmarg1 16 48 = false → s.cmarg2 = 0 → s.cmarg0.toNat < 2 ^ 56 → s.cmarg0.toNat % 64 = 0 →
    x.images.any (fun i => i.handle == fieldN s.cmarg1 0 16) = false → imageAt s1 c (fieldN s.cmarg1 0 16) s.cmarg0.toNat = .ok i →
    gives (.image c) (fun t y => y.images = x.images ++ [i] ∧ t.cmcmd = none)) ∧
  (∀ x, may 7 x → anyBit s.cmarg1 16 1 = true → anyBit s.cmarg1 17 47 = false → s.cmarg2 = 0 → x.images.any (fun i => i.handle == fieldN s.cmarg1 0 16) = true →
    (s.launches ++ consumedLaunches s).any (fun l => l.ctx == c && l.handle == fieldN s.cmarg1 0 16) = false →
    gives (.imageUnreg c) (fun _ y => y.images = x.images.filter (fun i => i.handle != fieldN s.cmarg1 0 16))) ∧
  (∀ x r k, may 8 x → registerPager s1 c x = .ok (setCtx s1 c { x with pagers := x.pagers ++ [r] }, k) →
    ∃ t y, exec (.pager c) s = .next t ∧ getCtx t c = some y ∧ y.pagers = x.pagers ++ [r] ∧ t.cmstat = BitVec.ofNat 64 (2 ^ 32 * k))

/-- Pre-emption at an agreed cut (16 R304 to R312, R403; 20 R357): the agreement begins, a sequencer reports its cut number and holds, one whose task is placed is armed for its start, N is the largest
report, N releases it, the context is saved, and it resumes. What is kept (R309, R310): the whole of each sequencer with a task, and, in the die's save area, its registers, its flags, its
pending writes and its memories at their offsets (SavedImage), where the save leaves them and the resume reads back P, E and I; the resumed sequencer has all of it again, at its program counter, but an empty accumulator and no rows (R312). Its registers come back from the kept record, which equals the image where no word of that is damaged (log entry 37); a generator's base is stored as 4 bytes at 0x500 + 64i (log entry 23), and its stream counters are free (log entry 66). -/
def Obligations.CutSteps : Prop := ∀ (s : State) (c : Nat) (x : Ctx), c < 16 → getCtx s c = some x →
  (preemptDue s c x = true → ∃ t y, exec (.preempt c) s = .next t ∧ getCtx t c = some y ∧ y.cut = .reporting 0 ∧ t.seqs = s.seqs ∧ t.mem = s.mem) ∧
  (quantumDue s c x = true → ∃ t y, exec (.quantumExpiry c) s = .next t ∧ getCtx t c = some y ∧ y.cut = .reporting 0 ∧ t.seqs = s.seqs) ∧
  (∀ n r, n < 512 → x.cut = .reporting r → x.halted = false → (getSeq s n).ctx = some c → (agreeing s c x).any (fun p => p.1 == n) = true →
    (getSeq s n).status ≠ .placed → (getSeq s n).hold = none → ∃ t y, exec (.arm n) s = .next t ∧ (getSeq t n).hold = some (getSeq s n).sr.cutnext ∧
      (getSeq t n).reported = some (getSeq s n).sr.cutnext ∧ getCtx t c = some y ∧
      y.cut = .reporting (if r.toNat < (getSeq s n).sr.cutnext.toNat then (getSeq s n).sr.cutnext else r)) ∧
  (∀ n, n < 512 → x.cut ≠ .none → x.halted = false → (getSeq s n).ctx = some c → (armable s c x).any (fun p => p.1 == n) = true →
    (getSeq s n).status = .placed → (getSeq s n).hold = none → ∃ t, exec (.arm n) s = .next t ∧ (getSeq t n).hold = some 0 ∧ (getSeq t n).status = .placed) ∧
  (∀ r, x.cut = .reporting r → targetDue s c x = true → ∃ t y, exec (.target c) s = .next t ∧ getCtx t c = some y ∧ y.cut = .released r) ∧
  (∀ n r, n < 512 → x.cut = .released r → x.halted = false → (getSeq s n).ctx = some c → (getSeq s n).reported.isSome = true →
    (agreeing s c x).any (fun p => p.1 == n) = true → ∃ t, exec (.release n) s = .next t ∧ (getSeq t n).hold = some r ∧
      ((getSeq s n).status = .held → (getSeq s n).sr.cutnext.toNat ≤ r.toNat → (getSeq t n).status = .running)) ∧
  (savedDue s c x = true → ∃ t, exec (.contextSaved c) s = .next t) ∧
  (savedDue s c x = true → pagersRun s c x = [] → ∃ t y, exec (.contextSaved c) s = .next t ∧ getCtx t c = some y ∧ y.life = 2 ∧ y.cut = .none ∧
    (∀ n, (getSeq s n).ctx = some c → ((getSeq s n).status ≠ .idle → ⟨n, getSeq s n⟩ ∈ y.saved) ∧ (getSeq t n).status = .idle ∧ (getSeq t n).ctx = none) ∧
    ∀ v ∈ y.saved, (v.seq, v.data) ∈ s.seqs ∧ v.data.ctx = some c ∧ v.data.status ≠ .idle) ∧
  (∀ n, n < 512 → SavedImage s c n) ∧
  (let kept (n : Nat) : Prop := n ∈ x.seqs ∨ ((getSeq s n).ctx = some c ∧ (getSeq s n).status ≠ .idle)
   let area (n : Nat) : Nat := saveAreaPlace (n / 128) c (0x200000 * (n % 128))
   savedDue s c x = true → pagersRun s c x = [] → Memory.wf s.mem = true → (∀ p ∈ s.seqs, p.1 < 512) → (∀ n ∈ x.seqs, n < 512) →
   ∃ w, exec (.contextSaved c) s = .next (writeCstat w c 2) ∧
    (∀ n, kept n → ∀ i, i < 0x200000 → memGet w.mem (area n + i) = memGet (writeImage s c n).mem (area n + i)) ∧
    ∀ a, (∀ n, kept n → a < area n ∨ area n + 0x200000 ≤ a) → memGet w.mem a = memGet s.mem a) ∧
  (resumeDue s c x = true → Memory.wf s.mem = true → (∀ v ∈ x.saved, v.seq < 512) → ∃ w, exec (.resume c) s = .next (writeCstat w c 1) ∧
    (∀ v ∈ x.saved, ∀ i, (i < 0x10000 → memGet w.mem (placeI v.seq i) = memGet (restoreMemory s c v.seq).mem (placeI v.seq i)) ∧
      (i < 0x40000 → memGet w.mem (placeE v.seq i) = memGet (restoreMemory s c v.seq).mem (placeE v.seq i)) ∧
      (i < 0x100000 → memGet w.mem (placeP v.seq i) = memGet (restoreMemory s c v.seq).mem (placeP v.seq i))) ∧
    ∀ a, spaceOf a < 4 → memGet w.mem a = memGet s.mem a) ∧
  (resumeDue s c x = true → ∃ t y, exec (.resume c) s = .next t ∧ getCtx t c = some y ∧ y.life = 1 ∧ y.saved = [] ∧
    ∀ l v r, x.saved = l ++ v :: r → (∀ w ∈ r, w.seq ≠ v.seq) → damagedOffsets s c v.seq = [] → v.seq ∈ t.turn ∧
      let f := tickFlags v.data
      getSeq t v.seq = { f with
        status := .running, hold := none, reported := none, ctx := some c, counters := (getSeq t v.seq).counters, fInc := (getSeq t v.seq).fInc
        mx := { f.mx with acc := [], edgeBuf := [], incoming := [], sent := [], lodeBuf := [], discardIn := 0 } })

/-- The debug mailbox (16 R313 to R318; 22 R397): with no command in progress on a context that exists, each command completes; HALT begins the halt, or answers 1 for a context that is saved or
being saved; RUN ends one, CSTEP and BSTEP begin a step; a running context refuses RUN, the steps, READ and WRITE with status 2; a saved context refuses all of these but READ, also where a step in which its save completed has halted it; READ gives eight bytes of the image, from the save area of a saved context; WRITE
holds them for the next run, BRKEN sets break-enable. -/
def Obligations.DebugSteps : Prop :=
  let status (t : State) : Nat := fieldN t.mgmt.dbgstat 8 8
  (∀ (s : State) (k : Nat) (y : Ctx), k < 16 → getCtx s k = some y → stepEnded y = true → ∃ t z, exec (.debugStepEnd k) s = .next t ∧
    getCtx t k = some z ∧ z.stepLeft = none ∧ z.halted = true ∧ status t = stepResult y % 256) ∧
  ∀ (s : State) (x : Ctx), dbgBusy s = false → getCtx s (dbgCtx s) = some x →
  let c := dbgCtx s
  let answers (i : Instr) (k : Nat) : Prop := ∃ t, exec i s = .next t ∧ status t = k ∧ t.ctxs = s.ctxs ∧ t.seqs = s.seqs ∧ t.mem = s.mem
  (x.life ≠ 2 → savesNow s c x = false → x.halted = false → ∃ t y, exec .halt s = .next t ∧ getCtx t c = some y ∧ y.halting = some true ∧ t.seqs = s.seqs) ∧
  (x.life = 2 ∨ savesNow s c x = true → answers .halt 1) ∧
  (standsHalted x = true → ∃ t y, exec .run s = .next t ∧ getCtx t c = some y ∧ y.halting = some false ∧ y.dbgWrites = [] ∧ status t = 0) ∧
  (standsHalted x = true → 0 < fieldN s.mgmt.dbgarg 0 16 → ∃ t y, exec .cstep s = .next t ∧ getCtx t c = some y ∧ y.stepLeft = some (fieldN s.mgmt.dbgarg 0 16) ∧ y.stepSeq = none) ∧
  (∀ n, n < 512 → standsHalted x = true → ∃ t y, exec (.bstep n) s = .next t ∧ getCtx t c = some y ∧ y.stepSeq = some n ∧
    y.stepLeft = some (if fieldN s.mgmt.dbgarg 0 32 = 0 then 2 ^ 20 else fieldN s.mgmt.dbgarg 0 32)) ∧
  (standsHalted x = false → answers .run 2 ∧ answers .cstep 2 ∧ ∀ n, n < 512 → answers (.bstep n) 2 ∧ answers (.write n) 2 ∧ (x.life ≠ 2 → answers (.read n) 2)) ∧
  (standsHalted x = true ↔ x.halted = true ∧ x.life ≠ 2) ∧
  (∀ n, n < 512 → x.halted = true → imageMiss s x n = false → x.life ≠ 2 → ∃ t, exec (.read n) s = .next t ∧ t.mgmt.dbgdata = readImageWord s n (dbgOffset s) true ∧
    status t = 0 ∧ t.seqs = s.seqs ∧ t.mem = s.mem) ∧
  (∀ n, n < 512 → imageMiss s x n = false → x.life = 2 → ∃ t, exec (.read n) s = .next t ∧ status t = 0 ∧ t.seqs = s.seqs ∧ t.mem = s.mem ∧
    t.mgmt.dbgdata = BitVec.ofNat 64 (readNat s (saveAreaPlace (n / 128) c (0x200000 * (n % 128) + dbgOffset s)) 8)) ∧
  (∀ n, n < 512 → standsHalted x = true → imageMiss s x n = false → writeRefused s n (dbgOffset s) s.mgmt.dbgdata = false →
    ∃ t y, exec (.write n) s = .next t ∧ getCtx t c = some y ∧ y.dbgWrites = x.dbgWrites ++ [(n, dbgOffset s, s.mgmt.dbgdata)] ∧ t.seqs = s.seqs ∧ t.mem = s.mem ∧ status t = 0) ∧
  (x.life ≠ 2 → ∃ t y, exec .brken s = .next t ∧ getCtx t c = some y ∧ y.brken = anyBit s.mgmt.dbgarg 0 1 ∧ status t = 0)

/-! ## Dies, the log, links, power -/

/-- The warm reset of a die (21 R375 to R379): each command is accepted from the state before it and completes; locked, in progress or out of order it sets ERR 1 and changes
nothing else. -/
def Obligations.DieResetSteps : Prop := ∀ (s : State) (d : Nat), d < 4 →
  let x := getDie s d
  let free (k : Nat) : Prop := x.locked = false ∧ x.busy = false ∧ x.st = k
  let wait (k : Nat) : Prop := x.busy = true ∧ x.cmd = k
  let turned (i : Instr) (k : Nat) : Prop := x.locked = true ∨ x.busy = true ∨ x.st ≠ k → exec i s = .next (setDie s d { x with err := 1 })
  (free 0 → dieBusy s d = false → ∃ t, exec (.quiesce d) s = .next t ∧ (getDie t d).st = 1 ∧ (getDie t d).busy = false ∧ (getDie t d).err = 0) ∧
  (free 0 → dieBusy s d = true → ∃ t, exec (.quiesce d) s = .next t ∧ (getDie t d).st = 0 ∧ (getDie t d).err = 2) ∧
  (free 1 → ∃ t, exec (.linkstop d) s = .next t ∧ (getDie t d).busy = true ∧ (getDie t d).cmd = 2) ∧
  (wait 2 → dieAnswered s d = true → ∃ t, exec (.linkstopDone d) s = .next t ∧ (getDie t d).st = 2 ∧ (getDie t d).busy = false) ∧
  (free 2 → ∃ t, exec (.writeback d) s = .next t ∧ (getDie t d).busy = true ∧ (getDie t d).cmd = 3) ∧
  (wait 3 → ∃ t, exec (.writebackDone d) s = .next t ∧ (getDie t d).st = 3 ∧ (getDie t d).wb = 0x10000000 ∧ (getDie t d).busy = false) ∧
  (free 3 → ∃ t, exec (.drctlReset d) s = .next t ∧ (getDie t d).st = 4 ∧ (∀ n, n / 128 = d → getSeq t n = {})) ∧
  (wait 4 → ∃ t, exec (.resetDone d) s = .next t ∧ (getDie t d).st = 5 ∧ t.mem = s.mem) ∧
  (free 5 → ∃ t, exec (.drctlRetrain d) s = .next t ∧ (getDie t d).busy = true ∧ (getLink t d).st = 1 ∧ (getLink t (4 + d / 2)).st = 1) ∧
  (∀ k, k ≠ 0 → wait 5 → ∃ t, exec (.trained d k) s = .next t ∧ (getDie t d).st = 6 ∧ (getLink t d).st = 2 ∧ (getLink t (4 + d / 2)).st = 2) ∧
  (wait 5 → ∃ t, exec (.trained d 0) s = .next t ∧ (getDie t d).err = 4 ∧ (getDie t d).st = x.st) ∧
  (free 6 → ∃ t, exec (.admitCmd d) s = .next t ∧ (getDie t d).busy = true ∧ (getDie t d).cmd = 6) ∧
  (∀ k, k ≠ 0 → wait 6 → ∃ t, exec (.admitDone d k) s = .next t ∧ (getDie t d).st = 0 ∧ (getDie t d).count = x.count + 1 ∧ (getDie t d).busy = false) ∧
  (wait 6 → ∃ t, exec (.admitDone d 0) s = .next t ∧ (getDie t d).err = 5 ∧ (getDie t d).locked = true) ∧
  turned (.quiesce d) 0 ∧ turned (.linkstop d) 1 ∧ turned (.writeback d) 2 ∧ turned (.drctlReset d) 3 ∧ turned (.drctlRetrain d) 5 ∧ turned (.admitCmd d) 6

/-- The Peat log, scrub and retirement (22 R384, R386, R388 to R391): a HEAD or SEAL written to PLCTL while none is in progress sets BUSY; each then answers with its result. A head whose buffer takes the
write gives LAST and uses a key; a seal of a head that is still the log's end empties the log and opens the next volume. Scrub changes no value, records what it finds, and marks an
uncorrectable word of memory; retirement marks the site. -/
def Obligations.LogSteps : Prop :=
  (∀ s : State, s.peat.busy = 0 → (∃ t, exec (.registerWrite 2 0x2000 1) s = .next t ∧ t.peat.busy = 1) ∧ ∃ t, exec (.registerWrite 2 0x2000 2) s = .next t ∧ t.peat.busy = 2) ∧
  (∀ s : State, s.peat.busy ≠ 0 → ∀ v, ∃ t, exec (.registerWrite 2 0x2000 v) s = .next t ∧ t.peat = s.peat ∧ t.mem = s.mem) ∧
  (∀ s, ∃ t, exec .head s = .next t ∧ t.peat.busy = 0) ∧
  (∀ s, 2 ^ 20 ≤ s.peat.keys → ∃ t, exec .head s = .next t ∧ t.peat.result = 4 ∧ t.mem = s.mem) ∧
  (∀ s t, s.peat.keys < 2 ^ 20 → faClass s.peat.hbuf.toNat = 3 → s.peat.hbuf.toNat % 64 = 0 → s.peat.hbuf.toNat < 2 ^ 56 →
    coreWrite s 16 s.peat.hbuf.toNat (headBytes s.peat (timeNow s)) = some t → exec .head s =
      .next { t with peat := { s.peat with result := 0, head := some (peatLast s.peat), keys := s.peat.keys + 1, busy := 0 } }) ∧
  (∀ s, s.peat.head = none → ∃ t, exec .seal s = .next t ∧ t.peat.result = 2 ∧ t.mem = s.mem) ∧
  (∀ s l, s.peat.head = some l → l ≠ peatLast s.peat → ∃ t, exec .seal s = .next t ∧ t.peat.result = 1 ∧ t.peat.count = s.peat.count ∧ t.mem = s.mem) ∧
  (∀ s l, s.peat.head = some l → l = peatLast s.peat → ∃ t, exec .seal s = .next t ∧ t.peat.result = 0 ∧ t.peat.count = 0 ∧ t.peat.head = none ∧
    t.peat.vol = s.peat.vol + 1 ∧ t.peat.lost = 0 ∧ t.peat.busy = 0) ∧
  (∀ s p e, scrubSource p = some e → exec (.scrub p 0) s = .next s ∧
    (isSram p = true → ∃ t, exec (.scrub p 1) s = .next t ∧ t.mem = s.mem ∧ t.poison = s.poison ∧ t.events = s.events ++ [{ e with kind := 3, syn := 1 }]) ∧
    (e.unit = 1 → ∃ t, exec (.scrub p 2) s = .next t ∧ t.mem = s.mem ∧ t.poison = s.poison ∧ t.events = s.events ++ [{ e with kind := 3, syn := 2 }]) ∧
    (spaceOf p < 8 → ∃ t, exec (.scrub p 3) s = .next t ∧ t.mem = s.mem ∧ t.poison = markWord s.poison (p / 8) ∧
      t.events = s.events ++ [{ e with kind := 4, syn := 3 }])) ∧
  (∀ s k, k < 4096 → ∃ t, exec (.retire k) s = .next t ∧ (getSite t (siteOfPackage k)).retired = true ∧ t.mem = s.mem) ∧
  (∀ s k, k < 4096 → 0 < (getSite s (siteOfPackage k)).uncorrectable → Config.retireThreshold ≤ (getSite s (siteOfPackage k)).uncorrectable →
    (getSite s (siteOfPackage k)).retired = false → ∃ t, exec (.thresholdRetirement k) s = .next t ∧ (getSite t (siteOfPackage k)).retired = true)

/-- Links, ports and the second tier (22 R392, R393, R396; the transitions at ENABLE, RETRAIN and DISABLE are log entry 62, the found and the trained step of a CXL port log
entry 63, and that a corrected flit ends a port's run log entry 68, the model's readings): failed replays count, a corrected flit ends their run, eight in a row fail a link or take a port down; ports train and degrade; the memory of
a CXL port is found, comes up with its capacity, and fails. -/
def Obligations.LinkSteps : Prop := ∀ (s : State),
  (∀ l f, l < 6 → (getLink s l).st = 2 → ∃ t, exec (.linkReplay 0 l f) s = .next t ∧ t.mem = s.mem ∧
    (getLink t l).replay = (if f = 0 then (getLink s l).replay + 1 else (getLink s l).replay) ∧ (getLink t l).run = (if f = 0 then (getLink s l).run + 1 else 0)) ∧
  (∀ p k f, p < 144 → k ≠ 0 → (getPort s p).st = 2 ∨ (getPort s p).st = 3 → ∃ t, exec (.linkReplay k p f) s = .next t ∧
    (getPort t p).replay = (if f = 0 then (getPort s p).replay + 1 else (getPort s p).replay) ∧
    (getPort t p).fecunc = (if f = 0 then (getPort s p).fecunc + 1 else (getPort s p).fecunc) ∧
    (getPort t p).feccor = (if f = 0 then (getPort s p).feccor else (getPort s p).feccor + 1) ∧ (getPort t p).run = (if f = 0 then (getPort s p).run + 1 else 0)) ∧
  (∀ l, l < 6 → (getLink s l).st = 2 → 8 ≤ (getLink s l).run → ∃ t, exec (.linkFailed l) s = .next t ∧ (getLink t l).st = 4) ∧
  (∀ p, p < 144 → (getPort s p).st = 2 ∨ (getPort s p).st = 3 → 8 ≤ (getPort s p).run → ∃ t, exec (.portDown p) s = .next t ∧ (getPort t p).st = 4) ∧
  (∀ p, p < 144 → (getPort s p).st = 0 → ∃ t, exec (.enable p) s = .next t ∧ (getPort t p).st = 1) ∧
  (∀ p, p < 144 → ∃ t, exec (.disable p) s = .next t ∧ (getPort t p).st = 0 ∧ t.mem = s.mem) ∧
  (∀ p, p < 144 → (getPort s p).st ≠ 0 → ∃ t, exec (.pctlRetrain p) s = .next t ∧ (getPort t p).st = 1) ∧
  (∀ p, p < 144 → (getPort s p).st = 1 → ∃ t, exec (.portTrainingDone p) s = .next t ∧ (getPort t p).st = 2) ∧
  (∀ p, p < 144 → (getPort s p).st = 2 → ∃ t, exec (.portDegraded p) s = .next t ∧ (getPort t p).st = 3) ∧
  (∀ p, p < 8 → (getCxl s p).st = 0 → ∃ t, exec (.cxlPortTrained p 0) s = .next t ∧ (getCxl t p).st = 1) ∧
  (∀ p k, p < 8 → (getCxl s p).st = 0 ∨ (getCxl s p).st = 1 → 0 < k → k < 2 ^ 16 →
    ∃ t, exec (.cxlPortTrained p k) s = .next t ∧ (getCxl t p).st = 2 ∧ (getCxl t p).cap = k) ∧
  (∀ p, p < 8 → (getCxl s p).st = 2 → ∃ t, exec (.cxlPortFailure p) s = .next t ∧ (getCxl t p).st = 3 ∧ t.mem = s.mem)

/-- Power, temperature and the measured start (20 R372; 22 R398 to R400): the sensors' readings stand in PWRNOW and TEMP, and the hub takes at most one clock step a millisecond, down over a limit and up below
95 % of both; at TTRIP every compute clock stops and every context is reported fatal; stages are measured in order, and a report lists the slots. -/
def Obligations.PowerAndStartSteps : Prop := ∀ (s : State),
  let late (t : State) : Prop := t.mgmt.lastStep = none ∨ ∃ k, t.mgmt.lastStep = some k ∧ k + millisecond ≤ t.stamp
  (∀ p k, p < 2 ^ 12 → k < 2 ^ 16 → ∃ t, exec (.clockStep p k) s = .next t ∧ t.mgmt.pwrnow = BitVec.ofNat 64 p ∧ t.mgmt.temp = BitVec.ofNat 64 k ∧ t.seqs = s.seqs ∧
    t.clock = s.clock ∧ (k < s.mgmt.ttrip.toNat → t.mem = s.mem ∧ t.halted = s.halted) ∧ (s.mgmt.ttrip.toNat ≤ k → t.halted = true) ∧
    (late s → s.mgmt.clkstep ≤ 3 → s.mgmt.pwrcap.toNat < p ∨ s.mgmt.twarn.toNat < k → t.mgmt.clkstep = min 3 (s.mgmt.clkstep + 1)) ∧
    (late s → 100 * p < 95 * s.mgmt.pwrcap.toNat → 100 * k < 95 * s.mgmt.twarn.toNat → t.mgmt.clkstep = s.mgmt.clkstep - 1) ∧
    (∀ j, s.mgmt.lastStep = some j → s.stamp < j + millisecond → t.mgmt.clkstep = s.mgmt.clkstep)) ∧
  (∀ k, s.mgmt.ttrip.toNat ≤ k → k < 2 ^ 16 → ∃ t, exec (.thermalTrip k) s = .next t ∧ t.halted = true ∧ t.mgmt.temp = BitVec.ofNat 64 k ∧
    (s.halted = false → ∀ c x, getCtx s c = some x → ∃ y, getCtx t c = some y ∧ y.life = 4)) ∧
  (s.mgmt.bootWaits = false → s.mgmt.booted < 8 → (s.mgmt.booted = 2 → s.mgmt.pushed = true ∨ Config.imageVerifies = true) → s.mgmt.slots.length = 16 →
    ∃ t, exec (.measuredStart s.mgmt.booted) s = .next t ∧ t.mgmt.booted = s.mgmt.booted + 1 ∧
      at' t.mgmt.slots s.mgmt.booted 0 = Config.stageMeasurement s.mgmt.booted ∧
      ∀ j, j ≠ s.mgmt.booted → at' t.mgmt.slots j 0 = at' s.mgmt.slots j 0) ∧
  (s.mgmt.bootWaits = true → ∀ k, k ≠ 0 → ∃ t, exec (.firmwarePush k) s = .next t ∧ t.mgmt.bootWaits = false ∧ t.mgmt.pushed = true) ∧
  (s.mgmt.bootWaits = true → exec (.firmwarePush 0) s = .next s) ∧
  (∃ t r, exec .getMeasurements s = .next t ∧ t.mgmt.reports = s.mgmt.reports ++ [r] ∧ r.slots = s.mgmt.slots ∧ t.mem = s.mem ∧ t.seqs = s.seqs)

end
end

