-- ==== Sys2Proof/Laws/Dispatch.lean ====
section
/-! SUPPORT. The dispatch, one equation per constructor: cited by name, so that no proof unfolds the whole of exec. -/

namespace Sys2Proof.Laws
open Sys2Proof.Machine

@[simp] theorem exec_nop (s : State) : exec .nop s = execNop s := rfl
@[simp] theorem exec_wait (f : BitVec 5) (o : BitVec 3) (t : BitVec 16) (s : State) : exec (.wait f o t) s = execWait f o t s := rfl
@[simp] theorem exec_waitc (f : BitVec 5) (o : BitVec 3) (t : BitVec 16) (s : State) : exec (.waitc f o t) s = execWaitc f o t s := rfl
@[simp] theorem exec_post (f : BitVec 5) (o : BitVec 3) (sx : BitVec 3) (n : BitVec 16) (s : State) : exec (.post f o sx n) s = execPost f o sx n s := rfl
@[simp] theorem exec_clrf (f : BitVec 5) (s : State) : exec (.clrf f) s = execClrf f s := rfl
@[simp] theorem exec_quiet (l : BitVec 16) (s : State) : exec (.quiet l) s = execQuiet l s := rfl
@[simp] theorem exec_segb (sx : BitVec 6) (s : State) : exec (.segb sx) s = execSegb sx s := rfl
@[simp] theorem exec_brk (c : BitVec 16) (s : State) : exec (.brk c) s = execBrk c s := rfl
@[simp] theorem exec_trapi (c : BitVec 16) (s : State) : exec (.trapi c) s = execTrapi c s := rfl
@[simp] theorem exec_drain (sx : BitVec 3) (s : State) : exec (.drain sx) s = execDrain sx s := rfl
@[simp] theorem exec_endOp (s : State) : exec .endOp s = execEndOp s := rfl
@[simp] theorem exec_add (d : BitVec 6) (a : BitVec 6) (b : BitVec 6) (s : State) : exec (.add d a b) s = execAdd d a b s := rfl
@[simp] theorem exec_sub (d : BitVec 6) (a : BitVec 6) (b : BitVec 6) (s : State) : exec (.sub d a b) s = execSub d a b s := rfl
@[simp] theorem exec_and (d : BitVec 6) (a : BitVec 6) (b : BitVec 6) (s : State) : exec (.and d a b) s = execAnd d a b s := rfl
@[simp] theorem exec_or (d : BitVec 6) (a : BitVec 6) (b : BitVec 6) (s : State) : exec (.or d a b) s = execOr d a b s := rfl
@[simp] theorem exec_xor (d : BitVec 6) (a : BitVec 6) (b : BitVec 6) (s : State) : exec (.xor d a b) s = execXor d a b s := rfl
@[simp] theorem exec_andn (d : BitVec 6) (a : BitVec 6) (b : BitVec 6) (s : State) : exec (.andn d a b) s = execAndn d a b s := rfl
@[simp] theorem exec_shl (d : BitVec 6) (a : BitVec 6) (b : BitVec 6) (s : State) : exec (.shl d a b) s = execShl d a b s := rfl
@[simp] theorem exec_shr (d : BitVec 6) (a : BitVec 6) (b : BitVec 6) (s : State) : exec (.shr d a b) s = execShr d a b s := rfl
@[simp] theorem exec_sar (d : BitVec 6) (a : BitVec 6) (b : BitVec 6) (s : State) : exec (.sar d a b) s = execSar d a b s := rfl
@[simp] theorem exec_rotl (d : BitVec 6) (a : BitVec 6) (b : BitVec 6) (s : State) : exec (.rotl d a b) s = execRotl d a b s := rfl
@[simp] theorem exec_min (d : BitVec 6) (a : BitVec 6) (b : BitVec 6) (s : State) : exec (.min d a b) s = execMin d a b s := rfl
@[simp] theorem exec_max (d : BitVec 6) (a : BitVec 6) (b : BitVec 6) (s : State) : exec (.max d a b) s = execMax d a b s := rfl
@[simp] theorem exec_minu (d : BitVec 6) (a : BitVec 6) (b : BitVec 6) (s : State) : exec (.minu d a b) s = execMinu d a b s := rfl
@[simp] theorem exec_maxu (d : BitVec 6) (a : BitVec 6) (b : BitVec 6) (s : State) : exec (.maxu d a b) s = execMaxu d a b s := rfl
@[simp] theorem exec_mov (d : BitVec 6) (a : BitVec 6) (s : State) : exec (.mov d a) s = execMov d a s := rfl
@[simp] theorem exec_mul (d : BitVec 6) (a : BitVec 6) (b : BitVec 6) (s : State) : exec (.mul d a b) s = execMul d a b s := rfl
@[simp] theorem exec_mulh (d : BitVec 6) (a : BitVec 6) (b : BitVec 6) (s : State) : exec (.mulh d a b) s = execMulh d a b s := rfl
@[simp] theorem exec_mulhu (d : BitVec 6) (a : BitVec 6) (b : BitVec 6) (s : State) : exec (.mulhu d a b) s = execMulhu d a b s := rfl
@[simp] theorem exec_div (d : BitVec 6) (a : BitVec 6) (b : BitVec 6) (s : State) : exec (.div d a b) s = execDiv d a b s := rfl
@[simp] theorem exec_divu (d : BitVec 6) (a : BitVec 6) (b : BitVec 6) (s : State) : exec (.divu d a b) s = execDivu d a b s := rfl
@[simp] theorem exec_rem (d : BitVec 6) (a : BitVec 6) (b : BitVec 6) (s : State) : exec (.rem d a b) s = execRem d a b s := rfl
@[simp] theorem exec_remu (d : BitVec 6) (a : BitVec 6) (b : BitVec 6) (s : State) : exec (.remu d a b) s = execRemu d a b s := rfl
@[simp] theorem exec_sel (d : BitVec 6) (a : BitVec 6) (b : BitVec 6) (c : BitVec 6) (s : State) : exec (.sel d a b c) s = execSel d a b c s := rfl
@[simp] theorem exec_clz (d : BitVec 6) (a : BitVec 6) (s : State) : exec (.clz d a) s = execClz d a s := rfl
@[simp] theorem exec_ctz (d : BitVec 6) (a : BitVec 6) (s : State) : exec (.ctz d a) s = execCtz d a s := rfl
@[simp] theorem exec_popc (d : BitVec 6) (a : BitVec 6) (s : State) : exec (.popc d a) s = execPopc d a s := rfl
@[simp] theorem exec_bext (d : BitVec 6) (a : BitVec 6) (b : BitVec 6) (s : State) : exec (.bext d a b) s = execBext d a b s := rfl
@[simp] theorem exec_bins (d : BitVec 6) (a : BitVec 6) (b : BitVec 6) (c : BitVec 6) (s : State) : exec (.bins d a b c) s = execBins d a b c s := rfl
@[simp] theorem exec_sext (d : BitVec 6) (a : BitVec 6) (n : BitVec 6) (s : State) : exec (.sext d a n) s = execSext d a n s := rfl
@[simp] theorem exec_zext (d : BitVec 6) (a : BitVec 6) (n : BitVec 6) (s : State) : exec (.zext d a n) s = execZext d a n s := rfl
@[simp] theorem exec_ceq (d : BitVec 6) (a : BitVec 6) (b : BitVec 6) (s : State) : exec (.ceq d a b) s = execCeq d a b s := rfl
@[simp] theorem exec_cne (d : BitVec 6) (a : BitVec 6) (b : BitVec 6) (s : State) : exec (.cne d a b) s = execCne d a b s := rfl
@[simp] theorem exec_clt (d : BitVec 6) (a : BitVec 6) (b : BitVec 6) (s : State) : exec (.clt d a b) s = execClt d a b s := rfl
@[simp] theorem exec_cltu (d : BitVec 6) (a : BitVec 6) (b : BitVec 6) (s : State) : exec (.cltu d a b) s = execCltu d a b s := rfl
@[simp] theorem exec_cle (d : BitVec 6) (a : BitVec 6) (b : BitVec 6) (s : State) : exec (.cle d a b) s = execCle d a b s := rfl
@[simp] theorem exec_cleu (d : BitVec 6) (a : BitVec 6) (b : BitVec 6) (s : State) : exec (.cleu d a b) s = execCleu d a b s := rfl
@[simp] theorem exec_addi (d : BitVec 6) (a : BitVec 6) (im : BitVec 13) (s : State) : exec (.addi d a im) s = execAddi d a im s := rfl
@[simp] theorem exec_andi (d : BitVec 6) (a : BitVec 6) (im : BitVec 13) (s : State) : exec (.andi d a im) s = execAndi d a im s := rfl
@[simp] theorem exec_ori (d : BitVec 6) (a : BitVec 6) (im : BitVec 13) (s : State) : exec (.ori d a im) s = execOri d a im s := rfl
@[simp] theorem exec_xori (d : BitVec 6) (a : BitVec 6) (im : BitVec 13) (s : State) : exec (.xori d a im) s = execXori d a im s := rfl
@[simp] theorem exec_shli (d : BitVec 6) (a : BitVec 6) (n : BitVec 6) (s : State) : exec (.shli d a n) s = execShli d a n s := rfl
@[simp] theorem exec_shri (d : BitVec 6) (a : BitVec 6) (n : BitVec 6) (s : State) : exec (.shri d a n) s = execShri d a n s := rfl
@[simp] theorem exec_sari (d : BitVec 6) (a : BitVec 6) (n : BitVec 6) (s : State) : exec (.sari d a n) s = execSari d a n s := rfl
@[simp] theorem exec_ceqi (d : BitVec 6) (a : BitVec 6) (im : BitVec 13) (s : State) : exec (.ceqi d a im) s = execCeqi d a im s := rfl
@[simp] theorem exec_clti (d : BitVec 6) (a : BitVec 6) (im : BitVec 13) (s : State) : exec (.clti d a im) s = execClti d a im s := rfl
@[simp] theorem exec_cltui (d : BitVec 6) (a : BitVec 6) (im : BitVec 13) (s : State) : exec (.cltui d a im) s = execCltui d a im s := rfl
@[simp] theorem exec_lui (d : BitVec 6) (im : BitVec 19) (s : State) : exec (.lui d im) s = execLui d im s := rfl
@[simp] theorem exec_movi (d : BitVec 6) (im : BitVec 19) (s : State) : exec (.movi d im) s = execMovi d im s := rfl
@[simp] theorem exec_stg (sx : BitVec 6) (a : BitVec 6) (s : State) : exec (.stg sx a) s = execStg sx a s := rfl
@[simp] theorem exec_stgi (sx : BitVec 6) (q : BitVec 2) (im : BitVec 16) (s : State) : exec (.stgi sx q im) s = execStgi sx q im s := rfl
@[simp] theorem exec_srd (d : BitVec 6) (r : BitVec 12) (s : State) : exec (.srd d r) s = execSrd d r s := rfl
@[simp] theorem exec_swr (a : BitVec 6) (r : BitVec 12) (s : State) : exec (.swr a r) s = execSwr a r s := rfl
@[simp] theorem exec_ldI8 (d : BitVec 6) (b : BitVec 6) (o : BitVec 13) (s : State) : exec (.ldI8 d b o) s = execLdI8 d b o s := rfl
@[simp] theorem exec_ldN8 (d : BitVec 6) (b : BitVec 6) (o : BitVec 13) (s : State) : exec (.ldN8 d b o) s = execLdN8 d b o s := rfl
@[simp] theorem exec_ldI16 (d : BitVec 6) (b : BitVec 6) (o : BitVec 13) (s : State) : exec (.ldI16 d b o) s = execLdI16 d b o s := rfl
@[simp] theorem exec_ldN16 (d : BitVec 6) (b : BitVec 6) (o : BitVec 13) (s : State) : exec (.ldN16 d b o) s = execLdN16 d b o s := rfl
@[simp] theorem exec_ldI32 (d : BitVec 6) (b : BitVec 6) (o : BitVec 13) (s : State) : exec (.ldI32 d b o) s = execLdI32 d b o s := rfl
@[simp] theorem exec_ldN32 (d : BitVec 6) (b : BitVec 6) (o : BitVec 13) (s : State) : exec (.ldN32 d b o) s = execLdN32 d b o s := rfl
@[simp] theorem exec_ldI64 (d : BitVec 6) (b : BitVec 6) (o : BitVec 13) (s : State) : exec (.ldI64 d b o) s = execLdI64 d b o s := rfl
@[simp] theorem exec_ldsI8 (d : BitVec 6) (b : BitVec 6) (o : BitVec 13) (s : State) : exec (.ldsI8 d b o) s = execLdsI8 d b o s := rfl
@[simp] theorem exec_ldsN8 (d : BitVec 6) (b : BitVec 6) (o : BitVec 13) (s : State) : exec (.ldsN8 d b o) s = execLdsN8 d b o s := rfl
@[simp] theorem exec_ldsI16 (d : BitVec 6) (b : BitVec 6) (o : BitVec 13) (s : State) : exec (.ldsI16 d b o) s = execLdsI16 d b o s := rfl
@[simp] theorem exec_ldsN16 (d : BitVec 6) (b : BitVec 6) (o : BitVec 13) (s : State) : exec (.ldsN16 d b o) s = execLdsN16 d b o s := rfl
@[simp] theorem exec_ldsI32 (d : BitVec 6) (b : BitVec 6) (o : BitVec 13) (s : State) : exec (.ldsI32 d b o) s = execLdsI32 d b o s := rfl
@[simp] theorem exec_ldsN32 (d : BitVec 6) (b : BitVec 6) (o : BitVec 13) (s : State) : exec (.ldsN32 d b o) s = execLdsN32 d b o s := rfl
@[simp] theorem exec_ldsI64 (d : BitVec 6) (b : BitVec 6) (o : BitVec 13) (s : State) : exec (.ldsI64 d b o) s = execLdsI64 d b o s := rfl
@[simp] theorem exec_ldaI32 (d : BitVec 6) (b : BitVec 6) (o : BitVec 13) (s : State) : exec (.ldaI32 d b o) s = execLdaI32 d b o s := rfl
@[simp] theorem exec_ldaN32 (d : BitVec 6) (b : BitVec 6) (o : BitVec 13) (s : State) : exec (.ldaN32 d b o) s = execLdaN32 d b o s := rfl
@[simp] theorem exec_ldaI64 (d : BitVec 6) (b : BitVec 6) (o : BitVec 13) (s : State) : exec (.ldaI64 d b o) s = execLdaI64 d b o s := rfl
@[simp] theorem exec_stI8 (d : BitVec 6) (b : BitVec 6) (o : BitVec 13) (s : State) : exec (.stI8 d b o) s = execStI8 d b o s := rfl
@[simp] theorem exec_stI16 (d : BitVec 6) (b : BitVec 6) (o : BitVec 13) (s : State) : exec (.stI16 d b o) s = execStI16 d b o s := rfl
@[simp] theorem exec_stI32 (d : BitVec 6) (b : BitVec 6) (o : BitVec 13) (s : State) : exec (.stI32 d b o) s = execStI32 d b o s := rfl
@[simp] theorem exec_stI64 (d : BitVec 6) (b : BitVec 6) (o : BitVec 13) (s : State) : exec (.stI64 d b o) s = execStI64 d b o s := rfl
@[simp] theorem exec_stlI32 (d : BitVec 6) (b : BitVec 6) (o : BitVec 13) (s : State) : exec (.stlI32 d b o) s = execStlI32 d b o s := rfl
@[simp] theorem exec_stlI64 (d : BitVec 6) (b : BitVec 6) (o : BitVec 13) (s : State) : exec (.stlI64 d b o) s = execStlI64 d b o s := rfl
@[simp] theorem exec_amoI32 (d : BitVec 6) (a : BitVec 6) (b : BitVec 6) (k : BitVec 4) (o : BitVec 3) (s : State) : exec (.amoI32 d a b k o) s = execAmoI32 d a b k o s := rfl
@[simp] theorem exec_amoI64 (d : BitVec 6) (a : BitVec 6) (b : BitVec 6) (k : BitVec 4) (o : BitVec 3) (s : State) : exec (.amoI64 d a b k o) s = execAmoI64 d a b k o s := rfl
@[simp] theorem exec_casI32 (d : BitVec 6) (a : BitVec 6) (b : BitVec 6) (c : BitVec 6) (x : BitVec 1) (s : State) : exec (.casI32 d a b c x) s = execCasI32 d a b c x s := rfl
@[simp] theorem exec_casI64 (d : BitVec 6) (a : BitVec 6) (b : BitVec 6) (c : BitVec 6) (x : BitVec 1) (s : State) : exec (.casI64 d a b c x) s = execCasI64 d a b c x s := rfl
@[simp] theorem exec_br (c : BitVec 4) (a : BitVec 6) (o : BitVec 15) (s : State) : exec (.br c a o) s = execBr c a o s := rfl
@[simp] theorem exec_jmp (o : BitVec 15) (s : State) : exec (.jmp o) s = execJmp o s := rfl
@[simp] theorem exec_jmpi (a : BitVec 6) (s : State) : exec (.jmpi a) s = execJmpi a s := rfl
@[simp] theorem exec_call (o : BitVec 15) (s : State) : exec (.call o) s = execCall o s := rfl
@[simp] theorem exec_ret (s : State) : exec .ret s = execRet s := rfl
@[simp] theorem exec_loop (a : BitVec 6) (o : BitVec 15) (s : State) : exec (.loop a o) s = execLoop a o s := rfl
@[simp] theorem exec_chk (a : BitVec 6) (o : BitVec 15) (s : State) : exec (.chk a o) s = execChk a o s := rfl
@[simp] theorem exec_tret (s : State) : exec .tret s = execTret s := rfl
@[simp] theorem exec_xtov (v : BitVec 6) (sx : BitVec 6) (l : BitVec 8) (m : BitVec 2) (s : State) : exec (.xtov v sx l m) s = execXtov v sx l m s := rfl
@[simp] theorem exec_xfromv (v : BitVec 6) (d : BitVec 6) (l : BitVec 8) (m : BitVec 2) (s : State) : exec (.xfromv v d l m) s = execXfromv v d l m s := rfl
@[simp] theorem exec_xag (g : BitVec 3) (p : BitVec 4) (sx : BitVec 6) (s : State) : exec (.xag g p sx) s = execXag g p sx s := rfl
@[simp] theorem exec_xmask (m : BitVec 3) (x : BitVec 1) (q : BitVec 2) (sx : BitVec 6) (s : State) : exec (.xmask m x q sx) s = execXmask m x q sx s := rfl
@[simp] theorem exec_xsts (z : BitVec 3) (e : BitVec 3) (d : BitVec 6) (s : State) : exec (.xsts z e d) s = execXsts z e d s := rfl
@[simp] theorem exec_vadd (d : BitVec 6) (a : BitVec 6) (b : BitVec 6) (m : BitVec 3) (t : BitVec 4) (s : State) : exec (.vadd d a b m t) s = execVadd d a b m t s := rfl
@[simp] theorem exec_vsub (d : BitVec 6) (a : BitVec 6) (b : BitVec 6) (m : BitVec 3) (t : BitVec 4) (s : State) : exec (.vsub d a b m t) s = execVsub d a b m t s := rfl
@[simp] theorem exec_vmul (d : BitVec 6) (a : BitVec 6) (b : BitVec 6) (m : BitVec 3) (t : BitVec 4) (s : State) : exec (.vmul d a b m t) s = execVmul d a b m t s := rfl
@[simp] theorem exec_vfma (d : BitVec 6) (a : BitVec 6) (b : BitVec 6) (m : BitVec 3) (t : BitVec 4) (s : State) : exec (.vfma d a b m t) s = execVfma d a b m t s := rfl
@[simp] theorem exec_vfms (d : BitVec 6) (a : BitVec 6) (b : BitVec 6) (m : BitVec 3) (t : BitVec 4) (s : State) : exec (.vfms d a b m t) s = execVfms d a b m t s := rfl
@[simp] theorem exec_vmin (d : BitVec 6) (a : BitVec 6) (b : BitVec 6) (m : BitVec 3) (t : BitVec 4) (s : State) : exec (.vmin d a b m t) s = execVmin d a b m t s := rfl
@[simp] theorem exec_vmax (d : BitVec 6) (a : BitVec 6) (b : BitVec 6) (m : BitVec 3) (t : BitVec 4) (s : State) : exec (.vmax d a b m t) s = execVmax d a b m t s := rfl
@[simp] theorem exec_vabs (d : BitVec 6) (a : BitVec 6) (m : BitVec 3) (t : BitVec 4) (s : State) : exec (.vabs d a m t) s = execVabs d a m t s := rfl
@[simp] theorem exec_vneg (d : BitVec 6) (a : BitVec 6) (m : BitVec 3) (t : BitVec 4) (s : State) : exec (.vneg d a m t) s = execVneg d a m t s := rfl
@[simp] theorem exec_vdiv (d : BitVec 6) (a : BitVec 6) (b : BitVec 6) (m : BitVec 3) (t : BitVec 4) (s : State) : exec (.vdiv d a b m t) s = execVdiv d a b m t s := rfl
@[simp] theorem exec_vsqrt (d : BitVec 6) (a : BitVec 6) (r : BitVec 3) (m : BitVec 3) (t : BitVec 4) (s : State) : exec (.vsqrt d a r m t) s = execVsqrt d a r m t s := rfl
@[simp] theorem exec_vrsq (d : BitVec 6) (a : BitVec 6) (r : BitVec 3) (m : BitVec 3) (t : BitVec 4) (s : State) : exec (.vrsq d a r m t) s = execVrsq d a r m t s := rfl
@[simp] theorem exec_vrcp (d : BitVec 6) (a : BitVec 6) (r : BitVec 3) (m : BitVec 3) (t : BitVec 4) (s : State) : exec (.vrcp d a r m t) s = execVrcp d a r m t s := rfl
@[simp] theorem exec_vexp2 (d : BitVec 6) (a : BitVec 6) (r : BitVec 3) (m : BitVec 3) (t : BitVec 4) (s : State) : exec (.vexp2 d a r m t) s = execVexp2 d a r m t s := rfl
@[simp] theorem exec_vlog2 (d : BitVec 6) (a : BitVec 6) (r : BitVec 3) (m : BitVec 3) (t : BitVec 4) (s : State) : exec (.vlog2 d a r m t) s = execVlog2 d a r m t s := rfl
@[simp] theorem exec_vtanh (d : BitVec 6) (a : BitVec 6) (r : BitVec 3) (m : BitVec 3) (t : BitVec 4) (s : State) : exec (.vtanh d a r m t) s = execVtanh d a r m t s := rfl
@[simp] theorem exec_vsigm (d : BitVec 6) (a : BitVec 6) (r : BitVec 3) (m : BitVec 3) (t : BitVec 4) (s : State) : exec (.vsigm d a r m t) s = execVsigm d a r m t s := rfl
@[simp] theorem exec_viadd (d : BitVec 6) (a : BitVec 6) (b : BitVec 6) (m : BitVec 3) (t : BitVec 4) (s : State) : exec (.viadd d a b m t) s = execViadd d a b m t s := rfl
@[simp] theorem exec_visub (d : BitVec 6) (a : BitVec 6) (b : BitVec 6) (m : BitVec 3) (t : BitVec 4) (s : State) : exec (.visub d a b m t) s = execVisub d a b m t s := rfl
@[simp] theorem exec_vimul (d : BitVec 6) (a : BitVec 6) (b : BitVec 6) (m : BitVec 3) (t : BitVec 4) (s : State) : exec (.vimul d a b m t) s = execVimul d a b m t s := rfl
@[simp] theorem exec_vimulh (d : BitVec 6) (a : BitVec 6) (b : BitVec 6) (m : BitVec 3) (t : BitVec 4) (s : State) : exec (.vimulh d a b m t) s = execVimulh d a b m t s := rfl
@[simp] theorem exec_vimin (d : BitVec 6) (a : BitVec 6) (b : BitVec 6) (m : BitVec 3) (t : BitVec 4) (s : State) : exec (.vimin d a b m t) s = execVimin d a b m t s := rfl
@[simp] theorem exec_vimax (d : BitVec 6) (a : BitVec 6) (b : BitVec 6) (m : BitVec 3) (t : BitVec 4) (s : State) : exec (.vimax d a b m t) s = execVimax d a b m t s := rfl
@[simp] theorem exec_vand (d : BitVec 6) (a : BitVec 6) (b : BitVec 6) (m : BitVec 3) (t : BitVec 4) (s : State) : exec (.vand d a b m t) s = execVand d a b m t s := rfl
@[simp] theorem exec_vor (d : BitVec 6) (a : BitVec 6) (b : BitVec 6) (m : BitVec 3) (t : BitVec 4) (s : State) : exec (.vor d a b m t) s = execVor d a b m t s := rfl
@[simp] theorem exec_vxor (d : BitVec 6) (a : BitVec 6) (b : BitVec 6) (m : BitVec 3) (t : BitVec 4) (s : State) : exec (.vxor d a b m t) s = execVxor d a b m t s := rfl
@[simp] theorem exec_vshl (d : BitVec 6) (a : BitVec 6) (b : BitVec 6) (m : BitVec 3) (t : BitVec 4) (s : State) : exec (.vshl d a b m t) s = execVshl d a b m t s := rfl
@[simp] theorem exec_vshr (d : BitVec 6) (a : BitVec 6) (b : BitVec 6) (m : BitVec 3) (t : BitVec 4) (s : State) : exec (.vshr d a b m t) s = execVshr d a b m t s := rfl
@[simp] theorem exec_vsar (d : BitVec 6) (a : BitVec 6) (b : BitVec 6) (m : BitVec 3) (t : BitVec 4) (s : State) : exec (.vsar d a b m t) s = execVsar d a b m t s := rfl
@[simp] theorem exec_vwadd (d : BitVec 6) (a : BitVec 6) (b : BitVec 6) (m : BitVec 3) (t : BitVec 4) (s : State) : exec (.vwadd d a b m t) s = execVwadd d a b m t s := rfl
@[simp] theorem exec_vwmul (d : BitVec 6) (a : BitVec 6) (b : BitVec 6) (m : BitVec 3) (t : BitVec 4) (s : State) : exec (.vwmul d a b m t) s = execVwmul d a b m t s := rfl
@[simp] theorem exec_vnarw (d : BitVec 6) (a : BitVec 6) (b : BitVec 6) (m : BitVec 3) (t : BitVec 4) (s : State) : exec (.vnarw d a b m t) s = execVnarw d a b m t s := rfl
@[simp] theorem exec_vcmp (c : BitVec 3) (d : BitVec 3) (a : BitVec 6) (b : BitVec 6) (m : BitVec 3) (t : BitVec 4) (s : State) : exec (.vcmp c d a b m t) s = execVcmp c d a b m t s := rfl
@[simp] theorem exec_vsel (d : BitVec 6) (a : BitVec 6) (b : BitVec 6) (sx : BitVec 3) (t : BitVec 4) (s : State) : exec (.vsel d a b sx t) s = execVsel d a b sx t s := rfl
@[simp] theorem exec_vmop (d : BitVec 3) (a : BitVec 3) (b : BitVec 3) (f : BitVec 4) (s : State) : exec (.vmop d a b f) s = execVmop d a b f s := rfl
@[simp] theorem exec_vcvt (d : BitVec 6) (a : BitVec 6) (sx : BitVec 3) (r : BitVec 3) (m : BitVec 3) (t : BitVec 4) (s : State) : exec (.vcvt d a sx r m t) s = execVcvt d a sx r m t s := rfl
@[simp] theorem exec_vscale (d : BitVec 6) (a : BitVec 6) (b : BitVec 6) (m : BitVec 3) (t : BitVec 4) (s : State) : exec (.vscale d a b m t) s = execVscale d a b m t s := rfl
@[simp] theorem exec_vpack (d : BitVec 6) (a : BitVec 6) (f : BitVec 6) (m : BitVec 3) (t : BitVec 4) (s : State) : exec (.vpack d a f m t) s = execVpack d a f m t s := rfl
@[simp] theorem exec_vunpk (d : BitVec 6) (a : BitVec 6) (f : BitVec 6) (m : BitVec 3) (t : BitVec 4) (s : State) : exec (.vunpk d a f m t) s = execVunpk d a f m t s := rfl
@[simp] theorem exec_vmov (d : BitVec 6) (a : BitVec 6) (m : BitVec 3) (t : BitVec 4) (s : State) : exec (.vmov d a m t) s = execVmov d a m t s := rfl
@[simp] theorem exec_vperm (d : BitVec 6) (a : BitVec 6) (b : BitVec 6) (m : BitVec 3) (t : BitVec 4) (s : State) : exec (.vperm d a b m t) s = execVperm d a b m t s := rfl
@[simp] theorem exec_vslide (d : BitVec 6) (a : BitVec 6) (n : BitVec 8) (x : BitVec 1) (s : State) : exec (.vslide d a n x) s = execVslide d a n x s := rfl
@[simp] theorem exec_vzip (d : BitVec 6) (a : BitVec 6) (b : BitVec 6) (m : BitVec 3) (t : BitVec 4) (s : State) : exec (.vzip d a b m t) s = execVzip d a b m t s := rfl
@[simp] theorem exec_vuzp (d : BitVec 6) (a : BitVec 6) (b : BitVec 6) (m : BitVec 3) (t : BitVec 4) (s : State) : exec (.vuzp d a b m t) s = execVuzp d a b m t s := rfl
@[simp] theorem exec_vred (d : BitVec 6) (a : BitVec 6) (f : BitVec 6) (m : BitVec 3) (t : BitVec 4) (s : State) : exec (.vred d a f m t) s = execVred d a f m t s := rfl
@[simp] theorem exec_vscan (d : BitVec 6) (a : BitVec 6) (f : BitVec 6) (m : BitVec 3) (t : BitVec 4) (s : State) : exec (.vscan d a f m t) s = execVscan d a f m t s := rfl
@[simp] theorem exec_vld (v : BitVec 6) (g : BitVec 3) (m : BitVec 3) (t : BitVec 4) (s : State) : exec (.vld v g m t) s = execVld v g m t s := rfl
@[simp] theorem exec_vst (v : BitVec 6) (g : BitVec 3) (m : BitVec 3) (t : BitVec 4) (s : State) : exec (.vst v g m t) s = execVst v g m t s := rfl
@[simp] theorem exec_vldx (v : BitVec 6) (g : BitVec 3) (b : BitVec 6) (m : BitVec 3) (t : BitVec 4) (s : State) : exec (.vldx v g b m t) s = execVldx v g b m t s := rfl
@[simp] theorem exec_vstx (v : BitVec 6) (g : BitVec 3) (b : BitVec 6) (m : BitVec 3) (t : BitVec 4) (s : State) : exec (.vstx v g b m t) s = execVstx v g b m t s := rfl
@[simp] theorem exec_vdec (d : BitVec 3) (c : BitVec 3) (z : BitVec 3) (b : BitVec 6) (m : BitVec 3) (p : BitVec 1) (f : BitVec 5) (s : State) : exec (.vdec d c z b m p f) s = execVdec d c z b m p f s := rfl
@[simp] theorem exec_vcut (z : BitVec 3) (f : BitVec 6) (m : BitVec 3) (s : State) : exec (.vcut z f m) s = execVcut z f m s := rfl
@[simp] theorem exec_mcall (c : BitVec 5) (p : BitVec 1) (r : BitVec 5) (l : BitVec 2) (s : State) : exec (.mcall c p r l) s = execMcall c p r l s := rfl
@[simp] theorem exec_mlatch (c : BitVec 5) (p : BitVec 1) (l : BitVec 2) (t : BitVec 1) (s : State) : exec (.mlatch c p l t) s = execMlatch c p l t s := rfl
@[simp] theorem exec_medge (c : BitVec 5) (p : BitVec 1) (s : State) : exec (.medge c p) s = execMedge c p s := rfl
@[simp] theorem exec_mflush (c : BitVec 5) (p : BitVec 1) (s : State) : exec (.mflush c p) s = execMflush c p s := rfl
@[simp] theorem exec_mstep (c : BitVec 5) (p : BitVec 1) (im : BitVec 8) (n : BitVec 3) (s : State) : exec (.mstep c p im n) s = execMstep c p im n s := rfl
@[simp] theorem exec_mrout (c : BitVec 5) (p : BitVec 1) (e : BitVec 5) (sx : BitVec 8) (s : State) : exec (.mrout c p e sx) s = execMrout c p e sx s := rfl
@[simp] theorem exec_mstat (c : BitVec 5) (p : BitVec 1) (s : State) : exec (.mstat c p) s = execMstat c p s := rfl
@[simp] theorem exec_mdec (c : BitVec 5) (p : BitVec 1) (k : BitVec 3) (s : State) : exec (.mdec c p k) s = execMdec c p k s := rfl
@[simp] theorem exec_mcut (c : BitVec 5) (p : BitVec 1) (a : BitVec 1) (s : State) : exec (.mcut c p a) s = execMcut c p a s := rfl
@[simp] theorem exec_cpy (c : BitVec 5) (p : BitVec 1) (r : BitVec 3) (sx : BitVec 3) (f : BitVec 1) (s : State) : exec (.cpy c p r sx f) s = execCpy c p r sx f s := rfl
@[simp] theorem exec_cpys (c : BitVec 5) (p : BitVec 1) (r : BitVec 3) (sx : BitVec 3) (f : BitVec 1) (s : State) : exec (.cpys c p r sx f) s = execCpys c p r sx f s := rfl
@[simp] theorem exec_cpyg (c : BitVec 5) (p : BitVec 1) (r : BitVec 3) (sx : BitVec 3) (f : BitVec 1) (s : State) : exec (.cpyg c p r sx f) s = execCpyg c p r sx f s := rfl
@[simp] theorem exec_cpyt (c : BitVec 5) (p : BitVec 1) (r : BitVec 3) (sx : BitVec 3) (f : BitVec 1) (s : State) : exec (.cpyt c p r sx f) s = execCpyt c p r sx f s := rfl
@[simp] theorem exec_cpyx (c : BitVec 5) (p : BitVec 1) (r : BitVec 3) (sx : BitVec 3) (f : BitVec 1) (s : State) : exec (.cpyx c p r sx f) s = execCpyx c p r sx f s := rfl
@[simp] theorem exec_cpyf (c : BitVec 5) (p : BitVec 1) (r : BitVec 3) (sx : BitVec 3) (f : BitVec 1) (s : State) : exec (.cpyf c p r sx f) s = execCpyf c p r sx f s := rfl
@[simp] theorem exec_cpyw (c : BitVec 5) (p : BitVec 1) (r : BitVec 3) (sx : BitVec 3) (f : BitVec 1) (s : State) : exec (.cpyw c p r sx f) s = execCpyw c p r sx f s := rfl
@[simp] theorem exec_cpyq (c : BitVec 5) (p : BitVec 1) (r : BitVec 3) (sx : BitVec 3) (f : BitVec 1) (s : State) : exec (.cpyq c p r sx f) s = execCpyq c p r sx f s := rfl
@[simp] theorem exec_lsend (v : BitVec 6) (q : BitVec 2) (s : State) : exec (.lsend v q) s = execLsend v q s := rfl
@[simp] theorem exec_lsched (c : BitVec 5) (p : BitVec 1) (s : State) : exec (.lsched c p) s = execLsched c p s := rfl
@[simp] theorem exec_gld (c : BitVec 5) (p : BitVec 1) (g : BitVec 6) (s : State) : exec (.gld c p g) s = execGld c p g s := rfl
@[simp] theorem exec_gdef (c : BitVec 5) (p : BitVec 1) (s : State) : exec (.gdef c p) s = execGdef c p s := rfl
@[simp] theorem exec_fpost (c : BitVec 5) (p : BitVec 1) (o : BitVec 3) (sx : BitVec 3) (s : State) : exec (.fpost c p o sx) s = execFpost c p o sx s := rfl
@[simp] theorem exec_namo (c : BitVec 5) (p : BitVec 1) (o : BitVec 3) (sx : BitVec 3) (k : BitVec 4) (w : BitVec 1) (s : State) : exec (.namo c p o sx k w) s = execNamo c p o sx k w s := rfl
@[simp] theorem exec_ncas (c : BitVec 5) (p : BitVec 1) (o : BitVec 3) (sx : BitVec 3) (f : BitVec 3) (w : BitVec 1) (s : State) : exec (.ncas c p o sx f w) s = execNcas c p o sx f w s := rfl
@[simp] theorem exec_pgmap (c : BitVec 5) (p : BitVec 1) (s : State) : exec (.pgmap c p) s = execPgmap c p s := rfl
@[simp] theorem exec_pgdone (c : BitVec 5) (p : BitVec 1) (s : State) : exec (.pgdone c p) s = execPgdone c p s := rfl
@[simp] theorem exec_stepEnd (s : State) : exec .stepEnd s = execStepEnd s := rfl
@[simp] theorem exec_stepHead (sites : BitVec 8) (s : State) : exec (.stepHead sites) s = execStepHead sites s := rfl
@[simp] theorem exec_stepJoin (sites : BitVec 8) (s : State) : exec (.stepJoin sites) s = execStepJoin sites s := rfl
@[simp] theorem exec_stepAdd (sites : BitVec 8) (s : State) : exec (.stepAdd sites) s = execStepAdd sites s := rfl
@[simp] theorem exec_stepPass (sites : BitVec 8) (s : State) : exec (.stepPass sites) s = execStepPass sites s := rfl
@[simp] theorem exec_stepTail (sites : BitVec 8) (inp : BitVec 2) (s : State) : exec (.stepTail sites inp) s = execStepTail sites inp s := rfl
@[simp] theorem exec_stepFill (sites : BitVec 8) (l : BitVec 2) (t : BitVec 1) (rel : BitVec 1) (p : BitVec 3) (adv : BitVec 8) (s : State) : exec (.stepFill sites l t rel p adv) s = execStepFill sites l t rel p adv s := rfl
@[simp] theorem exec_stepSwap (sites : BitVec 8) (s : State) : exec (.stepSwap sites) s = execStepSwap sites s := rfl
@[simp] theorem exec_stepFeed (sites : BitVec 8) (src : BitVec 1) (af : BitVec 4) (ent : BitVec 8) (ag : BitVec 3) (count : BitVec 16) (scl : BitVec 1) (s : State) : exec (.stepFeed sites src af ent ag count scl) s = execStepFeed sites src af ent ag count scl s := rfl
@[simp] theorem exec_stepRepeat (count : BitVec 16) (len : BitVec 8) (cp : BitVec 1) (k : BitVec 3) (s : State) : exec (.stepRepeat count len cp k) s = execStepRepeat count len cp k s := rfl
@[simp] theorem exec_stepSync (mode : BitVec 1) (flag : BitVec 5) (s : State) : exec (.stepSync mode flag) s = execStepSync mode flag s := rfl
@[simp] theorem exec_pendingWriteLanding (n : Nat) (s : State) : exec (.pendingWriteLanding n) s = execPendingWriteLanding n s := rfl
@[simp] theorem exec_streamCompletion (n : Nat) (z : Nat) (s : State) : exec (.streamCompletion n z) s = execStreamCompletion n z s := rfl
@[simp] theorem exec_vdecDecision (n : Nat) (z : Nat) (s : State) : exec (.vdecDecision n z) s = execVdecDecision n z s := rfl
@[simp] theorem exec_watchdogExpiry (n : Nat) (s : State) : exec (.watchdogExpiry n) s = execWatchdogExpiry n s := rfl
@[simp] theorem exec_segmentLanding (n : Nat) (s : State) : exec (.segmentLanding n) s = execSegmentLanding n s := rfl
@[simp] theorem exec_taskCompletion (n : Nat) (s : State) : exec (.taskCompletion n) s = execTaskCompletion n s := rfl
@[simp] theorem exec_matrixCommandStart (n : Nat) (s : State) : exec (.matrixCommandStart n) s = execMatrixCommandStart n s := rfl
@[simp] theorem exec_fillComplete (site : Nat) (s : State) : exec (.fillComplete site) s = execFillComplete site s := rfl
@[simp] theorem exec_matrixCommandComplete (n : Nat) (s : State) : exec (.matrixCommandComplete n) s = execMatrixCommandComplete n s := rfl
@[simp] theorem exec_bedRowEntry (n : Nat) (s : State) : exec (.bedRowEntry n) s = execBedRowEntry n s := rfl
@[simp] theorem exec_linkRowArrival (n : Nat) (s : State) : exec (.linkRowArrival n) s = execLinkRowArrival n s := rfl
@[simp] theorem exec_rowDelivery (n : Nat) (s : State) : exec (.rowDelivery n) s = execRowDelivery n s := rfl
@[simp] theorem exec_mcallComplete (n : Nat) (s : State) : exec (.mcallComplete n) s = execMcallComplete n s := rfl
@[simp] theorem exec_lodeSwitch (cl : Nat) (s : State) : exec (.lodeSwitch cl) s = execLodeSwitch cl s := rfl
@[simp] theorem exec_lodeInjection (cl : Nat) (s : State) : exec (.lodeInjection cl) s = execLodeInjection cl s := rfl
@[simp] theorem exec_lodeDelivery (cl : Nat) (s : State) : exec (.lodeDelivery cl) s = execLodeDelivery cl s := rfl
@[simp] theorem exec_copyStart (n : Nat) (s : State) : exec (.copyStart n) s = execCopyStart n s := rfl
@[simp] theorem exec_retryPermit (die : Nat) (slice : Nat) (s : State) : exec (.retryPermit die slice) s = execRetryPermit die slice s := rfl
@[simp] theorem exec_copyComplete (n : Nat) (s : State) : exec (.copyComplete n) s = execCopyComplete n s := rfl
@[simp] theorem exec_networkCommandStart (n : Nat) (s : State) : exec (.networkCommandStart n) s = execNetworkCommandStart n s := rfl
@[simp] theorem exec_networkCommandComplete (n : Nat) (s : State) : exec (.networkCommandComplete n) s = execNetworkCommandComplete n s := rfl
@[simp] theorem exec_flagPostArrival (n : Nat) (s : State) : exec (.flagPostArrival n) s = execFlagPostArrival n s := rfl
@[simp] theorem exec_fabricAtomic (n : Nat) (s : State) : exec (.fabricAtomic n) s = execFabricAtomic n s := rfl
@[simp] theorem exec_requestTranslate (n : Nat) (s : State) : exec (.requestTranslate n) s = execRequestTranslate n s := rfl
@[simp] theorem exec_notify (q : Nat) (v : Nat) (s : State) : exec (.notify q v) s = execNotify q v s := rfl
@[simp] theorem exec_queuePoll (q : Nat) (s : State) : exec (.queuePoll q) s = execQueuePoll q s := rfl
@[simp] theorem exec_launch (q : Nat) (s : State) : exec (.launch q) s = execLaunch q s := rfl
@[simp] theorem exec_barrier (q : Nat) (s : State) : exec (.barrier q) s = execBarrier q s := rfl
@[simp] theorem exec_signalSet (q : Nat) (s : State) : exec (.signalSet q) s = execSignalSet q s := rfl
@[simp] theorem exec_tilePlacement (die : Nat) (s : State) : exec (.tilePlacement die) s = execTilePlacement die s := rfl
@[simp] theorem exec_signalDecrement (id : Nat) (s : State) : exec (.signalDecrement id) s = execSignalDecrement id s := rfl
@[simp] theorem exec_queueEnable (q : Nat) (s : State) : exec (.queueEnable q) s = execQueueEnable q s := rfl
@[simp] theorem exec_queueDisable (q : Nat) (s : State) : exec (.queueDisable q) s = execQueueDisable q s := rfl
@[simp] theorem exec_qctlReset (q : Nat) (skip : Nat) (s : State) : exec (.qctlReset q skip) s = execQctlReset q skip s := rfl
@[simp] theorem exec_lock (s : State) : exec .lock s = execLock s := rfl
@[simp] theorem exec_registerWrite (bar : Nat) (off : Nat) (value : Nat) (s : State) : exec (.registerWrite bar off value) s = execRegisterWrite bar off value s := rfl
@[simp] theorem exec_create (s : State) : exec .create s = execCreate s := rfl
@[simp] theorem exec_free (c : Nat) (s : State) : exec (.free c) s = execFree c s := rfl
@[simp] theorem exec_reserve (c : Nat) (s : State) : exec (.reserve c) s = execReserve c s := rfl
@[simp] theorem exec_reserveRelease (c : Nat) (s : State) : exec (.reserveRelease c) s = execReserveRelease c s := rfl
@[simp] theorem exec_alloc (c : Nat) (s : State) : exec (.alloc c) s = execAlloc c s := rfl
@[simp] theorem exec_allocRelease (c : Nat) (s : State) : exec (.allocRelease c) s = execAllocRelease c s := rfl
@[simp] theorem exec_tarea (c : Nat) (s : State) : exec (.tarea c) s = execTarea c s := rfl
@[simp] theorem exec_install (c : Nat) (s : State) : exec (.install c) s = execInstall c s := rfl
@[simp] theorem exec_image (c : Nat) (s : State) : exec (.image c) s = execImage c s := rfl
@[simp] theorem exec_imageUnreg (c : Nat) (s : State) : exec (.imageUnreg c) s = execImageUnreg c s := rfl
@[simp] theorem exec_pager (c : Nat) (s : State) : exec (.pager c) s = execPager c s := rfl
@[simp] theorem exec_preempt (c : Nat) (s : State) : exec (.preempt c) s = execPreempt c s := rfl
@[simp] theorem exec_quantumExpiry (c : Nat) (s : State) : exec (.quantumExpiry c) s = execQuantumExpiry c s := rfl
@[simp] theorem exec_arm (n : Nat) (s : State) : exec (.arm n) s = execArm n s := rfl
@[simp] theorem exec_target (c : Nat) (s : State) : exec (.target c) s = execTarget c s := rfl
@[simp] theorem exec_release (n : Nat) (s : State) : exec (.release n) s = execRelease n s := rfl
@[simp] theorem exec_contextSaved (c : Nat) (s : State) : exec (.contextSaved c) s = execContextSaved c s := rfl
@[simp] theorem exec_resume (c : Nat) (s : State) : exec (.resume c) s = execResume c s := rfl
@[simp] theorem exec_halt (s : State) : exec .halt s = execHalt s := rfl
@[simp] theorem exec_run (s : State) : exec .run s = execRun s := rfl
@[simp] theorem exec_cstep (s : State) : exec .cstep s = execCstep s := rfl
@[simp] theorem exec_bstep (n : Nat) (s : State) : exec (.bstep n) s = execBstep n s := rfl
@[simp] theorem exec_debugStepEnd (c : Nat) (s : State) : exec (.debugStepEnd c) s = execDebugStepEnd c s := rfl
@[simp] theorem exec_read (n : Nat) (s : State) : exec (.read n) s = execRead n s := rfl
@[simp] theorem exec_write (n : Nat) (s : State) : exec (.write n) s = execWrite n s := rfl
@[simp] theorem exec_brken (s : State) : exec .brken s = execBrken s := rfl
@[simp] theorem exec_quiesce (die : Nat) (s : State) : exec (.quiesce die) s = execQuiesce die s := rfl
@[simp] theorem exec_linkstop (die : Nat) (s : State) : exec (.linkstop die) s = execLinkstop die s := rfl
@[simp] theorem exec_linkstopDone (die : Nat) (s : State) : exec (.linkstopDone die) s = execLinkstopDone die s := rfl
@[simp] theorem exec_writeback (die : Nat) (s : State) : exec (.writeback die) s = execWriteback die s := rfl
@[simp] theorem exec_writebackDone (die : Nat) (s : State) : exec (.writebackDone die) s = execWritebackDone die s := rfl
@[simp] theorem exec_drctlReset (die : Nat) (s : State) : exec (.drctlReset die) s = execDrctlReset die s := rfl
@[simp] theorem exec_resetDone (die : Nat) (s : State) : exec (.resetDone die) s = execResetDone die s := rfl
@[simp] theorem exec_drctlRetrain (die : Nat) (s : State) : exec (.drctlRetrain die) s = execDrctlRetrain die s := rfl
@[simp] theorem exec_trained (die : Nat) (ok : Nat) (s : State) : exec (.trained die ok) s = execTrained die ok s := rfl
@[simp] theorem exec_admitCmd (die : Nat) (s : State) : exec (.admitCmd die) s = execAdmit die s := rfl
@[simp] theorem exec_admitDone (die : Nat) (ok : Nat) (s : State) : exec (.admitDone die ok) s = execAdmitDone die ok s := rfl
@[simp] theorem exec_head (s : State) : exec .head s = execHead s := rfl
@[simp] theorem exec_seal (s : State) : exec .seal s = execSeal s := rfl
@[simp] theorem exec_scrub (place : Nat) (found : Nat) (s : State) : exec (.scrub place found) s = execScrub place found s := rfl
@[simp] theorem exec_retire (site : Nat) (s : State) : exec (.retire site) s = execRetire site s := rfl
@[simp] theorem exec_thresholdRetirement (site : Nat) (s : State) : exec (.thresholdRetirement site) s = execThresholdRetirement site s := rfl
@[simp] theorem exec_linkFailed (l : Nat) (s : State) : exec (.linkFailed l) s = execLinkFailed l s := rfl
@[simp] theorem exec_portDown (p : Nat) (s : State) : exec (.portDown p) s = execPortDown p s := rfl
@[simp] theorem exec_enable (p : Nat) (s : State) : exec (.enable p) s = execEnable p s := rfl
@[simp] theorem exec_disable (p : Nat) (s : State) : exec (.disable p) s = execDisable p s := rfl
@[simp] theorem exec_pctlRetrain (p : Nat) (s : State) : exec (.pctlRetrain p) s = execPctlRetrain p s := rfl
@[simp] theorem exec_cxlPortFailure (port : Nat) (s : State) : exec (.cxlPortFailure port) s = execCxlPortFailure port s := rfl
@[simp] theorem exec_clockStep (power : Nat) (temp : Nat) (s : State) : exec (.clockStep power temp) s = execClockStep power temp s := rfl
@[simp] theorem exec_thermalTrip (temp : Nat) (s : State) : exec (.thermalTrip temp) s = execThermalTrip temp s := rfl
@[simp] theorem exec_measuredStart (stage : Nat) (s : State) : exec (.measuredStart stage) s = execMeasuredStart stage s := rfl
@[simp] theorem exec_getMeasurements (s : State) : exec .getMeasurements s = execGetMeasurements s := rfl
@[simp] theorem exec_periodBoundary (cl : Nat) (s : State) : exec (.periodBoundary cl) s = execPeriodBoundary cl s := rfl
@[simp] theorem exec_linkReplay (port : Nat) (idx : Nat) (fec : Nat) (s : State) : exec (.linkReplay port idx fec) s = execLinkReplay port idx fec s := rfl
@[simp] theorem exec_portTrainingDone (p : Nat) (s : State) : exec (.portTrainingDone p) s = execPortTrainingDone p s := rfl
@[simp] theorem exec_portDegraded (p : Nat) (s : State) : exec (.portDegraded p) s = execPortDegraded p s := rfl
@[simp] theorem exec_cxlPortTrained (port : Nat) (cap : Nat) (s : State) : exec (.cxlPortTrained port cap) s = execCxlPortTrained port cap s := rfl
@[simp] theorem exec_firmwarePush (ok : Nat) (s : State) : exec (.firmwarePush ok) s = execFirmwarePush ok s := rfl

end Sys2Proof.Laws
end

