-- ==== Sys2Proof/Laws/Encoding.lean ====
section
/-! SUPPORT. How a field is read back from a word put together of fields: the laws that a round trip of an encoding needs. -/

namespace Sys2Proof.Laws
open Sys2Proof.Machine

theorem bits_or {n : Nat} (x y : BitVec n) (lo len : Nat) : bits (x ||| y) lo len = bits x lo len ||| bits y lo len := by
  apply BitVec.eq_of_getLsbD_eq
  intro i hi
  simp [bits, Bool.and_or_distrib_left]

@[simp] theorem bits_zero_word (lo len : Nat) : bits (0#32) lo len = 0#len := by simp [bits]

@[simp] theorem bits_zero_step (lo len : Nat) : bits (0#64) lo len = 0#len := by simp [bits]

/-- A field is read back from its own place. -/
theorem bits_field_self {n w : Nat} (x : BitVec w) (lo : Nat) (h : lo + w ≤ n) : bits (field n lo x) lo w = x := by
  apply BitVec.eq_of_getLsbD_eq
  intro i hi
  simp [bits, field]
  grind

/-- Above a field nothing of it is read. -/
theorem bits_field_above {n w : Nat} (x : BitVec w) (l lo len : Nat) (h : l + w ≤ lo) : bits (field n l x) lo len = 0#len := by
  apply BitVec.eq_of_getLsbD_eq
  intro i hi
  simp [bits, field]
  grind

/-- Below a field nothing of it is read. -/
theorem bits_field_below {n w : Nat} (x : BitVec w) (l lo len : Nat) (h : lo + len ≤ l) : bits (field n l x) lo len = 0#len := by
  apply BitVec.eq_of_getLsbD_eq
  intro i hi
  simp [bits, field]
  grind

end Sys2Proof.Laws
end

