-- ==== Sys2Proof/Laws/Memory.lean ====
section
/-! SUPPORT. The laws of memory: the canonical form is kept by every memory operation, a read after a write, and what a
write leaves alone. -/

namespace Sys2Proof.Laws
open Sys2Proof.Machine

/-! ## The canonical form -/

theorem wf_cons (j : Nat) (x : Byte) (r : List Host.Cell) :
    Memory.wf ((j, x) :: r) = true ↔ x ≠ 0 ∧ (∀ c ∈ r, j < c.1) ∧ Memory.wf r = true := by
  induction r generalizing j x with
  | nil => simp [Memory.wf]
  | cons c r ih =>
    obtain ⟨k, y⟩ := c
    rw [Memory.wf]
    simp only [Bool.and_eq_true, decide_eq_true_eq, bne_iff_ne, ne_eq, List.mem_cons, forall_eq_or_imp]
    constructor
    · rintro ⟨⟨hx, hjk⟩, hw⟩
      exact ⟨hx, ⟨hjk, fun c hc => lt_trans hjk (((ih k y).1 hw).2.1 c hc)⟩, hw⟩
    · rintro ⟨hx, ⟨hjk, -⟩, hw⟩
      exact ⟨⟨hx, hjk⟩, hw⟩

theorem wf_filter (p : Host.Cell → Bool) (m : List Host.Cell) (h : Memory.wf m = true) : Memory.wf (m.filter p) = true := by
  induction m with
  | nil => simpa using h
  | cons c r ih =>
    obtain ⟨j, x⟩ := c
    rw [wf_cons] at h
    by_cases hp : p (j, x) = true
    · rw [List.filter_cons_of_pos hp, wf_cons]
      exact ⟨h.1, fun c hc => h.2.1 c (List.mem_of_mem_filter hc), ih h.2.2⟩
    · rw [List.filter_cons_of_neg hp]
      exact ih h.2.2

theorem mem_memDrop (m : List Host.Cell) (a : Nat) (c : Host.Cell) (h : c ∈ memDrop m a) : c ∈ m := by
  induction m with
  | nil => simp [memDrop] at h
  | cons e r ih =>
    obtain ⟨j, x⟩ := e
    simp only [memDrop] at h
    split at h
    · exact List.mem_cons_of_mem _ h
    · split at h
      · exact h
      · rcases List.mem_cons.1 h with h | h
        · exact h ▸ List.mem_cons_self
        · exact List.mem_cons_of_mem _ (ih h)

theorem mem_memIns (m : List Host.Cell) (a : Nat) (b : Byte) (c : Host.Cell) (h : c ∈ memIns m a b) : c = (a, b) ∨ c ∈ m := by
  induction m with
  | nil => simpa [memIns] using h
  | cons e r ih =>
    obtain ⟨j, x⟩ := e
    simp only [memIns] at h
    split at h
    · simpa using h
    · split at h
      · rcases List.mem_cons.1 h with h | h
        · exact .inl h
        · exact .inr (List.mem_cons_of_mem _ h)
      · rcases List.mem_cons.1 h with h | h
        · exact .inr (h ▸ List.mem_cons_self)
        · exact (ih h).imp id (List.mem_cons_of_mem _)

theorem wf_memDrop (m : List Host.Cell) (a : Nat) (h : Memory.wf m = true) : Memory.wf (memDrop m a) = true := by
  induction m with
  | nil => simpa [memDrop] using h
  | cons e r ih =>
    obtain ⟨j, x⟩ := e
    have h' := (wf_cons j x r).1 h
    simp only [memDrop]
    split
    · exact h'.2.2
    · split
      · exact h
      · exact (wf_cons _ _ _).2 ⟨h'.1, fun c hc => h'.2.1 c (mem_memDrop r a c hc), ih h'.2.2⟩

theorem wf_memIns (m : List Host.Cell) (a : Nat) (b : Byte) (hb : b ≠ 0) (h : Memory.wf m = true) :
    Memory.wf (memIns m a b) = true := by
  induction m with
  | nil => simpa [memIns, Memory.wf] using hb
  | cons e r ih =>
    obtain ⟨j, x⟩ := e
    have h' := (wf_cons j x r).1 h
    simp only [memIns]
    split
    next haj =>
      refine (wf_cons _ _ _).2 ⟨hb, fun c hc => ?_, h⟩
      rcases List.mem_cons.1 hc with rfl | hc
      · exact haj
      · exact haj.trans (h'.2.1 c hc)
    next haj =>
      split
      next hja => exact (wf_cons _ _ _).2 ⟨hb, fun c hc => hja ▸ h'.2.1 c hc, h'.2.2⟩
      next hja =>
        refine (wf_cons _ _ _).2 ⟨h'.1, fun c hc => ?_, ih h'.2.2⟩
        rcases mem_memIns r a b c hc with rfl | hc
        · show j < a
          omega
        · exact h'.2.1 c hc

/-- A byte written keeps the canonical form. -/
theorem wf_memSet (m : List Host.Cell) (a : Nat) (b : Byte) (h : Memory.wf m = true) : Memory.wf (memSet m a b) = true := by
  unfold memSet
  split
  · exact wf_memDrop m a h
  · next hb => exact wf_memIns m a b hb h

theorem wf_memWrite (l : List Byte) (m : List Host.Cell) (a : Nat) (h : Memory.wf m = true) :
    Memory.wf (memWrite m a l) = true := by
  induction l generalizing m a with
  | nil => exact h
  | cons b r ih => exact ih _ _ (wf_memSet m a b h)

theorem wf_memClear (m : List Host.Cell) (a n : Nat) (h : Memory.wf m = true) : Memory.wf (memClear m a n) = true :=
  wf_filter _ m h

theorem wf_writeBytes (s : State) (a : Nat) (l : List Byte) (h : Memory.wf s.mem = true) :
    Memory.wf (writeBytes s a l).mem = true := wf_memWrite l s.mem a h

theorem wf_writeNat (s : State) (a n x : Nat) (h : Memory.wf s.mem = true) : Memory.wf (writeNat s a n x).mem = true :=
  wf_writeBytes s a _ h

theorem wf_clearRange (s : State) (a n : Nat) (h : Memory.wf s.mem = true) : Memory.wf (clearRange s a n).mem = true :=
  wf_memClear s.mem a n h

theorem wf_performStores (l : List StoreOp) (s : State) (h : Memory.wf s.mem = true) :
    Memory.wf (performStores l s).mem = true := by
  induction l generalizing s with
  | nil => exact h
  | cons o r ih => exact ih _ (wf_writeBytes s _ _ h)

/-! ## Reads and writes -/

/-- A place below every listed one reads as zero. -/
theorem memGet_below (m : List Host.Cell) (a : Nat) (h : ∀ c ∈ m, a < c.1) : memGet m a = 0 := by
  cases m with
  | nil => rfl
  | cons e r =>
    have := h e List.mem_cons_self
    obtain ⟨j, x⟩ := e
    simp only at this
    simp only [memGet]
    rw [if_neg (by omega), if_pos this]

theorem memGet_memIns (m : List Host.Cell) (a c : Nat) (b : Byte) (h : Memory.wf m = true) :
    memGet (memIns m a b) c = if c = a then b else memGet m c := by
  induction m with
  | nil => simp only [memIns, memGet]; grind
  | cons e r ih =>
    obtain ⟨j, x⟩ := e
    have h' := (wf_cons j x r).1 h
    have hb := memGet_below r
    have := ih h'.2.2
    simp only [memIns]
    grind [memGet]

theorem memGet_memDrop (m : List Host.Cell) (a c : Nat) (h : Memory.wf m = true) :
    memGet (memDrop m a) c = if c = a then 0 else memGet m c := by
  induction m with
  | nil => simp only [memDrop, memGet]; grind
  | cons e r ih =>
    obtain ⟨j, x⟩ := e
    have h' := (wf_cons j x r).1 h
    have := ih h'.2.2
    have hb : c ≤ j → memGet r c = 0 := fun hc => memGet_below r c (fun e he => lt_of_le_of_lt hc (h'.2.1 e he))
    simp only [memDrop]
    grind [memGet]

/-- A read after a write of one byte. -/
theorem memGet_memSet (m : List Host.Cell) (a c : Nat) (b : Byte) (h : Memory.wf m = true) :
    memGet (memSet m a b) c = if c = a then b else memGet m c := by
  unfold memSet
  split
  next hb => rw [memGet_memDrop m a c h, hb]
  next => exact memGet_memIns m a c b h

/-- A read after a write of consecutive bytes. -/
theorem memGet_memWrite (l : List Byte) (m : List Host.Cell) (a c : Nat) (h : Memory.wf m = true) :
    memGet (memWrite m a l) c = if a ≤ c ∧ c < a + l.length then l.getD (c - a) 0 else memGet m c := by
  induction l generalizing m a with
  | nil => simp only [memWrite, List.length_nil]; grind
  | cons b r ih =>
    rw [memWrite, ih _ _ (wf_memSet m a b h), memGet_memSet m a c b h]
    by_cases hc : c = a
    · subst hc
      simp
    · by_cases hr : a + 1 ≤ c ∧ c < a + 1 + r.length
      · have e : c - a = (c - (a + 1)) + 1 := by omega
        rw [if_pos hr, if_pos (by simp only [List.length_cons]; omega), e, List.getD_cons_succ]
      · rw [if_neg hr, if_neg hc, if_neg (by simp only [List.length_cons]; omega)]

theorem memGet_memClear (m : List Host.Cell) (a n c : Nat) (h : Memory.wf m = true) :
    memGet (memClear m a n) c = if a ≤ c ∧ c < a + n then 0 else memGet m c := by
  induction m with
  | nil => simp [memClear, memGet]
  | cons e r ih =>
    obtain ⟨j, x⟩ := e
    have h' := (wf_cons j x r).1 h
    have hr := ih h'.2.2
    have hb : c ≤ j → memGet r c = 0 := fun hc => memGet_below r c (fun e he => lt_of_le_of_lt hc (h'.2.1 e he))
    unfold memClear at hr ⊢
    rw [List.filter_cons]
    grind [memGet]

end Sys2Proof.Laws
end

