-- ==== Sys2Proof/Laws/PerInstr.lean ====
section
/-! SUPPORT. Facts about every instruction as syntax, one lemma per constructor: the slots it may stand in. -/

namespace Sys2Proof.Laws

/-- The slots an operation may stand in are slots of a bundle (01 R12, R13), each named once; a micro-step and a step of
another agent stand in none. -/
def Slots.Statement (i : Instr) : Prop :=
  (∀ k ∈ slotsOf i, k < 8) ∧ (slotsOf i).Nodup ∧ (isStep i = true → slotsOf i = [])

/-- What the lemmas below show of a list of slots by its value. -/
theorem Slots.of_list {i : Instr} (l : List Nat) (h : slotsOf i = l) (hl : l.all (fun k => decide (k < 8)) = true)
    (hn : l.Nodup) (hs : l = [] ∨ isStep i = false) : Slots.Statement i := by
  subst h
  refine ⟨by simpa using hl, hn, fun hi => ?_⟩
  rcases hs with hs | hs
  · exact hs
  · rw [hs] at hi
    cases hi

theorem Slots.nodup0 : ([0, 1, 2, 3, 4, 5, 6, 7] : List Nat).Nodup := by decide
theorem Slots.nodup1 : ([0] : List Nat).Nodup := by decide
theorem Slots.nodup2 : ([1, 2] : List Nat).Nodup := by decide
theorem Slots.nodup3 : ([2] : List Nat).Nodup := by decide
theorem Slots.nodup4 : ([1] : List Nat).Nodup := by decide
theorem Slots.nodup5 : ([3] : List Nat).Nodup := by decide
theorem Slots.nodup6 : ([4] : List Nat).Nodup := by decide
theorem Slots.nodup7 : ([5] : List Nat).Nodup := by decide
theorem Slots.nodup8 : ([6] : List Nat).Nodup := by decide
theorem Slots.nodup9 : ([7] : List Nat).Nodup := by decide
theorem Slots.nodup10 : ([] : List Nat).Nodup := by decide

theorem Slots.nop : Slots.Statement (.nop) := Slots.of_list [0, 1, 2, 3, 4, 5, 6, 7] rfl rfl Slots.nodup0 (.inr rfl)
theorem Slots.wait (x_f : BitVec 5) (x_o : BitVec 3) (x_t : BitVec 16) : Slots.Statement (.wait x_f x_o x_t) := Slots.of_list [0] rfl rfl Slots.nodup1 (.inr rfl)
theorem Slots.waitc (x_f : BitVec 5) (x_o : BitVec 3) (x_t : BitVec 16) : Slots.Statement (.waitc x_f x_o x_t) := Slots.of_list [0] rfl rfl Slots.nodup1 (.inr rfl)
theorem Slots.post (x_f : BitVec 5) (x_o : BitVec 3) (x_s : BitVec 3) (x_n : BitVec 16) : Slots.Statement (.post x_f x_o x_s x_n) := Slots.of_list [0] rfl rfl Slots.nodup1 (.inr rfl)
theorem Slots.clrf (x_f : BitVec 5) : Slots.Statement (.clrf x_f) := Slots.of_list [0] rfl rfl Slots.nodup1 (.inr rfl)
theorem Slots.quiet (x_l : BitVec 16) : Slots.Statement (.quiet x_l) := Slots.of_list [0] rfl rfl Slots.nodup1 (.inr rfl)
theorem Slots.segb (x_s : BitVec 6) : Slots.Statement (.segb x_s) := Slots.of_list [0] rfl rfl Slots.nodup1 (.inr rfl)
theorem Slots.brk (x_c : BitVec 16) : Slots.Statement (.brk x_c) := Slots.of_list [0] rfl rfl Slots.nodup1 (.inr rfl)
theorem Slots.trapi (x_c : BitVec 16) : Slots.Statement (.trapi x_c) := Slots.of_list [0] rfl rfl Slots.nodup1 (.inr rfl)
theorem Slots.drain (x_s : BitVec 3) : Slots.Statement (.drain x_s) := Slots.of_list [0] rfl rfl Slots.nodup1 (.inr rfl)
theorem Slots.endOp : Slots.Statement (.endOp) := Slots.of_list [0] rfl rfl Slots.nodup1 (.inr rfl)
theorem Slots.add (x_d : BitVec 6) (x_a : BitVec 6) (x_b : BitVec 6) : Slots.Statement (.add x_d x_a x_b) := Slots.of_list [1, 2] rfl rfl Slots.nodup2 (.inr rfl)
theorem Slots.sub (x_d : BitVec 6) (x_a : BitVec 6) (x_b : BitVec 6) : Slots.Statement (.sub x_d x_a x_b) := Slots.of_list [1, 2] rfl rfl Slots.nodup2 (.inr rfl)
theorem Slots.and (x_d : BitVec 6) (x_a : BitVec 6) (x_b : BitVec 6) : Slots.Statement (.and x_d x_a x_b) := Slots.of_list [1, 2] rfl rfl Slots.nodup2 (.inr rfl)
theorem Slots.or (x_d : BitVec 6) (x_a : BitVec 6) (x_b : BitVec 6) : Slots.Statement (.or x_d x_a x_b) := Slots.of_list [1, 2] rfl rfl Slots.nodup2 (.inr rfl)
theorem Slots.xor (x_d : BitVec 6) (x_a : BitVec 6) (x_b : BitVec 6) : Slots.Statement (.xor x_d x_a x_b) := Slots.of_list [1, 2] rfl rfl Slots.nodup2 (.inr rfl)
theorem Slots.andn (x_d : BitVec 6) (x_a : BitVec 6) (x_b : BitVec 6) : Slots.Statement (.andn x_d x_a x_b) := Slots.of_list [1, 2] rfl rfl Slots.nodup2 (.inr rfl)
theorem Slots.shl (x_d : BitVec 6) (x_a : BitVec 6) (x_b : BitVec 6) : Slots.Statement (.shl x_d x_a x_b) := Slots.of_list [1, 2] rfl rfl Slots.nodup2 (.inr rfl)
theorem Slots.shr (x_d : BitVec 6) (x_a : BitVec 6) (x_b : BitVec 6) : Slots.Statement (.shr x_d x_a x_b) := Slots.of_list [1, 2] rfl rfl Slots.nodup2 (.inr rfl)
theorem Slots.sar (x_d : BitVec 6) (x_a : BitVec 6) (x_b : BitVec 6) : Slots.Statement (.sar x_d x_a x_b) := Slots.of_list [1, 2] rfl rfl Slots.nodup2 (.inr rfl)
theorem Slots.rotl (x_d : BitVec 6) (x_a : BitVec 6) (x_b : BitVec 6) : Slots.Statement (.rotl x_d x_a x_b) := Slots.of_list [1, 2] rfl rfl Slots.nodup2 (.inr rfl)
theorem Slots.min (x_d : BitVec 6) (x_a : BitVec 6) (x_b : BitVec 6) : Slots.Statement (.min x_d x_a x_b) := Slots.of_list [1, 2] rfl rfl Slots.nodup2 (.inr rfl)
theorem Slots.max (x_d : BitVec 6) (x_a : BitVec 6) (x_b : BitVec 6) : Slots.Statement (.max x_d x_a x_b) := Slots.of_list [1, 2] rfl rfl Slots.nodup2 (.inr rfl)
theorem Slots.minu (x_d : BitVec 6) (x_a : BitVec 6) (x_b : BitVec 6) : Slots.Statement (.minu x_d x_a x_b) := Slots.of_list [1, 2] rfl rfl Slots.nodup2 (.inr rfl)
theorem Slots.maxu (x_d : BitVec 6) (x_a : BitVec 6) (x_b : BitVec 6) : Slots.Statement (.maxu x_d x_a x_b) := Slots.of_list [1, 2] rfl rfl Slots.nodup2 (.inr rfl)
theorem Slots.mov (x_d : BitVec 6) (x_a : BitVec 6) : Slots.Statement (.mov x_d x_a) := Slots.of_list [1, 2] rfl rfl Slots.nodup2 (.inr rfl)
theorem Slots.mul (x_d : BitVec 6) (x_a : BitVec 6) (x_b : BitVec 6) : Slots.Statement (.mul x_d x_a x_b) := Slots.of_list [1, 2] rfl rfl Slots.nodup2 (.inr rfl)
theorem Slots.mulh (x_d : BitVec 6) (x_a : BitVec 6) (x_b : BitVec 6) : Slots.Statement (.mulh x_d x_a x_b) := Slots.of_list [1, 2] rfl rfl Slots.nodup2 (.inr rfl)
theorem Slots.mulhu (x_d : BitVec 6) (x_a : BitVec 6) (x_b : BitVec 6) : Slots.Statement (.mulhu x_d x_a x_b) := Slots.of_list [1, 2] rfl rfl Slots.nodup2 (.inr rfl)
theorem Slots.div (x_d : BitVec 6) (x_a : BitVec 6) (x_b : BitVec 6) : Slots.Statement (.div x_d x_a x_b) := Slots.of_list [2] rfl rfl Slots.nodup3 (.inr rfl)
theorem Slots.divu (x_d : BitVec 6) (x_a : BitVec 6) (x_b : BitVec 6) : Slots.Statement (.divu x_d x_a x_b) := Slots.of_list [2] rfl rfl Slots.nodup3 (.inr rfl)
theorem Slots.rem (x_d : BitVec 6) (x_a : BitVec 6) (x_b : BitVec 6) : Slots.Statement (.rem x_d x_a x_b) := Slots.of_list [2] rfl rfl Slots.nodup3 (.inr rfl)
theorem Slots.remu (x_d : BitVec 6) (x_a : BitVec 6) (x_b : BitVec 6) : Slots.Statement (.remu x_d x_a x_b) := Slots.of_list [2] rfl rfl Slots.nodup3 (.inr rfl)
theorem Slots.sel (x_d : BitVec 6) (x_a : BitVec 6) (x_b : BitVec 6) (x_c : BitVec 6) : Slots.Statement (.sel x_d x_a x_b x_c) := Slots.of_list [1, 2] rfl rfl Slots.nodup2 (.inr rfl)
theorem Slots.clz (x_d : BitVec 6) (x_a : BitVec 6) : Slots.Statement (.clz x_d x_a) := Slots.of_list [1, 2] rfl rfl Slots.nodup2 (.inr rfl)
theorem Slots.ctz (x_d : BitVec 6) (x_a : BitVec 6) : Slots.Statement (.ctz x_d x_a) := Slots.of_list [1, 2] rfl rfl Slots.nodup2 (.inr rfl)
theorem Slots.popc (x_d : BitVec 6) (x_a : BitVec 6) : Slots.Statement (.popc x_d x_a) := Slots.of_list [1, 2] rfl rfl Slots.nodup2 (.inr rfl)
theorem Slots.bext (x_d : BitVec 6) (x_a : BitVec 6) (x_b : BitVec 6) : Slots.Statement (.bext x_d x_a x_b) := Slots.of_list [1, 2] rfl rfl Slots.nodup2 (.inr rfl)
theorem Slots.bins (x_d : BitVec 6) (x_a : BitVec 6) (x_b : BitVec 6) (x_c : BitVec 6) : Slots.Statement (.bins x_d x_a x_b x_c) := Slots.of_list [1, 2] rfl rfl Slots.nodup2 (.inr rfl)
theorem Slots.sext (x_d : BitVec 6) (x_a : BitVec 6) (x_n : BitVec 6) : Slots.Statement (.sext x_d x_a x_n) := Slots.of_list [1, 2] rfl rfl Slots.nodup2 (.inr rfl)
theorem Slots.zext (x_d : BitVec 6) (x_a : BitVec 6) (x_n : BitVec 6) : Slots.Statement (.zext x_d x_a x_n) := Slots.of_list [1, 2] rfl rfl Slots.nodup2 (.inr rfl)
theorem Slots.ceq (x_d : BitVec 6) (x_a : BitVec 6) (x_b : BitVec 6) : Slots.Statement (.ceq x_d x_a x_b) := Slots.of_list [1, 2] rfl rfl Slots.nodup2 (.inr rfl)
theorem Slots.cne (x_d : BitVec 6) (x_a : BitVec 6) (x_b : BitVec 6) : Slots.Statement (.cne x_d x_a x_b) := Slots.of_list [1, 2] rfl rfl Slots.nodup2 (.inr rfl)
theorem Slots.clt (x_d : BitVec 6) (x_a : BitVec 6) (x_b : BitVec 6) : Slots.Statement (.clt x_d x_a x_b) := Slots.of_list [1, 2] rfl rfl Slots.nodup2 (.inr rfl)
theorem Slots.cltu (x_d : BitVec 6) (x_a : BitVec 6) (x_b : BitVec 6) : Slots.Statement (.cltu x_d x_a x_b) := Slots.of_list [1, 2] rfl rfl Slots.nodup2 (.inr rfl)
theorem Slots.cle (x_d : BitVec 6) (x_a : BitVec 6) (x_b : BitVec 6) : Slots.Statement (.cle x_d x_a x_b) := Slots.of_list [1, 2] rfl rfl Slots.nodup2 (.inr rfl)
theorem Slots.cleu (x_d : BitVec 6) (x_a : BitVec 6) (x_b : BitVec 6) : Slots.Statement (.cleu x_d x_a x_b) := Slots.of_list [1, 2] rfl rfl Slots.nodup2 (.inr rfl)
theorem Slots.addi (x_d : BitVec 6) (x_a : BitVec 6) (x_i : BitVec 13) : Slots.Statement (.addi x_d x_a x_i) := Slots.of_list [1, 2] rfl rfl Slots.nodup2 (.inr rfl)
theorem Slots.andi (x_d : BitVec 6) (x_a : BitVec 6) (x_i : BitVec 13) : Slots.Statement (.andi x_d x_a x_i) := Slots.of_list [1, 2] rfl rfl Slots.nodup2 (.inr rfl)
theorem Slots.ori (x_d : BitVec 6) (x_a : BitVec 6) (x_i : BitVec 13) : Slots.Statement (.ori x_d x_a x_i) := Slots.of_list [1, 2] rfl rfl Slots.nodup2 (.inr rfl)
theorem Slots.xori (x_d : BitVec 6) (x_a : BitVec 6) (x_i : BitVec 13) : Slots.Statement (.xori x_d x_a x_i) := Slots.of_list [1, 2] rfl rfl Slots.nodup2 (.inr rfl)
theorem Slots.shli (x_d : BitVec 6) (x_a : BitVec 6) (x_n : BitVec 6) : Slots.Statement (.shli x_d x_a x_n) := Slots.of_list [1, 2] rfl rfl Slots.nodup2 (.inr rfl)
theorem Slots.shri (x_d : BitVec 6) (x_a : BitVec 6) (x_n : BitVec 6) : Slots.Statement (.shri x_d x_a x_n) := Slots.of_list [1, 2] rfl rfl Slots.nodup2 (.inr rfl)
theorem Slots.sari (x_d : BitVec 6) (x_a : BitVec 6) (x_n : BitVec 6) : Slots.Statement (.sari x_d x_a x_n) := Slots.of_list [1, 2] rfl rfl Slots.nodup2 (.inr rfl)
theorem Slots.ceqi (x_d : BitVec 6) (x_a : BitVec 6) (x_i : BitVec 13) : Slots.Statement (.ceqi x_d x_a x_i) := Slots.of_list [1, 2] rfl rfl Slots.nodup2 (.inr rfl)
theorem Slots.clti (x_d : BitVec 6) (x_a : BitVec 6) (x_i : BitVec 13) : Slots.Statement (.clti x_d x_a x_i) := Slots.of_list [1, 2] rfl rfl Slots.nodup2 (.inr rfl)
theorem Slots.cltui (x_d : BitVec 6) (x_a : BitVec 6) (x_i : BitVec 13) : Slots.Statement (.cltui x_d x_a x_i) := Slots.of_list [1, 2] rfl rfl Slots.nodup2 (.inr rfl)
theorem Slots.lui (x_d : BitVec 6) (x_i : BitVec 19) : Slots.Statement (.lui x_d x_i) := Slots.of_list [1, 2] rfl rfl Slots.nodup2 (.inr rfl)
theorem Slots.movi (x_d : BitVec 6) (x_i : BitVec 19) : Slots.Statement (.movi x_d x_i) := Slots.of_list [1, 2] rfl rfl Slots.nodup2 (.inr rfl)
theorem Slots.stg (x_s : BitVec 6) (x_a : BitVec 6) : Slots.Statement (.stg x_s x_a) := Slots.of_list [1, 2] rfl rfl Slots.nodup2 (.inr rfl)
theorem Slots.stgi (x_s : BitVec 6) (x_q : BitVec 2) (x_i : BitVec 16) : Slots.Statement (.stgi x_s x_q x_i) := Slots.of_list [1, 2] rfl rfl Slots.nodup2 (.inr rfl)
theorem Slots.srd (x_d : BitVec 6) (x_r : BitVec 12) : Slots.Statement (.srd x_d x_r) := Slots.of_list [2] rfl rfl Slots.nodup3 (.inr rfl)
theorem Slots.swr (x_a : BitVec 6) (x_r : BitVec 12) : Slots.Statement (.swr x_a x_r) := Slots.of_list [2] rfl rfl Slots.nodup3 (.inr rfl)
theorem Slots.ldI8 (x_d : BitVec 6) (x_b : BitVec 6) (x_o : BitVec 13) : Slots.Statement (.ldI8 x_d x_b x_o) := Slots.of_list [2] rfl rfl Slots.nodup3 (.inr rfl)
theorem Slots.ldN8 (x_d : BitVec 6) (x_b : BitVec 6) (x_o : BitVec 13) : Slots.Statement (.ldN8 x_d x_b x_o) := Slots.of_list [2] rfl rfl Slots.nodup3 (.inr rfl)
theorem Slots.ldI16 (x_d : BitVec 6) (x_b : BitVec 6) (x_o : BitVec 13) : Slots.Statement (.ldI16 x_d x_b x_o) := Slots.of_list [2] rfl rfl Slots.nodup3 (.inr rfl)
theorem Slots.ldN16 (x_d : BitVec 6) (x_b : BitVec 6) (x_o : BitVec 13) : Slots.Statement (.ldN16 x_d x_b x_o) := Slots.of_list [2] rfl rfl Slots.nodup3 (.inr rfl)
theorem Slots.ldI32 (x_d : BitVec 6) (x_b : BitVec 6) (x_o : BitVec 13) : Slots.Statement (.ldI32 x_d x_b x_o) := Slots.of_list [2] rfl rfl Slots.nodup3 (.inr rfl)
theorem Slots.ldN32 (x_d : BitVec 6) (x_b : BitVec 6) (x_o : BitVec 13) : Slots.Statement (.ldN32 x_d x_b x_o) := Slots.of_list [2] rfl rfl Slots.nodup3 (.inr rfl)
theorem Slots.ldI64 (x_d : BitVec 6) (x_b : BitVec 6) (x_o : BitVec 13) : Slots.Statement (.ldI64 x_d x_b x_o) := Slots.of_list [2] rfl rfl Slots.nodup3 (.inr rfl)
theorem Slots.ldsI8 (x_d : BitVec 6) (x_b : BitVec 6) (x_o : BitVec 13) : Slots.Statement (.ldsI8 x_d x_b x_o) := Slots.of_list [2] rfl rfl Slots.nodup3 (.inr rfl)
theorem Slots.ldsN8 (x_d : BitVec 6) (x_b : BitVec 6) (x_o : BitVec 13) : Slots.Statement (.ldsN8 x_d x_b x_o) := Slots.of_list [2] rfl rfl Slots.nodup3 (.inr rfl)
theorem Slots.ldsI16 (x_d : BitVec 6) (x_b : BitVec 6) (x_o : BitVec 13) : Slots.Statement (.ldsI16 x_d x_b x_o) := Slots.of_list [2] rfl rfl Slots.nodup3 (.inr rfl)
theorem Slots.ldsN16 (x_d : BitVec 6) (x_b : BitVec 6) (x_o : BitVec 13) : Slots.Statement (.ldsN16 x_d x_b x_o) := Slots.of_list [2] rfl rfl Slots.nodup3 (.inr rfl)
theorem Slots.ldsI32 (x_d : BitVec 6) (x_b : BitVec 6) (x_o : BitVec 13) : Slots.Statement (.ldsI32 x_d x_b x_o) := Slots.of_list [2] rfl rfl Slots.nodup3 (.inr rfl)
theorem Slots.ldsN32 (x_d : BitVec 6) (x_b : BitVec 6) (x_o : BitVec 13) : Slots.Statement (.ldsN32 x_d x_b x_o) := Slots.of_list [2] rfl rfl Slots.nodup3 (.inr rfl)
theorem Slots.ldsI64 (x_d : BitVec 6) (x_b : BitVec 6) (x_o : BitVec 13) : Slots.Statement (.ldsI64 x_d x_b x_o) := Slots.of_list [2] rfl rfl Slots.nodup3 (.inr rfl)
theorem Slots.ldaI32 (x_d : BitVec 6) (x_b : BitVec 6) (x_o : BitVec 13) : Slots.Statement (.ldaI32 x_d x_b x_o) := Slots.of_list [2] rfl rfl Slots.nodup3 (.inr rfl)
theorem Slots.ldaN32 (x_d : BitVec 6) (x_b : BitVec 6) (x_o : BitVec 13) : Slots.Statement (.ldaN32 x_d x_b x_o) := Slots.of_list [2] rfl rfl Slots.nodup3 (.inr rfl)
theorem Slots.ldaI64 (x_d : BitVec 6) (x_b : BitVec 6) (x_o : BitVec 13) : Slots.Statement (.ldaI64 x_d x_b x_o) := Slots.of_list [2] rfl rfl Slots.nodup3 (.inr rfl)
theorem Slots.stI8 (x_d : BitVec 6) (x_b : BitVec 6) (x_o : BitVec 13) : Slots.Statement (.stI8 x_d x_b x_o) := Slots.of_list [2] rfl rfl Slots.nodup3 (.inr rfl)
theorem Slots.stI16 (x_d : BitVec 6) (x_b : BitVec 6) (x_o : BitVec 13) : Slots.Statement (.stI16 x_d x_b x_o) := Slots.of_list [2] rfl rfl Slots.nodup3 (.inr rfl)
theorem Slots.stI32 (x_d : BitVec 6) (x_b : BitVec 6) (x_o : BitVec 13) : Slots.Statement (.stI32 x_d x_b x_o) := Slots.of_list [2] rfl rfl Slots.nodup3 (.inr rfl)
theorem Slots.stI64 (x_d : BitVec 6) (x_b : BitVec 6) (x_o : BitVec 13) : Slots.Statement (.stI64 x_d x_b x_o) := Slots.of_list [2] rfl rfl Slots.nodup3 (.inr rfl)
theorem Slots.stlI32 (x_d : BitVec 6) (x_b : BitVec 6) (x_o : BitVec 13) : Slots.Statement (.stlI32 x_d x_b x_o) := Slots.of_list [2] rfl rfl Slots.nodup3 (.inr rfl)
theorem Slots.stlI64 (x_d : BitVec 6) (x_b : BitVec 6) (x_o : BitVec 13) : Slots.Statement (.stlI64 x_d x_b x_o) := Slots.of_list [2] rfl rfl Slots.nodup3 (.inr rfl)
theorem Slots.amoI32 (x_d : BitVec 6) (x_a : BitVec 6) (x_b : BitVec 6) (x_k : BitVec 4) (x_o : BitVec 3) : Slots.Statement (.amoI32 x_d x_a x_b x_k x_o) := Slots.of_list [2] rfl rfl Slots.nodup3 (.inr rfl)
theorem Slots.amoI64 (x_d : BitVec 6) (x_a : BitVec 6) (x_b : BitVec 6) (x_k : BitVec 4) (x_o : BitVec 3) : Slots.Statement (.amoI64 x_d x_a x_b x_k x_o) := Slots.of_list [2] rfl rfl Slots.nodup3 (.inr rfl)
theorem Slots.casI32 (x_d : BitVec 6) (x_a : BitVec 6) (x_b : BitVec 6) (x_c : BitVec 6) (x_x : BitVec 1) : Slots.Statement (.casI32 x_d x_a x_b x_c x_x) := Slots.of_list [2] rfl rfl Slots.nodup3 (.inr rfl)
theorem Slots.casI64 (x_d : BitVec 6) (x_a : BitVec 6) (x_b : BitVec 6) (x_c : BitVec 6) (x_x : BitVec 1) : Slots.Statement (.casI64 x_d x_a x_b x_c x_x) := Slots.of_list [2] rfl rfl Slots.nodup3 (.inr rfl)
theorem Slots.br (x_c : BitVec 4) (x_a : BitVec 6) (x_o : BitVec 15) : Slots.Statement (.br x_c x_a x_o) := Slots.of_list [1] rfl rfl Slots.nodup4 (.inr rfl)
theorem Slots.jmp (x_o : BitVec 15) : Slots.Statement (.jmp x_o) := Slots.of_list [1] rfl rfl Slots.nodup4 (.inr rfl)
theorem Slots.jmpi (x_a : BitVec 6) : Slots.Statement (.jmpi x_a) := Slots.of_list [1] rfl rfl Slots.nodup4 (.inr rfl)
theorem Slots.call (x_o : BitVec 15) : Slots.Statement (.call x_o) := Slots.of_list [1] rfl rfl Slots.nodup4 (.inr rfl)
theorem Slots.ret : Slots.Statement (.ret) := Slots.of_list [1] rfl rfl Slots.nodup4 (.inr rfl)
theorem Slots.loop (x_a : BitVec 6) (x_o : BitVec 15) : Slots.Statement (.loop x_a x_o) := Slots.of_list [1] rfl rfl Slots.nodup4 (.inr rfl)
theorem Slots.chk (x_a : BitVec 6) (x_o : BitVec 15) : Slots.Statement (.chk x_a x_o) := Slots.of_list [1] rfl rfl Slots.nodup4 (.inr rfl)
theorem Slots.tret : Slots.Statement (.tret) := Slots.of_list [1] rfl rfl Slots.nodup4 (.inr rfl)
theorem Slots.xtov (x_v : BitVec 6) (x_s : BitVec 6) (x_l : BitVec 8) (x_m : BitVec 2) : Slots.Statement (.xtov x_v x_s x_l x_m) := Slots.of_list [3] rfl rfl Slots.nodup5 (.inr rfl)
theorem Slots.xfromv (x_v : BitVec 6) (x_d : BitVec 6) (x_l : BitVec 8) (x_m : BitVec 2) : Slots.Statement (.xfromv x_v x_d x_l x_m) := Slots.of_list [3] rfl rfl Slots.nodup5 (.inr rfl)
theorem Slots.xag (x_g : BitVec 3) (x_p : BitVec 4) (x_s : BitVec 6) : Slots.Statement (.xag x_g x_p x_s) := Slots.of_list [3] rfl rfl Slots.nodup5 (.inr rfl)
theorem Slots.xmask (x_m : BitVec 3) (x_x : BitVec 1) (x_q : BitVec 2) (x_s : BitVec 6) : Slots.Statement (.xmask x_m x_x x_q x_s) := Slots.of_list [3] rfl rfl Slots.nodup5 (.inr rfl)
theorem Slots.xsts (x_z : BitVec 3) (x_e : BitVec 3) (x_d : BitVec 6) : Slots.Statement (.xsts x_z x_e x_d) := Slots.of_list [3] rfl rfl Slots.nodup5 (.inr rfl)
theorem Slots.vadd (x_d : BitVec 6) (x_a : BitVec 6) (x_b : BitVec 6) (x_m : BitVec 3) (x_t : BitVec 4) : Slots.Statement (.vadd x_d x_a x_b x_m x_t) := Slots.of_list [4] rfl rfl Slots.nodup6 (.inr rfl)
theorem Slots.vsub (x_d : BitVec 6) (x_a : BitVec 6) (x_b : BitVec 6) (x_m : BitVec 3) (x_t : BitVec 4) : Slots.Statement (.vsub x_d x_a x_b x_m x_t) := Slots.of_list [4] rfl rfl Slots.nodup6 (.inr rfl)
theorem Slots.vmul (x_d : BitVec 6) (x_a : BitVec 6) (x_b : BitVec 6) (x_m : BitVec 3) (x_t : BitVec 4) : Slots.Statement (.vmul x_d x_a x_b x_m x_t) := Slots.of_list [4] rfl rfl Slots.nodup6 (.inr rfl)
theorem Slots.vfma (x_d : BitVec 6) (x_a : BitVec 6) (x_b : BitVec 6) (x_m : BitVec 3) (x_t : BitVec 4) : Slots.Statement (.vfma x_d x_a x_b x_m x_t) := Slots.of_list [4] rfl rfl Slots.nodup6 (.inr rfl)
theorem Slots.vfms (x_d : BitVec 6) (x_a : BitVec 6) (x_b : BitVec 6) (x_m : BitVec 3) (x_t : BitVec 4) : Slots.Statement (.vfms x_d x_a x_b x_m x_t) := Slots.of_list [4] rfl rfl Slots.nodup6 (.inr rfl)
theorem Slots.vmin (x_d : BitVec 6) (x_a : BitVec 6) (x_b : BitVec 6) (x_m : BitVec 3) (x_t : BitVec 4) : Slots.Statement (.vmin x_d x_a x_b x_m x_t) := Slots.of_list [4] rfl rfl Slots.nodup6 (.inr rfl)
theorem Slots.vmax (x_d : BitVec 6) (x_a : BitVec 6) (x_b : BitVec 6) (x_m : BitVec 3) (x_t : BitVec 4) : Slots.Statement (.vmax x_d x_a x_b x_m x_t) := Slots.of_list [4] rfl rfl Slots.nodup6 (.inr rfl)
theorem Slots.vabs (x_d : BitVec 6) (x_a : BitVec 6) (x_m : BitVec 3) (x_t : BitVec 4) : Slots.Statement (.vabs x_d x_a x_m x_t) := Slots.of_list [4] rfl rfl Slots.nodup6 (.inr rfl)
theorem Slots.vneg (x_d : BitVec 6) (x_a : BitVec 6) (x_m : BitVec 3) (x_t : BitVec 4) : Slots.Statement (.vneg x_d x_a x_m x_t) := Slots.of_list [4] rfl rfl Slots.nodup6 (.inr rfl)
theorem Slots.vdiv (x_d : BitVec 6) (x_a : BitVec 6) (x_b : BitVec 6) (x_m : BitVec 3) (x_t : BitVec 4) : Slots.Statement (.vdiv x_d x_a x_b x_m x_t) := Slots.of_list [4] rfl rfl Slots.nodup6 (.inr rfl)
theorem Slots.vsqrt (x_d : BitVec 6) (x_a : BitVec 6) (x_r : BitVec 3) (x_m : BitVec 3) (x_t : BitVec 4) : Slots.Statement (.vsqrt x_d x_a x_r x_m x_t) := Slots.of_list [4] rfl rfl Slots.nodup6 (.inr rfl)
theorem Slots.vrsq (x_d : BitVec 6) (x_a : BitVec 6) (x_r : BitVec 3) (x_m : BitVec 3) (x_t : BitVec 4) : Slots.Statement (.vrsq x_d x_a x_r x_m x_t) := Slots.of_list [4] rfl rfl Slots.nodup6 (.inr rfl)
theorem Slots.vrcp (x_d : BitVec 6) (x_a : BitVec 6) (x_r : BitVec 3) (x_m : BitVec 3) (x_t : BitVec 4) : Slots.Statement (.vrcp x_d x_a x_r x_m x_t) := Slots.of_list [4] rfl rfl Slots.nodup6 (.inr rfl)
theorem Slots.vexp2 (x_d : BitVec 6) (x_a : BitVec 6) (x_r : BitVec 3) (x_m : BitVec 3) (x_t : BitVec 4) : Slots.Statement (.vexp2 x_d x_a x_r x_m x_t) := Slots.of_list [4] rfl rfl Slots.nodup6 (.inr rfl)
theorem Slots.vlog2 (x_d : BitVec 6) (x_a : BitVec 6) (x_r : BitVec 3) (x_m : BitVec 3) (x_t : BitVec 4) : Slots.Statement (.vlog2 x_d x_a x_r x_m x_t) := Slots.of_list [4] rfl rfl Slots.nodup6 (.inr rfl)
theorem Slots.vtanh (x_d : BitVec 6) (x_a : BitVec 6) (x_r : BitVec 3) (x_m : BitVec 3) (x_t : BitVec 4) : Slots.Statement (.vtanh x_d x_a x_r x_m x_t) := Slots.of_list [4] rfl rfl Slots.nodup6 (.inr rfl)
theorem Slots.vsigm (x_d : BitVec 6) (x_a : BitVec 6) (x_r : BitVec 3) (x_m : BitVec 3) (x_t : BitVec 4) : Slots.Statement (.vsigm x_d x_a x_r x_m x_t) := Slots.of_list [4] rfl rfl Slots.nodup6 (.inr rfl)
theorem Slots.viadd (x_d : BitVec 6) (x_a : BitVec 6) (x_b : BitVec 6) (x_m : BitVec 3) (x_t : BitVec 4) : Slots.Statement (.viadd x_d x_a x_b x_m x_t) := Slots.of_list [4] rfl rfl Slots.nodup6 (.inr rfl)
theorem Slots.visub (x_d : BitVec 6) (x_a : BitVec 6) (x_b : BitVec 6) (x_m : BitVec 3) (x_t : BitVec 4) : Slots.Statement (.visub x_d x_a x_b x_m x_t) := Slots.of_list [4] rfl rfl Slots.nodup6 (.inr rfl)
theorem Slots.vimul (x_d : BitVec 6) (x_a : BitVec 6) (x_b : BitVec 6) (x_m : BitVec 3) (x_t : BitVec 4) : Slots.Statement (.vimul x_d x_a x_b x_m x_t) := Slots.of_list [4] rfl rfl Slots.nodup6 (.inr rfl)
theorem Slots.vimulh (x_d : BitVec 6) (x_a : BitVec 6) (x_b : BitVec 6) (x_m : BitVec 3) (x_t : BitVec 4) : Slots.Statement (.vimulh x_d x_a x_b x_m x_t) := Slots.of_list [4] rfl rfl Slots.nodup6 (.inr rfl)
theorem Slots.vimin (x_d : BitVec 6) (x_a : BitVec 6) (x_b : BitVec 6) (x_m : BitVec 3) (x_t : BitVec 4) : Slots.Statement (.vimin x_d x_a x_b x_m x_t) := Slots.of_list [4] rfl rfl Slots.nodup6 (.inr rfl)
theorem Slots.vimax (x_d : BitVec 6) (x_a : BitVec 6) (x_b : BitVec 6) (x_m : BitVec 3) (x_t : BitVec 4) : Slots.Statement (.vimax x_d x_a x_b x_m x_t) := Slots.of_list [4] rfl rfl Slots.nodup6 (.inr rfl)
theorem Slots.vand (x_d : BitVec 6) (x_a : BitVec 6) (x_b : BitVec 6) (x_m : BitVec 3) (x_t : BitVec 4) : Slots.Statement (.vand x_d x_a x_b x_m x_t) := Slots.of_list [4] rfl rfl Slots.nodup6 (.inr rfl)
theorem Slots.vor (x_d : BitVec 6) (x_a : BitVec 6) (x_b : BitVec 6) (x_m : BitVec 3) (x_t : BitVec 4) : Slots.Statement (.vor x_d x_a x_b x_m x_t) := Slots.of_list [4] rfl rfl Slots.nodup6 (.inr rfl)
theorem Slots.vxor (x_d : BitVec 6) (x_a : BitVec 6) (x_b : BitVec 6) (x_m : BitVec 3) (x_t : BitVec 4) : Slots.Statement (.vxor x_d x_a x_b x_m x_t) := Slots.of_list [4] rfl rfl Slots.nodup6 (.inr rfl)
theorem Slots.vshl (x_d : BitVec 6) (x_a : BitVec 6) (x_b : BitVec 6) (x_m : BitVec 3) (x_t : BitVec 4) : Slots.Statement (.vshl x_d x_a x_b x_m x_t) := Slots.of_list [4] rfl rfl Slots.nodup6 (.inr rfl)
theorem Slots.vshr (x_d : BitVec 6) (x_a : BitVec 6) (x_b : BitVec 6) (x_m : BitVec 3) (x_t : BitVec 4) : Slots.Statement (.vshr x_d x_a x_b x_m x_t) := Slots.of_list [4] rfl rfl Slots.nodup6 (.inr rfl)
theorem Slots.vsar (x_d : BitVec 6) (x_a : BitVec 6) (x_b : BitVec 6) (x_m : BitVec 3) (x_t : BitVec 4) : Slots.Statement (.vsar x_d x_a x_b x_m x_t) := Slots.of_list [4] rfl rfl Slots.nodup6 (.inr rfl)
theorem Slots.vwadd (x_d : BitVec 6) (x_a : BitVec 6) (x_b : BitVec 6) (x_m : BitVec 3) (x_t : BitVec 4) : Slots.Statement (.vwadd x_d x_a x_b x_m x_t) := Slots.of_list [4] rfl rfl Slots.nodup6 (.inr rfl)
theorem Slots.vwmul (x_d : BitVec 6) (x_a : BitVec 6) (x_b : BitVec 6) (x_m : BitVec 3) (x_t : BitVec 4) : Slots.Statement (.vwmul x_d x_a x_b x_m x_t) := Slots.of_list [4] rfl rfl Slots.nodup6 (.inr rfl)
theorem Slots.vnarw (x_d : BitVec 6) (x_a : BitVec 6) (x_b : BitVec 6) (x_m : BitVec 3) (x_t : BitVec 4) : Slots.Statement (.vnarw x_d x_a x_b x_m x_t) := Slots.of_list [4] rfl rfl Slots.nodup6 (.inr rfl)
theorem Slots.vcmp (x_c : BitVec 3) (x_d : BitVec 3) (x_a : BitVec 6) (x_b : BitVec 6) (x_m : BitVec 3) (x_t : BitVec 4) : Slots.Statement (.vcmp x_c x_d x_a x_b x_m x_t) := Slots.of_list [4] rfl rfl Slots.nodup6 (.inr rfl)
theorem Slots.vsel (x_d : BitVec 6) (x_a : BitVec 6) (x_b : BitVec 6) (x_s : BitVec 3) (x_t : BitVec 4) : Slots.Statement (.vsel x_d x_a x_b x_s x_t) := Slots.of_list [4] rfl rfl Slots.nodup6 (.inr rfl)
theorem Slots.vmop (x_d : BitVec 3) (x_a : BitVec 3) (x_b : BitVec 3) (x_f : BitVec 4) : Slots.Statement (.vmop x_d x_a x_b x_f) := Slots.of_list [4] rfl rfl Slots.nodup6 (.inr rfl)
theorem Slots.vcvt (x_d : BitVec 6) (x_a : BitVec 6) (x_s : BitVec 3) (x_r : BitVec 3) (x_m : BitVec 3) (x_t : BitVec 4) : Slots.Statement (.vcvt x_d x_a x_s x_r x_m x_t) := Slots.of_list [4] rfl rfl Slots.nodup6 (.inr rfl)
theorem Slots.vscale (x_d : BitVec 6) (x_a : BitVec 6) (x_b : BitVec 6) (x_m : BitVec 3) (x_t : BitVec 4) : Slots.Statement (.vscale x_d x_a x_b x_m x_t) := Slots.of_list [4] rfl rfl Slots.nodup6 (.inr rfl)
theorem Slots.vpack (x_d : BitVec 6) (x_a : BitVec 6) (x_f : BitVec 6) (x_m : BitVec 3) (x_t : BitVec 4) : Slots.Statement (.vpack x_d x_a x_f x_m x_t) := Slots.of_list [4] rfl rfl Slots.nodup6 (.inr rfl)
theorem Slots.vunpk (x_d : BitVec 6) (x_a : BitVec 6) (x_f : BitVec 6) (x_m : BitVec 3) (x_t : BitVec 4) : Slots.Statement (.vunpk x_d x_a x_f x_m x_t) := Slots.of_list [4] rfl rfl Slots.nodup6 (.inr rfl)
theorem Slots.vmov (x_d : BitVec 6) (x_a : BitVec 6) (x_m : BitVec 3) (x_t : BitVec 4) : Slots.Statement (.vmov x_d x_a x_m x_t) := Slots.of_list [4] rfl rfl Slots.nodup6 (.inr rfl)
theorem Slots.vperm (x_d : BitVec 6) (x_a : BitVec 6) (x_b : BitVec 6) (x_m : BitVec 3) (x_t : BitVec 4) : Slots.Statement (.vperm x_d x_a x_b x_m x_t) := Slots.of_list [4] rfl rfl Slots.nodup6 (.inr rfl)
theorem Slots.vslide (x_d : BitVec 6) (x_a : BitVec 6) (x_n : BitVec 8) (x_x : BitVec 1) : Slots.Statement (.vslide x_d x_a x_n x_x) := Slots.of_list [4] rfl rfl Slots.nodup6 (.inr rfl)
theorem Slots.vzip (x_d : BitVec 6) (x_a : BitVec 6) (x_b : BitVec 6) (x_m : BitVec 3) (x_t : BitVec 4) : Slots.Statement (.vzip x_d x_a x_b x_m x_t) := Slots.of_list [4] rfl rfl Slots.nodup6 (.inr rfl)
theorem Slots.vuzp (x_d : BitVec 6) (x_a : BitVec 6) (x_b : BitVec 6) (x_m : BitVec 3) (x_t : BitVec 4) : Slots.Statement (.vuzp x_d x_a x_b x_m x_t) := Slots.of_list [4] rfl rfl Slots.nodup6 (.inr rfl)
theorem Slots.vred (x_d : BitVec 6) (x_a : BitVec 6) (x_f : BitVec 6) (x_m : BitVec 3) (x_t : BitVec 4) : Slots.Statement (.vred x_d x_a x_f x_m x_t) := Slots.of_list [4] rfl rfl Slots.nodup6 (.inr rfl)
theorem Slots.vscan (x_d : BitVec 6) (x_a : BitVec 6) (x_f : BitVec 6) (x_m : BitVec 3) (x_t : BitVec 4) : Slots.Statement (.vscan x_d x_a x_f x_m x_t) := Slots.of_list [4] rfl rfl Slots.nodup6 (.inr rfl)
theorem Slots.vld (x_v : BitVec 6) (x_g : BitVec 3) (x_m : BitVec 3) (x_t : BitVec 4) : Slots.Statement (.vld x_v x_g x_m x_t) := Slots.of_list [4] rfl rfl Slots.nodup6 (.inr rfl)
theorem Slots.vst (x_v : BitVec 6) (x_g : BitVec 3) (x_m : BitVec 3) (x_t : BitVec 4) : Slots.Statement (.vst x_v x_g x_m x_t) := Slots.of_list [4] rfl rfl Slots.nodup6 (.inr rfl)
theorem Slots.vldx (x_v : BitVec 6) (x_g : BitVec 3) (x_b : BitVec 6) (x_m : BitVec 3) (x_t : BitVec 4) : Slots.Statement (.vldx x_v x_g x_b x_m x_t) := Slots.of_list [4] rfl rfl Slots.nodup6 (.inr rfl)
theorem Slots.vstx (x_v : BitVec 6) (x_g : BitVec 3) (x_b : BitVec 6) (x_m : BitVec 3) (x_t : BitVec 4) : Slots.Statement (.vstx x_v x_g x_b x_m x_t) := Slots.of_list [4] rfl rfl Slots.nodup6 (.inr rfl)
theorem Slots.vdec (x_d : BitVec 3) (x_c : BitVec 3) (x_z : BitVec 3) (x_b : BitVec 6) (x_m : BitVec 3) (x_p : BitVec 1) (x_f : BitVec 5) : Slots.Statement (.vdec x_d x_c x_z x_b x_m x_p x_f) := Slots.of_list [4] rfl rfl Slots.nodup6 (.inr rfl)
theorem Slots.vcut (x_z : BitVec 3) (x_f : BitVec 6) (x_m : BitVec 3) : Slots.Statement (.vcut x_z x_f x_m) := Slots.of_list [4] rfl rfl Slots.nodup6 (.inr rfl)
theorem Slots.mcall (x_c : BitVec 5) (x_p : BitVec 1) (x_r : BitVec 5) (x_l : BitVec 2) : Slots.Statement (.mcall x_c x_p x_r x_l) := Slots.of_list [5] rfl rfl Slots.nodup7 (.inr rfl)
theorem Slots.mlatch (x_c : BitVec 5) (x_p : BitVec 1) (x_l : BitVec 2) (x_t : BitVec 1) : Slots.Statement (.mlatch x_c x_p x_l x_t) := Slots.of_list [5] rfl rfl Slots.nodup7 (.inr rfl)
theorem Slots.medge (x_c : BitVec 5) (x_p : BitVec 1) : Slots.Statement (.medge x_c x_p) := Slots.of_list [5] rfl rfl Slots.nodup7 (.inr rfl)
theorem Slots.mflush (x_c : BitVec 5) (x_p : BitVec 1) : Slots.Statement (.mflush x_c x_p) := Slots.of_list [5] rfl rfl Slots.nodup7 (.inr rfl)
theorem Slots.mstep (x_c : BitVec 5) (x_p : BitVec 1) (x_i : BitVec 8) (x_n : BitVec 3) : Slots.Statement (.mstep x_c x_p x_i x_n) := Slots.of_list [5] rfl rfl Slots.nodup7 (.inr rfl)
theorem Slots.mrout (x_c : BitVec 5) (x_p : BitVec 1) (x_e : BitVec 5) (x_s : BitVec 8) : Slots.Statement (.mrout x_c x_p x_e x_s) := Slots.of_list [5] rfl rfl Slots.nodup7 (.inr rfl)
theorem Slots.mstat (x_c : BitVec 5) (x_p : BitVec 1) : Slots.Statement (.mstat x_c x_p) := Slots.of_list [5] rfl rfl Slots.nodup7 (.inr rfl)
theorem Slots.mdec (x_c : BitVec 5) (x_p : BitVec 1) (x_k : BitVec 3) : Slots.Statement (.mdec x_c x_p x_k) := Slots.of_list [5] rfl rfl Slots.nodup7 (.inr rfl)
theorem Slots.mcut (x_c : BitVec 5) (x_p : BitVec 1) (x_a : BitVec 1) : Slots.Statement (.mcut x_c x_p x_a) := Slots.of_list [5] rfl rfl Slots.nodup7 (.inr rfl)
theorem Slots.cpy (x_c : BitVec 5) (x_p : BitVec 1) (x_r : BitVec 3) (x_s : BitVec 3) (x_f : BitVec 1) : Slots.Statement (.cpy x_c x_p x_r x_s x_f) := Slots.of_list [6] rfl rfl Slots.nodup8 (.inr rfl)
theorem Slots.cpys (x_c : BitVec 5) (x_p : BitVec 1) (x_r : BitVec 3) (x_s : BitVec 3) (x_f : BitVec 1) : Slots.Statement (.cpys x_c x_p x_r x_s x_f) := Slots.of_list [6] rfl rfl Slots.nodup8 (.inr rfl)
theorem Slots.cpyg (x_c : BitVec 5) (x_p : BitVec 1) (x_r : BitVec 3) (x_s : BitVec 3) (x_f : BitVec 1) : Slots.Statement (.cpyg x_c x_p x_r x_s x_f) := Slots.of_list [6] rfl rfl Slots.nodup8 (.inr rfl)
theorem Slots.cpyt (x_c : BitVec 5) (x_p : BitVec 1) (x_r : BitVec 3) (x_s : BitVec 3) (x_f : BitVec 1) : Slots.Statement (.cpyt x_c x_p x_r x_s x_f) := Slots.of_list [6] rfl rfl Slots.nodup8 (.inr rfl)
theorem Slots.cpyx (x_c : BitVec 5) (x_p : BitVec 1) (x_r : BitVec 3) (x_s : BitVec 3) (x_f : BitVec 1) : Slots.Statement (.cpyx x_c x_p x_r x_s x_f) := Slots.of_list [6] rfl rfl Slots.nodup8 (.inr rfl)
theorem Slots.cpyf (x_c : BitVec 5) (x_p : BitVec 1) (x_r : BitVec 3) (x_s : BitVec 3) (x_f : BitVec 1) : Slots.Statement (.cpyf x_c x_p x_r x_s x_f) := Slots.of_list [6] rfl rfl Slots.nodup8 (.inr rfl)
theorem Slots.cpyw (x_c : BitVec 5) (x_p : BitVec 1) (x_r : BitVec 3) (x_s : BitVec 3) (x_f : BitVec 1) : Slots.Statement (.cpyw x_c x_p x_r x_s x_f) := Slots.of_list [6] rfl rfl Slots.nodup8 (.inr rfl)
theorem Slots.cpyq (x_c : BitVec 5) (x_p : BitVec 1) (x_r : BitVec 3) (x_s : BitVec 3) (x_f : BitVec 1) : Slots.Statement (.cpyq x_c x_p x_r x_s x_f) := Slots.of_list [6] rfl rfl Slots.nodup8 (.inr rfl)
theorem Slots.lsend (x_v : BitVec 6) (x_q : BitVec 2) : Slots.Statement (.lsend x_v x_q) := Slots.of_list [7] rfl rfl Slots.nodup9 (.inr rfl)
theorem Slots.lsched (x_c : BitVec 5) (x_p : BitVec 1) : Slots.Statement (.lsched x_c x_p) := Slots.of_list [7] rfl rfl Slots.nodup9 (.inr rfl)
theorem Slots.gld (x_c : BitVec 5) (x_p : BitVec 1) (x_g : BitVec 6) : Slots.Statement (.gld x_c x_p x_g) := Slots.of_list [7] rfl rfl Slots.nodup9 (.inr rfl)
theorem Slots.gdef (x_c : BitVec 5) (x_p : BitVec 1) : Slots.Statement (.gdef x_c x_p) := Slots.of_list [7] rfl rfl Slots.nodup9 (.inr rfl)
theorem Slots.fpost (x_c : BitVec 5) (x_p : BitVec 1) (x_o : BitVec 3) (x_s : BitVec 3) : Slots.Statement (.fpost x_c x_p x_o x_s) := Slots.of_list [7] rfl rfl Slots.nodup9 (.inr rfl)
theorem Slots.namo (x_c : BitVec 5) (x_p : BitVec 1) (x_o : BitVec 3) (x_s : BitVec 3) (x_k : BitVec 4) (x_w : BitVec 1) : Slots.Statement (.namo x_c x_p x_o x_s x_k x_w) := Slots.of_list [7] rfl rfl Slots.nodup9 (.inr rfl)
theorem Slots.ncas (x_c : BitVec 5) (x_p : BitVec 1) (x_o : BitVec 3) (x_s : BitVec 3) (x_f : BitVec 3) (x_w : BitVec 1) : Slots.Statement (.ncas x_c x_p x_o x_s x_f x_w) := Slots.of_list [7] rfl rfl Slots.nodup9 (.inr rfl)
theorem Slots.pgmap (x_c : BitVec 5) (x_p : BitVec 1) : Slots.Statement (.pgmap x_c x_p) := Slots.of_list [7] rfl rfl Slots.nodup9 (.inr rfl)
theorem Slots.pgdone (x_c : BitVec 5) (x_p : BitVec 1) : Slots.Statement (.pgdone x_c x_p) := Slots.of_list [7] rfl rfl Slots.nodup9 (.inr rfl)
theorem Slots.stepEnd : Slots.Statement (.stepEnd) := Slots.of_list [] rfl rfl Slots.nodup10 (.inl rfl)
theorem Slots.stepHead (x_sites : BitVec 8) : Slots.Statement (.stepHead x_sites) := Slots.of_list [] rfl rfl Slots.nodup10 (.inl rfl)
theorem Slots.stepJoin (x_sites : BitVec 8) : Slots.Statement (.stepJoin x_sites) := Slots.of_list [] rfl rfl Slots.nodup10 (.inl rfl)
theorem Slots.stepAdd (x_sites : BitVec 8) : Slots.Statement (.stepAdd x_sites) := Slots.of_list [] rfl rfl Slots.nodup10 (.inl rfl)
theorem Slots.stepPass (x_sites : BitVec 8) : Slots.Statement (.stepPass x_sites) := Slots.of_list [] rfl rfl Slots.nodup10 (.inl rfl)
theorem Slots.stepTail (x_sites : BitVec 8) (x_inp : BitVec 2) : Slots.Statement (.stepTail x_sites x_inp) := Slots.of_list [] rfl rfl Slots.nodup10 (.inl rfl)
theorem Slots.stepFill (x_sites : BitVec 8) (x_l : BitVec 2) (x_t : BitVec 1) (x_rel : BitVec 1) (x_p : BitVec 3) (x_adv : BitVec 8) : Slots.Statement (.stepFill x_sites x_l x_t x_rel x_p x_adv) := Slots.of_list [] rfl rfl Slots.nodup10 (.inl rfl)
theorem Slots.stepSwap (x_sites : BitVec 8) : Slots.Statement (.stepSwap x_sites) := Slots.of_list [] rfl rfl Slots.nodup10 (.inl rfl)
theorem Slots.stepFeed (x_sites : BitVec 8) (x_src : BitVec 1) (x_af : BitVec 4) (x_ent : BitVec 8) (x_ag : BitVec 3) (x_count : BitVec 16) (x_scl : BitVec 1) : Slots.Statement (.stepFeed x_sites x_src x_af x_ent x_ag x_count x_scl) := Slots.of_list [] rfl rfl Slots.nodup10 (.inl rfl)
theorem Slots.stepRepeat (x_count : BitVec 16) (x_len : BitVec 8) (x_cp : BitVec 1) (x_k : BitVec 3) : Slots.Statement (.stepRepeat x_count x_len x_cp x_k) := Slots.of_list [] rfl rfl Slots.nodup10 (.inl rfl)
theorem Slots.stepSync (x_mode : BitVec 1) (x_flag : BitVec 5) : Slots.Statement (.stepSync x_mode x_flag) := Slots.of_list [] rfl rfl Slots.nodup10 (.inl rfl)
theorem Slots.pendingWriteLanding (x_n : Nat) : Slots.Statement (.pendingWriteLanding x_n) := Slots.of_list [] rfl rfl Slots.nodup10 (.inl rfl)
theorem Slots.streamCompletion (x_n : Nat) (x_z : Nat) : Slots.Statement (.streamCompletion x_n x_z) := Slots.of_list [] rfl rfl Slots.nodup10 (.inl rfl)
theorem Slots.vdecDecision (x_n : Nat) (x_z : Nat) : Slots.Statement (.vdecDecision x_n x_z) := Slots.of_list [] rfl rfl Slots.nodup10 (.inl rfl)
theorem Slots.watchdogExpiry (x_n : Nat) : Slots.Statement (.watchdogExpiry x_n) := Slots.of_list [] rfl rfl Slots.nodup10 (.inl rfl)
theorem Slots.segmentLanding (x_n : Nat) : Slots.Statement (.segmentLanding x_n) := Slots.of_list [] rfl rfl Slots.nodup10 (.inl rfl)
theorem Slots.taskCompletion (x_n : Nat) : Slots.Statement (.taskCompletion x_n) := Slots.of_list [] rfl rfl Slots.nodup10 (.inl rfl)
theorem Slots.matrixCommandStart (x_n : Nat) : Slots.Statement (.matrixCommandStart x_n) := Slots.of_list [] rfl rfl Slots.nodup10 (.inl rfl)
theorem Slots.fillComplete (x_site : Nat) : Slots.Statement (.fillComplete x_site) := Slots.of_list [] rfl rfl Slots.nodup10 (.inl rfl)
theorem Slots.matrixCommandComplete (x_n : Nat) : Slots.Statement (.matrixCommandComplete x_n) := Slots.of_list [] rfl rfl Slots.nodup10 (.inl rfl)
theorem Slots.bedRowEntry (x_n : Nat) : Slots.Statement (.bedRowEntry x_n) := Slots.of_list [] rfl rfl Slots.nodup10 (.inl rfl)
theorem Slots.linkRowArrival (x_n : Nat) : Slots.Statement (.linkRowArrival x_n) := Slots.of_list [] rfl rfl Slots.nodup10 (.inl rfl)
theorem Slots.rowDelivery (x_n : Nat) : Slots.Statement (.rowDelivery x_n) := Slots.of_list [] rfl rfl Slots.nodup10 (.inl rfl)
theorem Slots.mcallComplete (x_n : Nat) : Slots.Statement (.mcallComplete x_n) := Slots.of_list [] rfl rfl Slots.nodup10 (.inl rfl)
theorem Slots.lodeSwitch (x_cl : Nat) : Slots.Statement (.lodeSwitch x_cl) := Slots.of_list [] rfl rfl Slots.nodup10 (.inl rfl)
theorem Slots.lodeInjection (x_cl : Nat) : Slots.Statement (.lodeInjection x_cl) := Slots.of_list [] rfl rfl Slots.nodup10 (.inl rfl)
theorem Slots.lodeDelivery (x_cl : Nat) : Slots.Statement (.lodeDelivery x_cl) := Slots.of_list [] rfl rfl Slots.nodup10 (.inl rfl)
theorem Slots.copyStart (x_n : Nat) : Slots.Statement (.copyStart x_n) := Slots.of_list [] rfl rfl Slots.nodup10 (.inl rfl)
theorem Slots.retryPermit (x_die : Nat) (x_slice : Nat) : Slots.Statement (.retryPermit x_die x_slice) := Slots.of_list [] rfl rfl Slots.nodup10 (.inl rfl)
theorem Slots.copyComplete (x_n : Nat) : Slots.Statement (.copyComplete x_n) := Slots.of_list [] rfl rfl Slots.nodup10 (.inl rfl)
theorem Slots.networkCommandStart (x_n : Nat) : Slots.Statement (.networkCommandStart x_n) := Slots.of_list [] rfl rfl Slots.nodup10 (.inl rfl)
theorem Slots.networkCommandComplete (x_n : Nat) : Slots.Statement (.networkCommandComplete x_n) := Slots.of_list [] rfl rfl Slots.nodup10 (.inl rfl)
theorem Slots.flagPostArrival (x_n : Nat) : Slots.Statement (.flagPostArrival x_n) := Slots.of_list [] rfl rfl Slots.nodup10 (.inl rfl)
theorem Slots.fabricAtomic (x_n : Nat) : Slots.Statement (.fabricAtomic x_n) := Slots.of_list [] rfl rfl Slots.nodup10 (.inl rfl)
theorem Slots.requestTranslate (x_n : Nat) : Slots.Statement (.requestTranslate x_n) := Slots.of_list [] rfl rfl Slots.nodup10 (.inl rfl)
theorem Slots.queuePoll (x_q : Nat) : Slots.Statement (.queuePoll x_q) := Slots.of_list [] rfl rfl Slots.nodup10 (.inl rfl)
theorem Slots.launch (x_q : Nat) : Slots.Statement (.launch x_q) := Slots.of_list [] rfl rfl Slots.nodup10 (.inl rfl)
theorem Slots.barrier (x_q : Nat) : Slots.Statement (.barrier x_q) := Slots.of_list [] rfl rfl Slots.nodup10 (.inl rfl)
theorem Slots.signalSet (x_q : Nat) : Slots.Statement (.signalSet x_q) := Slots.of_list [] rfl rfl Slots.nodup10 (.inl rfl)
theorem Slots.tilePlacement (x_die : Nat) : Slots.Statement (.tilePlacement x_die) := Slots.of_list [] rfl rfl Slots.nodup10 (.inl rfl)
theorem Slots.signalDecrement (x_id : Nat) : Slots.Statement (.signalDecrement x_id) := Slots.of_list [] rfl rfl Slots.nodup10 (.inl rfl)
theorem Slots.free (x_c : Nat) : Slots.Statement (.free x_c) := Slots.of_list [] rfl rfl Slots.nodup10 (.inl rfl)
theorem Slots.preempt (x_c : Nat) : Slots.Statement (.preempt x_c) := Slots.of_list [] rfl rfl Slots.nodup10 (.inl rfl)
theorem Slots.quantumExpiry (x_c : Nat) : Slots.Statement (.quantumExpiry x_c) := Slots.of_list [] rfl rfl Slots.nodup10 (.inl rfl)
theorem Slots.arm (x_n : Nat) : Slots.Statement (.arm x_n) := Slots.of_list [] rfl rfl Slots.nodup10 (.inl rfl)
theorem Slots.target (x_c : Nat) : Slots.Statement (.target x_c) := Slots.of_list [] rfl rfl Slots.nodup10 (.inl rfl)
theorem Slots.release (x_n : Nat) : Slots.Statement (.release x_n) := Slots.of_list [] rfl rfl Slots.nodup10 (.inl rfl)
theorem Slots.contextSaved (x_c : Nat) : Slots.Statement (.contextSaved x_c) := Slots.of_list [] rfl rfl Slots.nodup10 (.inl rfl)
theorem Slots.resume (x_c : Nat) : Slots.Statement (.resume x_c) := Slots.of_list [] rfl rfl Slots.nodup10 (.inl rfl)
theorem Slots.debugStepEnd (x_c : Nat) : Slots.Statement (.debugStepEnd x_c) := Slots.of_list [] rfl rfl Slots.nodup10 (.inl rfl)
theorem Slots.linkstopDone (x_die : Nat) : Slots.Statement (.linkstopDone x_die) := Slots.of_list [] rfl rfl Slots.nodup10 (.inl rfl)
theorem Slots.writebackDone (x_die : Nat) : Slots.Statement (.writebackDone x_die) := Slots.of_list [] rfl rfl Slots.nodup10 (.inl rfl)
theorem Slots.resetDone (x_die : Nat) : Slots.Statement (.resetDone x_die) := Slots.of_list [] rfl rfl Slots.nodup10 (.inl rfl)
theorem Slots.thresholdRetirement (x_site : Nat) : Slots.Statement (.thresholdRetirement x_site) := Slots.of_list [] rfl rfl Slots.nodup10 (.inl rfl)
theorem Slots.periodBoundary (x_cl : Nat) : Slots.Statement (.periodBoundary x_cl) := Slots.of_list [] rfl rfl Slots.nodup10 (.inl rfl)
theorem Slots.install (x_c : Nat) : Slots.Statement (.install x_c) := Slots.of_list [] rfl rfl Slots.nodup10 (.inl rfl)
theorem Slots.linkFailed (x_l : Nat) : Slots.Statement (.linkFailed x_l) := Slots.of_list [] rfl rfl Slots.nodup10 (.inl rfl)
theorem Slots.portDown (x_p : Nat) : Slots.Statement (.portDown x_p) := Slots.of_list [] rfl rfl Slots.nodup10 (.inl rfl)
theorem Slots.notify (x_q : Nat) (x_v : Nat) : Slots.Statement (.notify x_q x_v) := Slots.of_list [] rfl rfl Slots.nodup10 (.inl rfl)
theorem Slots.queueEnable (x_q : Nat) : Slots.Statement (.queueEnable x_q) := Slots.of_list [] rfl rfl Slots.nodup10 (.inl rfl)
theorem Slots.queueDisable (x_q : Nat) : Slots.Statement (.queueDisable x_q) := Slots.of_list [] rfl rfl Slots.nodup10 (.inl rfl)
theorem Slots.qctlReset (x_q : Nat) (x_skip : Nat) : Slots.Statement (.qctlReset x_q x_skip) := Slots.of_list [] rfl rfl Slots.nodup10 (.inl rfl)
theorem Slots.lock : Slots.Statement (.lock) := Slots.of_list [] rfl rfl Slots.nodup10 (.inl rfl)
theorem Slots.registerWrite (x_bar : Nat) (x_off : Nat) (x_value : Nat) : Slots.Statement (.registerWrite x_bar x_off x_value) := Slots.of_list [] rfl rfl Slots.nodup10 (.inl rfl)
theorem Slots.create : Slots.Statement (.create) := Slots.of_list [] rfl rfl Slots.nodup10 (.inl rfl)
theorem Slots.reserve (x_c : Nat) : Slots.Statement (.reserve x_c) := Slots.of_list [] rfl rfl Slots.nodup10 (.inl rfl)
theorem Slots.reserveRelease (x_c : Nat) : Slots.Statement (.reserveRelease x_c) := Slots.of_list [] rfl rfl Slots.nodup10 (.inl rfl)
theorem Slots.alloc (x_c : Nat) : Slots.Statement (.alloc x_c) := Slots.of_list [] rfl rfl Slots.nodup10 (.inl rfl)
theorem Slots.allocRelease (x_c : Nat) : Slots.Statement (.allocRelease x_c) := Slots.of_list [] rfl rfl Slots.nodup10 (.inl rfl)
theorem Slots.tarea (x_c : Nat) : Slots.Statement (.tarea x_c) := Slots.of_list [] rfl rfl Slots.nodup10 (.inl rfl)
theorem Slots.image (x_c : Nat) : Slots.Statement (.image x_c) := Slots.of_list [] rfl rfl Slots.nodup10 (.inl rfl)
theorem Slots.imageUnreg (x_c : Nat) : Slots.Statement (.imageUnreg x_c) := Slots.of_list [] rfl rfl Slots.nodup10 (.inl rfl)
theorem Slots.pager (x_c : Nat) : Slots.Statement (.pager x_c) := Slots.of_list [] rfl rfl Slots.nodup10 (.inl rfl)
theorem Slots.halt : Slots.Statement (.halt) := Slots.of_list [] rfl rfl Slots.nodup10 (.inl rfl)
theorem Slots.run : Slots.Statement (.run) := Slots.of_list [] rfl rfl Slots.nodup10 (.inl rfl)
theorem Slots.cstep : Slots.Statement (.cstep) := Slots.of_list [] rfl rfl Slots.nodup10 (.inl rfl)
theorem Slots.bstep (x_n : Nat) : Slots.Statement (.bstep x_n) := Slots.of_list [] rfl rfl Slots.nodup10 (.inl rfl)
theorem Slots.read (x_n : Nat) : Slots.Statement (.read x_n) := Slots.of_list [] rfl rfl Slots.nodup10 (.inl rfl)
theorem Slots.write (x_n : Nat) : Slots.Statement (.write x_n) := Slots.of_list [] rfl rfl Slots.nodup10 (.inl rfl)
theorem Slots.brken : Slots.Statement (.brken) := Slots.of_list [] rfl rfl Slots.nodup10 (.inl rfl)
theorem Slots.quiesce (x_die : Nat) : Slots.Statement (.quiesce x_die) := Slots.of_list [] rfl rfl Slots.nodup10 (.inl rfl)
theorem Slots.linkstop (x_die : Nat) : Slots.Statement (.linkstop x_die) := Slots.of_list [] rfl rfl Slots.nodup10 (.inl rfl)
theorem Slots.writeback (x_die : Nat) : Slots.Statement (.writeback x_die) := Slots.of_list [] rfl rfl Slots.nodup10 (.inl rfl)
theorem Slots.drctlReset (x_die : Nat) : Slots.Statement (.drctlReset x_die) := Slots.of_list [] rfl rfl Slots.nodup10 (.inl rfl)
theorem Slots.drctlRetrain (x_die : Nat) : Slots.Statement (.drctlRetrain x_die) := Slots.of_list [] rfl rfl Slots.nodup10 (.inl rfl)
theorem Slots.trained (x_die : Nat) (x_ok : Nat) : Slots.Statement (.trained x_die x_ok) := Slots.of_list [] rfl rfl Slots.nodup10 (.inl rfl)
theorem Slots.admitCmd (x_die : Nat) : Slots.Statement (.admitCmd x_die) := Slots.of_list [] rfl rfl Slots.nodup10 (.inl rfl)
theorem Slots.admitDone (x_die : Nat) (x_ok : Nat) : Slots.Statement (.admitDone x_die x_ok) := Slots.of_list [] rfl rfl Slots.nodup10 (.inl rfl)
theorem Slots.head : Slots.Statement (.head) := Slots.of_list [] rfl rfl Slots.nodup10 (.inl rfl)
theorem Slots.seal : Slots.Statement (.seal) := Slots.of_list [] rfl rfl Slots.nodup10 (.inl rfl)
theorem Slots.scrub (x_place : Nat) (x_found : Nat) : Slots.Statement (.scrub x_place x_found) := Slots.of_list [] rfl rfl Slots.nodup10 (.inl rfl)
theorem Slots.retire (x_site : Nat) : Slots.Statement (.retire x_site) := Slots.of_list [] rfl rfl Slots.nodup10 (.inl rfl)
theorem Slots.enable (x_p : Nat) : Slots.Statement (.enable x_p) := Slots.of_list [] rfl rfl Slots.nodup10 (.inl rfl)
theorem Slots.disable (x_p : Nat) : Slots.Statement (.disable x_p) := Slots.of_list [] rfl rfl Slots.nodup10 (.inl rfl)
theorem Slots.pctlRetrain (x_p : Nat) : Slots.Statement (.pctlRetrain x_p) := Slots.of_list [] rfl rfl Slots.nodup10 (.inl rfl)
theorem Slots.cxlPortFailure (x_port : Nat) : Slots.Statement (.cxlPortFailure x_port) := Slots.of_list [] rfl rfl Slots.nodup10 (.inl rfl)
theorem Slots.clockStep (x_power : Nat) (x_temp : Nat) : Slots.Statement (.clockStep x_power x_temp) := Slots.of_list [] rfl rfl Slots.nodup10 (.inl rfl)
theorem Slots.thermalTrip (x_temp : Nat) : Slots.Statement (.thermalTrip x_temp) := Slots.of_list [] rfl rfl Slots.nodup10 (.inl rfl)
theorem Slots.measuredStart (x_stage : Nat) : Slots.Statement (.measuredStart x_stage) := Slots.of_list [] rfl rfl Slots.nodup10 (.inl rfl)
theorem Slots.getMeasurements : Slots.Statement (.getMeasurements) := Slots.of_list [] rfl rfl Slots.nodup10 (.inl rfl)
theorem Slots.linkReplay (x_port : Nat) (x_idx : Nat) (x_fec : Nat) : Slots.Statement (.linkReplay x_port x_idx x_fec) := Slots.of_list [] rfl rfl Slots.nodup10 (.inl rfl)
theorem Slots.portTrainingDone (x_p : Nat) : Slots.Statement (.portTrainingDone x_p) := Slots.of_list [] rfl rfl Slots.nodup10 (.inl rfl)
theorem Slots.portDegraded (x_p : Nat) : Slots.Statement (.portDegraded x_p) := Slots.of_list [] rfl rfl Slots.nodup10 (.inl rfl)
theorem Slots.cxlPortTrained (x_port : Nat) (x_cap : Nat) : Slots.Statement (.cxlPortTrained x_port x_cap) := Slots.of_list [] rfl rfl Slots.nodup10 (.inl rfl)
theorem Slots.firmwarePush (x_ok : Nat) : Slots.Statement (.firmwarePush x_ok) := Slots.of_list [] rfl rfl Slots.nodup10 (.inl rfl)

end Sys2Proof.Laws
end

