-- ==== Sys2Proof/Laws/Ranges.lean ====
section
/-! SUPPORT. The copy of a range of memory, which a save and a resume use, keeps the canonical form. -/

namespace Sys2Proof.Laws
open Sys2Proof.Machine

theorem wf_foldl_memSet {α : Type} (f : α → Nat) (g : α → Byte) (l : List α) (m : List Host.Cell) (h : Memory.wf m = true) :
    Memory.wf (l.foldl (fun m c => memSet m (f c) (g c)) m) = true := by
  induction l generalizing m with
  | nil => exact h
  | cons c r ih => exact ih _ (wf_memSet m _ _ h)

theorem wf_copyRange (s : State) (src dst n : Nat) (h : Memory.wf s.mem = true) :
    Memory.wf (copyRange s src dst n).mem = true :=
  wf_foldl_memSet _ _ _ _ (wf_memClear s.mem dst n h)

end Sys2Proof.Laws
end

