-- ==== Sys2Proof/Laws/State.lean ====
section
/-! SUPPORT. One law per field per update of the state and of the bundle being issued, each true by definition, and the
laws of the sparse tables, so that no proof unfolds a record update. -/

namespace Sys2Proof.Laws
open Sys2Proof.Machine

/-! ## Sparse tables -/

theorem tget_tset {α : Type} (d : α) (t : Table α) (k j : Nat) (v : α) :
    tget d (tset t k v) j = if j = k then v else tget d t j := by
  induction t with
  | nil => simp only [tset, tget]; grind
  | cons e r ih =>
    obtain ⟨i, x⟩ := e
    simp only [tset]
    grind [tget]

theorem tfind_tset {α : Type} (t : Table α) (k j : Nat) (v : α) :
    tfind (tset t k v) j = if j = k then some v else tfind t j := by
  induction t with
  | nil => simp only [tset, tfind]; grind
  | cons e r ih =>
    obtain ⟨i, x⟩ := e
    simp only [tset]
    grind [tfind]

@[simp] theorem getSeq_setSeq_same (s : State) (n : Nat) (q : Seq) : getSeq (setSeq s n q) n = q := by
  simp [getSeq, setSeq, tget_tset]

theorem getSeq_setSeq (s : State) (n k : Nat) (q : Seq) : getSeq (setSeq s n q) k = if k = n then q else getSeq s k := by
  simp [getSeq, setSeq, tget_tset]

@[simp] theorem getCtx_setCtx_same (s : State) (c : Nat) (x : Ctx) : getCtx (setCtx s c x) c = some x := by
  simp [getCtx, setCtx, tfind_tset]

theorem getCtx_setCtx (s : State) (c k : Nat) (x : Ctx) :
    getCtx (setCtx s c x) k = if k = c then some x else getCtx s k := by
  simp [getCtx, setCtx, tfind_tset]

@[simp] theorem getSite_setSite_same (s : State) (n : Nat) (x : Site) : getSite (setSite s n x) n = x := by
  simp [getSite, setSite, tget_tset]

theorem getSite_setSite (s : State) (n k : Nat) (x : Site) :
    getSite (setSite s n x) k = if k = n then x else getSite s k := by
  simp [getSite, setSite, tget_tset]

/-! ## `setSeq` -/

@[simp] theorem setSeq_clock (s : State) (n : Nat) (q : Seq) : (setSeq s n q).clock = s.clock := rfl
@[simp] theorem setSeq_stamp (s : State) (n : Nat) (q : Seq) : (setSeq s n q).stamp = s.stamp := rfl
@[simp] theorem setSeq_free (s : State) (n : Nat) (q : Seq) : (setSeq s n q).free = s.free := rfl
@[simp] theorem setSeq_serial (s : State) (n : Nat) (q : Seq) : (setSeq s n q).serial = s.serial := rfl
@[simp] theorem setSeq_cur (s : State) (n : Nat) (q : Seq) : (setSeq s n q).cur = s.cur := rfl
@[simp] theorem setSeq_turn (s : State) (n : Nat) (q : Seq) : (setSeq s n q).turn = s.turn := rfl
@[simp] theorem setSeq_ran (s : State) (n : Nat) (q : Seq) : (setSeq s n q).ran = s.ran := rfl
@[simp] theorem setSeq_inputs (s : State) (n : Nat) (q : Seq) : (setSeq s n q).inputs = s.inputs := rfl
@[simp] theorem setSeq_bundle (s : State) (n : Nat) (q : Seq) : (setSeq s n q).bundle = s.bundle := rfl
@[simp] theorem setSeq_sites (s : State) (n : Nat) (q : Seq) : (setSeq s n q).sites = s.sites := rfl
@[simp] theorem setSeq_lodes (s : State) (n : Nat) (q : Seq) : (setSeq s n q).lodes = s.lodes := rfl
@[simp] theorem setSeq_mem (s : State) (n : Nat) (q : Seq) : (setSeq s n q).mem = s.mem := rfl
@[simp] theorem setSeq_poison (s : State) (n : Nat) (q : Seq) : (setSeq s n q).poison = s.poison := rfl
@[simp] theorem setSeq_posts (s : State) (n : Nat) (q : Seq) : (setSeq s n q).posts = s.posts := rfl
@[simp] theorem setSeq_refusals (s : State) (n : Nat) (q : Seq) : (setSeq s n q).refusals = s.refusals := rfl
@[simp] theorem setSeq_woken (s : State) (n : Nat) (q : Seq) : (setSeq s n q).woken = s.woken := rfl
@[simp] theorem setSeq_coreStores (s : State) (n : Nat) (q : Seq) : (setSeq s n q).coreStores = s.coreStores := rfl
@[simp] theorem setSeq_coreFails (s : State) (n : Nat) (q : Seq) : (setSeq s n q).coreFails = s.coreFails := rfl
@[simp] theorem setSeq_cmInstall (s : State) (n : Nat) (q : Seq) : (setSeq s n q).cmInstall = s.cmInstall := rfl
@[simp] theorem setSeq_ctxs (s : State) (n : Nat) (q : Seq) : (setSeq s n q).ctxs = s.ctxs := rfl
@[simp] theorem setSeq_launches (s : State) (n : Nat) (q : Seq) : (setSeq s n q).launches = s.launches := rfl
@[simp] theorem setSeq_queues (s : State) (n : Nat) (q : Seq) : (setSeq s n q).queues = s.queues := rfl
@[simp] theorem setSeq_faccept (s : State) (n : Nat) (q : Seq) : (setSeq s n q).faccept = s.faccept := rfl
@[simp] theorem setSeq_lock (s : State) (n : Nat) (q : Seq) : (setSeq s n q).lock = s.lock := rfl
@[simp] theorem setSeq_frame (s : State) (n : Nat) (q : Seq) : (setSeq s n q).frame = s.frame := rfl
@[simp] theorem setSeq_cmarg0 (s : State) (n : Nat) (q : Seq) : (setSeq s n q).cmarg0 = s.cmarg0 := rfl
@[simp] theorem setSeq_cmarg1 (s : State) (n : Nat) (q : Seq) : (setSeq s n q).cmarg1 = s.cmarg1 := rfl
@[simp] theorem setSeq_cmarg2 (s : State) (n : Nat) (q : Seq) : (setSeq s n q).cmarg2 = s.cmarg2 := rfl
@[simp] theorem setSeq_cmstat (s : State) (n : Nat) (q : Seq) : (setSeq s n q).cmstat = s.cmstat := rfl
@[simp] theorem setSeq_cmcmd (s : State) (n : Nat) (q : Seq) : (setSeq s n q).cmcmd = s.cmcmd := rfl
@[simp] theorem setSeq_dies (s : State) (n : Nat) (q : Seq) : (setSeq s n q).dies = s.dies := rfl
@[simp] theorem setSeq_peat (s : State) (n : Nat) (q : Seq) : (setSeq s n q).peat = s.peat := rfl
@[simp] theorem setSeq_events (s : State) (n : Nat) (q : Seq) : (setSeq s n q).events = s.events := rfl
@[simp] theorem setSeq_links (s : State) (n : Nat) (q : Seq) : (setSeq s n q).links = s.links := rfl
@[simp] theorem setSeq_ports (s : State) (n : Nat) (q : Seq) : (setSeq s n q).ports = s.ports := rfl
@[simp] theorem setSeq_routes (s : State) (n : Nat) (q : Seq) : (setSeq s n q).routes = s.routes := rfl
@[simp] theorem setSeq_cxl (s : State) (n : Nat) (q : Seq) : (setSeq s n q).cxl = s.cxl := rfl
@[simp] theorem setSeq_mgmt (s : State) (n : Nat) (q : Seq) : (setSeq s n q).mgmt = s.mgmt := rfl
@[simp] theorem setSeq_tickets (s : State) (n : Nat) (q : Seq) : (setSeq s n q).tickets = s.tickets := rfl
@[simp] theorem setSeq_msix (s : State) (n : Nat) (q : Seq) : (setSeq s n q).msix = s.msix := rfl
@[simp] theorem setSeq_fatals (s : State) (n : Nat) (q : Seq) : (setSeq s n q).fatals = s.fatals := rfl
@[simp] theorem setSeq_halted (s : State) (n : Nat) (q : Seq) : (setSeq s n q).halted = s.halted := rfl

/-! ## `setSite` -/

@[simp] theorem setSite_clock (s : State) (n : Nat) (x : Site) : (setSite s n x).clock = s.clock := rfl
@[simp] theorem setSite_stamp (s : State) (n : Nat) (x : Site) : (setSite s n x).stamp = s.stamp := rfl
@[simp] theorem setSite_free (s : State) (n : Nat) (x : Site) : (setSite s n x).free = s.free := rfl
@[simp] theorem setSite_serial (s : State) (n : Nat) (x : Site) : (setSite s n x).serial = s.serial := rfl
@[simp] theorem setSite_cur (s : State) (n : Nat) (x : Site) : (setSite s n x).cur = s.cur := rfl
@[simp] theorem setSite_turn (s : State) (n : Nat) (x : Site) : (setSite s n x).turn = s.turn := rfl
@[simp] theorem setSite_ran (s : State) (n : Nat) (x : Site) : (setSite s n x).ran = s.ran := rfl
@[simp] theorem setSite_inputs (s : State) (n : Nat) (x : Site) : (setSite s n x).inputs = s.inputs := rfl
@[simp] theorem setSite_bundle (s : State) (n : Nat) (x : Site) : (setSite s n x).bundle = s.bundle := rfl
@[simp] theorem setSite_seqs (s : State) (n : Nat) (x : Site) : (setSite s n x).seqs = s.seqs := rfl
@[simp] theorem setSite_lodes (s : State) (n : Nat) (x : Site) : (setSite s n x).lodes = s.lodes := rfl
@[simp] theorem setSite_mem (s : State) (n : Nat) (x : Site) : (setSite s n x).mem = s.mem := rfl
@[simp] theorem setSite_poison (s : State) (n : Nat) (x : Site) : (setSite s n x).poison = s.poison := rfl
@[simp] theorem setSite_posts (s : State) (n : Nat) (x : Site) : (setSite s n x).posts = s.posts := rfl
@[simp] theorem setSite_refusals (s : State) (n : Nat) (x : Site) : (setSite s n x).refusals = s.refusals := rfl
@[simp] theorem setSite_woken (s : State) (n : Nat) (x : Site) : (setSite s n x).woken = s.woken := rfl
@[simp] theorem setSite_coreStores (s : State) (n : Nat) (x : Site) : (setSite s n x).coreStores = s.coreStores := rfl
@[simp] theorem setSite_coreFails (s : State) (n : Nat) (x : Site) : (setSite s n x).coreFails = s.coreFails := rfl
@[simp] theorem setSite_cmInstall (s : State) (n : Nat) (x : Site) : (setSite s n x).cmInstall = s.cmInstall := rfl
@[simp] theorem setSite_ctxs (s : State) (n : Nat) (x : Site) : (setSite s n x).ctxs = s.ctxs := rfl
@[simp] theorem setSite_launches (s : State) (n : Nat) (x : Site) : (setSite s n x).launches = s.launches := rfl
@[simp] theorem setSite_queues (s : State) (n : Nat) (x : Site) : (setSite s n x).queues = s.queues := rfl
@[simp] theorem setSite_faccept (s : State) (n : Nat) (x : Site) : (setSite s n x).faccept = s.faccept := rfl
@[simp] theorem setSite_lock (s : State) (n : Nat) (x : Site) : (setSite s n x).lock = s.lock := rfl
@[simp] theorem setSite_frame (s : State) (n : Nat) (x : Site) : (setSite s n x).frame = s.frame := rfl
@[simp] theorem setSite_cmarg0 (s : State) (n : Nat) (x : Site) : (setSite s n x).cmarg0 = s.cmarg0 := rfl
@[simp] theorem setSite_cmarg1 (s : State) (n : Nat) (x : Site) : (setSite s n x).cmarg1 = s.cmarg1 := rfl
@[simp] theorem setSite_cmarg2 (s : State) (n : Nat) (x : Site) : (setSite s n x).cmarg2 = s.cmarg2 := rfl
@[simp] theorem setSite_cmstat (s : State) (n : Nat) (x : Site) : (setSite s n x).cmstat = s.cmstat := rfl
@[simp] theorem setSite_cmcmd (s : State) (n : Nat) (x : Site) : (setSite s n x).cmcmd = s.cmcmd := rfl
@[simp] theorem setSite_dies (s : State) (n : Nat) (x : Site) : (setSite s n x).dies = s.dies := rfl
@[simp] theorem setSite_peat (s : State) (n : Nat) (x : Site) : (setSite s n x).peat = s.peat := rfl
@[simp] theorem setSite_events (s : State) (n : Nat) (x : Site) : (setSite s n x).events = s.events := rfl
@[simp] theorem setSite_links (s : State) (n : Nat) (x : Site) : (setSite s n x).links = s.links := rfl
@[simp] theorem setSite_ports (s : State) (n : Nat) (x : Site) : (setSite s n x).ports = s.ports := rfl
@[simp] theorem setSite_routes (s : State) (n : Nat) (x : Site) : (setSite s n x).routes = s.routes := rfl
@[simp] theorem setSite_cxl (s : State) (n : Nat) (x : Site) : (setSite s n x).cxl = s.cxl := rfl
@[simp] theorem setSite_mgmt (s : State) (n : Nat) (x : Site) : (setSite s n x).mgmt = s.mgmt := rfl
@[simp] theorem setSite_tickets (s : State) (n : Nat) (x : Site) : (setSite s n x).tickets = s.tickets := rfl
@[simp] theorem setSite_msix (s : State) (n : Nat) (x : Site) : (setSite s n x).msix = s.msix := rfl
@[simp] theorem setSite_fatals (s : State) (n : Nat) (x : Site) : (setSite s n x).fatals = s.fatals := rfl
@[simp] theorem setSite_halted (s : State) (n : Nat) (x : Site) : (setSite s n x).halted = s.halted := rfl

/-! ## `setCtx` -/

@[simp] theorem setCtx_clock (s : State) (c : Nat) (x : Ctx) : (setCtx s c x).clock = s.clock := rfl
@[simp] theorem setCtx_stamp (s : State) (c : Nat) (x : Ctx) : (setCtx s c x).stamp = s.stamp := rfl
@[simp] theorem setCtx_free (s : State) (c : Nat) (x : Ctx) : (setCtx s c x).free = s.free := rfl
@[simp] theorem setCtx_serial (s : State) (c : Nat) (x : Ctx) : (setCtx s c x).serial = s.serial := rfl
@[simp] theorem setCtx_cur (s : State) (c : Nat) (x : Ctx) : (setCtx s c x).cur = s.cur := rfl
@[simp] theorem setCtx_turn (s : State) (c : Nat) (x : Ctx) : (setCtx s c x).turn = s.turn := rfl
@[simp] theorem setCtx_ran (s : State) (c : Nat) (x : Ctx) : (setCtx s c x).ran = s.ran := rfl
@[simp] theorem setCtx_inputs (s : State) (c : Nat) (x : Ctx) : (setCtx s c x).inputs = s.inputs := rfl
@[simp] theorem setCtx_bundle (s : State) (c : Nat) (x : Ctx) : (setCtx s c x).bundle = s.bundle := rfl
@[simp] theorem setCtx_seqs (s : State) (c : Nat) (x : Ctx) : (setCtx s c x).seqs = s.seqs := rfl
@[simp] theorem setCtx_sites (s : State) (c : Nat) (x : Ctx) : (setCtx s c x).sites = s.sites := rfl
@[simp] theorem setCtx_lodes (s : State) (c : Nat) (x : Ctx) : (setCtx s c x).lodes = s.lodes := rfl
@[simp] theorem setCtx_mem (s : State) (c : Nat) (x : Ctx) : (setCtx s c x).mem = s.mem := rfl
@[simp] theorem setCtx_poison (s : State) (c : Nat) (x : Ctx) : (setCtx s c x).poison = s.poison := rfl
@[simp] theorem setCtx_posts (s : State) (c : Nat) (x : Ctx) : (setCtx s c x).posts = s.posts := rfl
@[simp] theorem setCtx_refusals (s : State) (c : Nat) (x : Ctx) : (setCtx s c x).refusals = s.refusals := rfl
@[simp] theorem setCtx_woken (s : State) (c : Nat) (x : Ctx) : (setCtx s c x).woken = s.woken := rfl
@[simp] theorem setCtx_coreStores (s : State) (c : Nat) (x : Ctx) : (setCtx s c x).coreStores = s.coreStores := rfl
@[simp] theorem setCtx_coreFails (s : State) (c : Nat) (x : Ctx) : (setCtx s c x).coreFails = s.coreFails := rfl
@[simp] theorem setCtx_cmInstall (s : State) (c : Nat) (x : Ctx) : (setCtx s c x).cmInstall = s.cmInstall := rfl
@[simp] theorem setCtx_launches (s : State) (c : Nat) (x : Ctx) : (setCtx s c x).launches = s.launches := rfl
@[simp] theorem setCtx_queues (s : State) (c : Nat) (x : Ctx) : (setCtx s c x).queues = s.queues := rfl
@[simp] theorem setCtx_faccept (s : State) (c : Nat) (x : Ctx) : (setCtx s c x).faccept = s.faccept := rfl
@[simp] theorem setCtx_lock (s : State) (c : Nat) (x : Ctx) : (setCtx s c x).lock = s.lock := rfl
@[simp] theorem setCtx_frame (s : State) (c : Nat) (x : Ctx) : (setCtx s c x).frame = s.frame := rfl
@[simp] theorem setCtx_cmarg0 (s : State) (c : Nat) (x : Ctx) : (setCtx s c x).cmarg0 = s.cmarg0 := rfl
@[simp] theorem setCtx_cmarg1 (s : State) (c : Nat) (x : Ctx) : (setCtx s c x).cmarg1 = s.cmarg1 := rfl
@[simp] theorem setCtx_cmarg2 (s : State) (c : Nat) (x : Ctx) : (setCtx s c x).cmarg2 = s.cmarg2 := rfl
@[simp] theorem setCtx_cmstat (s : State) (c : Nat) (x : Ctx) : (setCtx s c x).cmstat = s.cmstat := rfl
@[simp] theorem setCtx_cmcmd (s : State) (c : Nat) (x : Ctx) : (setCtx s c x).cmcmd = s.cmcmd := rfl
@[simp] theorem setCtx_dies (s : State) (c : Nat) (x : Ctx) : (setCtx s c x).dies = s.dies := rfl
@[simp] theorem setCtx_peat (s : State) (c : Nat) (x : Ctx) : (setCtx s c x).peat = s.peat := rfl
@[simp] theorem setCtx_events (s : State) (c : Nat) (x : Ctx) : (setCtx s c x).events = s.events := rfl
@[simp] theorem setCtx_links (s : State) (c : Nat) (x : Ctx) : (setCtx s c x).links = s.links := rfl
@[simp] theorem setCtx_ports (s : State) (c : Nat) (x : Ctx) : (setCtx s c x).ports = s.ports := rfl
@[simp] theorem setCtx_routes (s : State) (c : Nat) (x : Ctx) : (setCtx s c x).routes = s.routes := rfl
@[simp] theorem setCtx_cxl (s : State) (c : Nat) (x : Ctx) : (setCtx s c x).cxl = s.cxl := rfl
@[simp] theorem setCtx_mgmt (s : State) (c : Nat) (x : Ctx) : (setCtx s c x).mgmt = s.mgmt := rfl
@[simp] theorem setCtx_tickets (s : State) (c : Nat) (x : Ctx) : (setCtx s c x).tickets = s.tickets := rfl
@[simp] theorem setCtx_msix (s : State) (c : Nat) (x : Ctx) : (setCtx s c x).msix = s.msix := rfl
@[simp] theorem setCtx_fatals (s : State) (c : Nat) (x : Ctx) : (setCtx s c x).fatals = s.fatals := rfl
@[simp] theorem setCtx_halted (s : State) (c : Nat) (x : Ctx) : (setCtx s c x).halted = s.halted := rfl

/-! ## `writeBytes` -/

@[simp] theorem writeBytes_clock (s : State) (a : Nat) (l : List Byte) : (writeBytes s a l).clock = s.clock := rfl
@[simp] theorem writeBytes_stamp (s : State) (a : Nat) (l : List Byte) : (writeBytes s a l).stamp = s.stamp := rfl
@[simp] theorem writeBytes_free (s : State) (a : Nat) (l : List Byte) : (writeBytes s a l).free = s.free := rfl
@[simp] theorem writeBytes_serial (s : State) (a : Nat) (l : List Byte) : (writeBytes s a l).serial = s.serial := rfl
@[simp] theorem writeBytes_cur (s : State) (a : Nat) (l : List Byte) : (writeBytes s a l).cur = s.cur := rfl
@[simp] theorem writeBytes_turn (s : State) (a : Nat) (l : List Byte) : (writeBytes s a l).turn = s.turn := rfl
@[simp] theorem writeBytes_ran (s : State) (a : Nat) (l : List Byte) : (writeBytes s a l).ran = s.ran := rfl
@[simp] theorem writeBytes_inputs (s : State) (a : Nat) (l : List Byte) : (writeBytes s a l).inputs = s.inputs := rfl
@[simp] theorem writeBytes_bundle (s : State) (a : Nat) (l : List Byte) : (writeBytes s a l).bundle = s.bundle := rfl
@[simp] theorem writeBytes_seqs (s : State) (a : Nat) (l : List Byte) : (writeBytes s a l).seqs = s.seqs := rfl
@[simp] theorem writeBytes_sites (s : State) (a : Nat) (l : List Byte) : (writeBytes s a l).sites = s.sites := rfl
@[simp] theorem writeBytes_lodes (s : State) (a : Nat) (l : List Byte) : (writeBytes s a l).lodes = s.lodes := rfl
@[simp] theorem writeBytes_posts (s : State) (a : Nat) (l : List Byte) : (writeBytes s a l).posts = s.posts := rfl
@[simp] theorem writeBytes_refusals (s : State) (a : Nat) (l : List Byte) : (writeBytes s a l).refusals = s.refusals := rfl
@[simp] theorem writeBytes_woken (s : State) (a : Nat) (l : List Byte) : (writeBytes s a l).woken = s.woken := rfl
@[simp] theorem writeBytes_coreStores (s : State) (a : Nat) (l : List Byte) : (writeBytes s a l).coreStores = s.coreStores := rfl
@[simp] theorem writeBytes_coreFails (s : State) (a : Nat) (l : List Byte) : (writeBytes s a l).coreFails = s.coreFails := rfl
@[simp] theorem writeBytes_cmInstall (s : State) (a : Nat) (l : List Byte) : (writeBytes s a l).cmInstall = s.cmInstall := rfl
@[simp] theorem writeBytes_ctxs (s : State) (a : Nat) (l : List Byte) : (writeBytes s a l).ctxs = s.ctxs := rfl
@[simp] theorem writeBytes_launches (s : State) (a : Nat) (l : List Byte) : (writeBytes s a l).launches = s.launches := rfl
@[simp] theorem writeBytes_queues (s : State) (a : Nat) (l : List Byte) : (writeBytes s a l).queues = s.queues := rfl
@[simp] theorem writeBytes_faccept (s : State) (a : Nat) (l : List Byte) : (writeBytes s a l).faccept = s.faccept := rfl
@[simp] theorem writeBytes_lock (s : State) (a : Nat) (l : List Byte) : (writeBytes s a l).lock = s.lock := rfl
@[simp] theorem writeBytes_frame (s : State) (a : Nat) (l : List Byte) : (writeBytes s a l).frame = s.frame := rfl
@[simp] theorem writeBytes_cmarg0 (s : State) (a : Nat) (l : List Byte) : (writeBytes s a l).cmarg0 = s.cmarg0 := rfl
@[simp] theorem writeBytes_cmarg1 (s : State) (a : Nat) (l : List Byte) : (writeBytes s a l).cmarg1 = s.cmarg1 := rfl
@[simp] theorem writeBytes_cmarg2 (s : State) (a : Nat) (l : List Byte) : (writeBytes s a l).cmarg2 = s.cmarg2 := rfl
@[simp] theorem writeBytes_cmstat (s : State) (a : Nat) (l : List Byte) : (writeBytes s a l).cmstat = s.cmstat := rfl
@[simp] theorem writeBytes_cmcmd (s : State) (a : Nat) (l : List Byte) : (writeBytes s a l).cmcmd = s.cmcmd := rfl
@[simp] theorem writeBytes_dies (s : State) (a : Nat) (l : List Byte) : (writeBytes s a l).dies = s.dies := rfl
@[simp] theorem writeBytes_peat (s : State) (a : Nat) (l : List Byte) : (writeBytes s a l).peat = s.peat := rfl
@[simp] theorem writeBytes_events (s : State) (a : Nat) (l : List Byte) : (writeBytes s a l).events = s.events := rfl
@[simp] theorem writeBytes_links (s : State) (a : Nat) (l : List Byte) : (writeBytes s a l).links = s.links := rfl
@[simp] theorem writeBytes_ports (s : State) (a : Nat) (l : List Byte) : (writeBytes s a l).ports = s.ports := rfl
@[simp] theorem writeBytes_routes (s : State) (a : Nat) (l : List Byte) : (writeBytes s a l).routes = s.routes := rfl
@[simp] theorem writeBytes_cxl (s : State) (a : Nat) (l : List Byte) : (writeBytes s a l).cxl = s.cxl := rfl
@[simp] theorem writeBytes_mgmt (s : State) (a : Nat) (l : List Byte) : (writeBytes s a l).mgmt = s.mgmt := rfl
@[simp] theorem writeBytes_tickets (s : State) (a : Nat) (l : List Byte) : (writeBytes s a l).tickets = s.tickets := rfl
@[simp] theorem writeBytes_msix (s : State) (a : Nat) (l : List Byte) : (writeBytes s a l).msix = s.msix := rfl
@[simp] theorem writeBytes_fatals (s : State) (a : Nat) (l : List Byte) : (writeBytes s a l).fatals = s.fatals := rfl
@[simp] theorem writeBytes_halted (s : State) (a : Nat) (l : List Byte) : (writeBytes s a l).halted = s.halted := rfl

/-! ## `clearRange` -/

@[simp] theorem clearRange_clock (s : State) (a n : Nat) : (clearRange s a n).clock = s.clock := rfl
@[simp] theorem clearRange_stamp (s : State) (a n : Nat) : (clearRange s a n).stamp = s.stamp := rfl
@[simp] theorem clearRange_free (s : State) (a n : Nat) : (clearRange s a n).free = s.free := rfl
@[simp] theorem clearRange_serial (s : State) (a n : Nat) : (clearRange s a n).serial = s.serial := rfl
@[simp] theorem clearRange_cur (s : State) (a n : Nat) : (clearRange s a n).cur = s.cur := rfl
@[simp] theorem clearRange_turn (s : State) (a n : Nat) : (clearRange s a n).turn = s.turn := rfl
@[simp] theorem clearRange_ran (s : State) (a n : Nat) : (clearRange s a n).ran = s.ran := rfl
@[simp] theorem clearRange_inputs (s : State) (a n : Nat) : (clearRange s a n).inputs = s.inputs := rfl
@[simp] theorem clearRange_bundle (s : State) (a n : Nat) : (clearRange s a n).bundle = s.bundle := rfl
@[simp] theorem clearRange_seqs (s : State) (a n : Nat) : (clearRange s a n).seqs = s.seqs := rfl
@[simp] theorem clearRange_sites (s : State) (a n : Nat) : (clearRange s a n).sites = s.sites := rfl
@[simp] theorem clearRange_lodes (s : State) (a n : Nat) : (clearRange s a n).lodes = s.lodes := rfl
@[simp] theorem clearRange_posts (s : State) (a n : Nat) : (clearRange s a n).posts = s.posts := rfl
@[simp] theorem clearRange_refusals (s : State) (a n : Nat) : (clearRange s a n).refusals = s.refusals := rfl
@[simp] theorem clearRange_woken (s : State) (a n : Nat) : (clearRange s a n).woken = s.woken := rfl
@[simp] theorem clearRange_coreStores (s : State) (a n : Nat) : (clearRange s a n).coreStores = s.coreStores := rfl
@[simp] theorem clearRange_coreFails (s : State) (a n : Nat) : (clearRange s a n).coreFails = s.coreFails := rfl
@[simp] theorem clearRange_cmInstall (s : State) (a n : Nat) : (clearRange s a n).cmInstall = s.cmInstall := rfl
@[simp] theorem clearRange_ctxs (s : State) (a n : Nat) : (clearRange s a n).ctxs = s.ctxs := rfl
@[simp] theorem clearRange_launches (s : State) (a n : Nat) : (clearRange s a n).launches = s.launches := rfl
@[simp] theorem clearRange_queues (s : State) (a n : Nat) : (clearRange s a n).queues = s.queues := rfl
@[simp] theorem clearRange_faccept (s : State) (a n : Nat) : (clearRange s a n).faccept = s.faccept := rfl
@[simp] theorem clearRange_lock (s : State) (a n : Nat) : (clearRange s a n).lock = s.lock := rfl
@[simp] theorem clearRange_frame (s : State) (a n : Nat) : (clearRange s a n).frame = s.frame := rfl
@[simp] theorem clearRange_cmarg0 (s : State) (a n : Nat) : (clearRange s a n).cmarg0 = s.cmarg0 := rfl
@[simp] theorem clearRange_cmarg1 (s : State) (a n : Nat) : (clearRange s a n).cmarg1 = s.cmarg1 := rfl
@[simp] theorem clearRange_cmarg2 (s : State) (a n : Nat) : (clearRange s a n).cmarg2 = s.cmarg2 := rfl
@[simp] theorem clearRange_cmstat (s : State) (a n : Nat) : (clearRange s a n).cmstat = s.cmstat := rfl
@[simp] theorem clearRange_cmcmd (s : State) (a n : Nat) : (clearRange s a n).cmcmd = s.cmcmd := rfl
@[simp] theorem clearRange_dies (s : State) (a n : Nat) : (clearRange s a n).dies = s.dies := rfl
@[simp] theorem clearRange_peat (s : State) (a n : Nat) : (clearRange s a n).peat = s.peat := rfl
@[simp] theorem clearRange_events (s : State) (a n : Nat) : (clearRange s a n).events = s.events := rfl
@[simp] theorem clearRange_links (s : State) (a n : Nat) : (clearRange s a n).links = s.links := rfl
@[simp] theorem clearRange_ports (s : State) (a n : Nat) : (clearRange s a n).ports = s.ports := rfl
@[simp] theorem clearRange_routes (s : State) (a n : Nat) : (clearRange s a n).routes = s.routes := rfl
@[simp] theorem clearRange_cxl (s : State) (a n : Nat) : (clearRange s a n).cxl = s.cxl := rfl
@[simp] theorem clearRange_mgmt (s : State) (a n : Nat) : (clearRange s a n).mgmt = s.mgmt := rfl
@[simp] theorem clearRange_tickets (s : State) (a n : Nat) : (clearRange s a n).tickets = s.tickets := rfl
@[simp] theorem clearRange_msix (s : State) (a n : Nat) : (clearRange s a n).msix = s.msix := rfl
@[simp] theorem clearRange_fatals (s : State) (a n : Nat) : (clearRange s a n).fatals = s.fatals := rfl
@[simp] theorem clearRange_halted (s : State) (a n : Nat) : (clearRange s a n).halted = s.halted := rfl

/-! ## What follows for the compound updates -/

theorem modCtx_frame (s : State) (c : Nat) (f : Ctx → Ctx) :
    modCtx s c f = s ∨ ∃ x, modCtx s c f = setCtx s c x := by
  unfold modCtx
  cases getCtx s c with
  | none => exact .inl rfl
  | some x => exact .inr ⟨f x, rfl⟩

theorem getSeq_modCtx (s : State) (c n : Nat) (f : Ctx → Ctx) : getSeq (modCtx s c f) n = getSeq s n := by
  rcases modCtx_frame s c f with h | ⟨x, h⟩ <;> rw [h] <;> rfl

@[simp] theorem modCtx_mem (s : State) (c : Nat) (f : Ctx → Ctx) : (modCtx s c f).mem = s.mem := by
  rcases modCtx_frame s c f with h | ⟨x, h⟩ <;> rw [h] <;> rfl

@[simp] theorem modCtx_seqs (s : State) (c : Nat) (f : Ctx → Ctx) : (modCtx s c f).seqs = s.seqs := by
  rcases modCtx_frame s c f with h | ⟨x, h⟩ <;> rw [h] <;> rfl

@[simp] theorem modCtx_bundle (s : State) (c : Nat) (f : Ctx → Ctx) : (modCtx s c f).bundle = s.bundle := by
  rcases modCtx_frame s c f with h | ⟨x, h⟩ <;> rw [h] <;> rfl

@[simp] theorem modCtx_sites (s : State) (c : Nat) (f : Ctx → Ctx) : (modCtx s c f).sites = s.sites := by
  rcases modCtx_frame s c f with h | ⟨x, h⟩ <;> rw [h] <;> rfl

theorem performStores_frame (l : List StoreOp) (s : State) :
    (performStores l s).seqs = s.seqs ∧ (performStores l s).sites = s.sites ∧ (performStores l s).ctxs = s.ctxs ∧
      (performStores l s).lodes = s.lodes ∧ (performStores l s).bundle = s.bundle ∧ (performStores l s).clock = s.clock ∧
      (performStores l s).free = s.free ∧ (performStores l s).events = s.events := by
  induction l generalizing s with
  | nil => exact ⟨rfl, rfl, rfl, rfl, rfl, rfl, rfl, rfl⟩
  | cons o r ih => exact ih (writeBytes s o.place o.bytes)

/-! ## `addFault` -/

@[simp] theorem addFault_seq (b : Bundle) (c : Nat) (k : BitVec 16) : (addFault b c k).seq = b.seq := rfl
@[simp] theorem addFault_start (b : Bundle) (c : Nat) (k : BitVec 16) : (addFault b c k).start = b.start := rfl
@[simp] theorem addFault_work (b : Bundle) (c : Nat) (k : BitVec 16) : (addFault b c k).work = b.work := rfl
@[simp] theorem addFault_slot (b : Bundle) (c : Nat) (k : BitVec 16) : (addFault b c k).slot = b.slot := rfl
@[simp] theorem addFault_fatals (b : Bundle) (c : Nat) (k : BitVec 16) : (addFault b c k).fatals = b.fatals := rfl
@[simp] theorem addFault_stalls (b : Bundle) (c : Nat) (k : BitVec 16) : (addFault b c k).stalls = b.stalls := rfl
@[simp] theorem addFault_stores (b : Bundle) (c : Nat) (k : BitVec 16) : (addFault b c k).stores = b.stores := rfl
@[simp] theorem addFault_errs (b : Bundle) (c : Nat) (k : BitVec 16) : (addFault b c k).errs = b.errs := rfl
@[simp] theorem addFault_ctl (b : Bundle) (c : Nat) (k : BitVec 16) : (addFault b c k).ctl = b.ctl := rfl
@[simp] theorem addFault_quiet (b : Bundle) (c : Nat) (k : BitVec 16) : (addFault b c k).quiet = b.quiet := rfl
@[simp] theorem addFault_ends (b : Bundle) (c : Nat) (k : BitVec 16) : (addFault b c k).ends = b.ends := rfl
@[simp] theorem addFault_drains (b : Bundle) (c : Nat) (k : BitVec 16) : (addFault b c k).drains = b.drains := rfl
@[simp] theorem addFault_fresh (b : Bundle) (c : Nat) (k : BitVec 16) : (addFault b c k).fresh = b.fresh := rfl

/-! ## `addFatal` -/

@[simp] theorem addFatal_seq (b : Bundle) (c : Nat) (d : Word) : (addFatal b c d).seq = b.seq := rfl
@[simp] theorem addFatal_start (b : Bundle) (c : Nat) (d : Word) : (addFatal b c d).start = b.start := rfl
@[simp] theorem addFatal_work (b : Bundle) (c : Nat) (d : Word) : (addFatal b c d).work = b.work := rfl
@[simp] theorem addFatal_slot (b : Bundle) (c : Nat) (d : Word) : (addFatal b c d).slot = b.slot := rfl
@[simp] theorem addFatal_faults (b : Bundle) (c : Nat) (d : Word) : (addFatal b c d).faults = b.faults := rfl
@[simp] theorem addFatal_stalls (b : Bundle) (c : Nat) (d : Word) : (addFatal b c d).stalls = b.stalls := rfl
@[simp] theorem addFatal_stores (b : Bundle) (c : Nat) (d : Word) : (addFatal b c d).stores = b.stores := rfl
@[simp] theorem addFatal_errs (b : Bundle) (c : Nat) (d : Word) : (addFatal b c d).errs = b.errs := rfl
@[simp] theorem addFatal_ctl (b : Bundle) (c : Nat) (d : Word) : (addFatal b c d).ctl = b.ctl := rfl
@[simp] theorem addFatal_quiet (b : Bundle) (c : Nat) (d : Word) : (addFatal b c d).quiet = b.quiet := rfl
@[simp] theorem addFatal_ends (b : Bundle) (c : Nat) (d : Word) : (addFatal b c d).ends = b.ends := rfl
@[simp] theorem addFatal_drains (b : Bundle) (c : Nat) (d : Word) : (addFatal b c d).drains = b.drains := rfl
@[simp] theorem addFatal_fresh (b : Bundle) (c : Nat) (d : Word) : (addFatal b c d).fresh = b.fresh := rfl

/-! ## `addStall` -/

@[simp] theorem addStall_seq (b : Bundle) (d : Word) : (addStall b d).seq = b.seq := rfl
@[simp] theorem addStall_start (b : Bundle) (d : Word) : (addStall b d).start = b.start := rfl
@[simp] theorem addStall_work (b : Bundle) (d : Word) : (addStall b d).work = b.work := rfl
@[simp] theorem addStall_slot (b : Bundle) (d : Word) : (addStall b d).slot = b.slot := rfl
@[simp] theorem addStall_faults (b : Bundle) (d : Word) : (addStall b d).faults = b.faults := rfl
@[simp] theorem addStall_fatals (b : Bundle) (d : Word) : (addStall b d).fatals = b.fatals := rfl
@[simp] theorem addStall_stores (b : Bundle) (d : Word) : (addStall b d).stores = b.stores := rfl
@[simp] theorem addStall_errs (b : Bundle) (d : Word) : (addStall b d).errs = b.errs := rfl
@[simp] theorem addStall_ctl (b : Bundle) (d : Word) : (addStall b d).ctl = b.ctl := rfl
@[simp] theorem addStall_quiet (b : Bundle) (d : Word) : (addStall b d).quiet = b.quiet := rfl
@[simp] theorem addStall_ends (b : Bundle) (d : Word) : (addStall b d).ends = b.ends := rfl
@[simp] theorem addStall_drains (b : Bundle) (d : Word) : (addStall b d).drains = b.drains := rfl
@[simp] theorem addStall_fresh (b : Bundle) (d : Word) : (addStall b d).fresh = b.fresh := rfl

/-! ## `addStore` -/

@[simp] theorem addStore_seq (b : Bundle) (p : Nat) (l : List Byte) : (addStore b p l).seq = b.seq := rfl
@[simp] theorem addStore_start (b : Bundle) (p : Nat) (l : List Byte) : (addStore b p l).start = b.start := rfl
@[simp] theorem addStore_work (b : Bundle) (p : Nat) (l : List Byte) : (addStore b p l).work = b.work := rfl
@[simp] theorem addStore_slot (b : Bundle) (p : Nat) (l : List Byte) : (addStore b p l).slot = b.slot := rfl
@[simp] theorem addStore_faults (b : Bundle) (p : Nat) (l : List Byte) : (addStore b p l).faults = b.faults := rfl
@[simp] theorem addStore_fatals (b : Bundle) (p : Nat) (l : List Byte) : (addStore b p l).fatals = b.fatals := rfl
@[simp] theorem addStore_stalls (b : Bundle) (p : Nat) (l : List Byte) : (addStore b p l).stalls = b.stalls := rfl
@[simp] theorem addStore_errs (b : Bundle) (p : Nat) (l : List Byte) : (addStore b p l).errs = b.errs := rfl
@[simp] theorem addStore_ctl (b : Bundle) (p : Nat) (l : List Byte) : (addStore b p l).ctl = b.ctl := rfl
@[simp] theorem addStore_quiet (b : Bundle) (p : Nat) (l : List Byte) : (addStore b p l).quiet = b.quiet := rfl
@[simp] theorem addStore_ends (b : Bundle) (p : Nat) (l : List Byte) : (addStore b p l).ends = b.ends := rfl
@[simp] theorem addStore_drains (b : Bundle) (p : Nat) (l : List Byte) : (addStore b p l).drains = b.drains := rfl
@[simp] theorem addStore_fresh (b : Bundle) (p : Nat) (l : List Byte) : (addStore b p l).fresh = b.fresh := rfl

/-! ## `addErr` -/

@[simp] theorem addErr_seq (b : Bundle) (e : PeatEvent) : (addErr b e).seq = b.seq := rfl
@[simp] theorem addErr_start (b : Bundle) (e : PeatEvent) : (addErr b e).start = b.start := rfl
@[simp] theorem addErr_work (b : Bundle) (e : PeatEvent) : (addErr b e).work = b.work := rfl
@[simp] theorem addErr_slot (b : Bundle) (e : PeatEvent) : (addErr b e).slot = b.slot := rfl
@[simp] theorem addErr_faults (b : Bundle) (e : PeatEvent) : (addErr b e).faults = b.faults := rfl
@[simp] theorem addErr_fatals (b : Bundle) (e : PeatEvent) : (addErr b e).fatals = b.fatals := rfl
@[simp] theorem addErr_stalls (b : Bundle) (e : PeatEvent) : (addErr b e).stalls = b.stalls := rfl
@[simp] theorem addErr_stores (b : Bundle) (e : PeatEvent) : (addErr b e).stores = b.stores := rfl
@[simp] theorem addErr_ctl (b : Bundle) (e : PeatEvent) : (addErr b e).ctl = b.ctl := rfl
@[simp] theorem addErr_quiet (b : Bundle) (e : PeatEvent) : (addErr b e).quiet = b.quiet := rfl
@[simp] theorem addErr_ends (b : Bundle) (e : PeatEvent) : (addErr b e).ends = b.ends := rfl
@[simp] theorem addErr_drains (b : Bundle) (e : PeatEvent) : (addErr b e).drains = b.drains := rfl
@[simp] theorem addErr_fresh (b : Bundle) (e : PeatEvent) : (addErr b e).fresh = b.fresh := rfl

/-! ## `mapWork` -/

@[simp] theorem mapWork_seq (b : Bundle) (f : Seq → Seq) : (mapWork b f).seq = b.seq := rfl
@[simp] theorem mapWork_start (b : Bundle) (f : Seq → Seq) : (mapWork b f).start = b.start := rfl
@[simp] theorem mapWork_slot (b : Bundle) (f : Seq → Seq) : (mapWork b f).slot = b.slot := rfl
@[simp] theorem mapWork_faults (b : Bundle) (f : Seq → Seq) : (mapWork b f).faults = b.faults := rfl
@[simp] theorem mapWork_fatals (b : Bundle) (f : Seq → Seq) : (mapWork b f).fatals = b.fatals := rfl
@[simp] theorem mapWork_stalls (b : Bundle) (f : Seq → Seq) : (mapWork b f).stalls = b.stalls := rfl
@[simp] theorem mapWork_stores (b : Bundle) (f : Seq → Seq) : (mapWork b f).stores = b.stores := rfl
@[simp] theorem mapWork_errs (b : Bundle) (f : Seq → Seq) : (mapWork b f).errs = b.errs := rfl
@[simp] theorem mapWork_ctl (b : Bundle) (f : Seq → Seq) : (mapWork b f).ctl = b.ctl := rfl
@[simp] theorem mapWork_quiet (b : Bundle) (f : Seq → Seq) : (mapWork b f).quiet = b.quiet := rfl
@[simp] theorem mapWork_ends (b : Bundle) (f : Seq → Seq) : (mapWork b f).ends = b.ends := rfl
@[simp] theorem mapWork_drains (b : Bundle) (f : Seq → Seq) : (mapWork b f).drains = b.drains := rfl
@[simp] theorem mapWork_fresh (b : Bundle) (f : Seq → Seq) : (mapWork b f).fresh = b.fresh := rfl

end Sys2Proof.Laws
end

