-- ==== Sys2Proof/Laws/Slots.lean ====
section
/-! SUPPORT. What the shared operations of a bundle can do, each said once: one slot operation, its checks, a scalar result,
a taken transfer, and the end of a bundle. -/

namespace Sys2Proof.Laws
open Sys2Proof.Machine

/-! ## One slot operation -/

/-- In an open bundle an operation changes the bundle and the counter of the free values, and nothing else. -/
theorem runSlot_open (home : Nat) (i : Instr) (op : State → Bundle → Bundle) (s : State) (b : Bundle) (h : s.bundle = some b) :
    runSlot home i op s = .next { s with bundle := some (slotEffect i op s b), free := s.free + 1 } := by
  simp [runSlot, h]

/-- With no bundle open an operation is a bundle of its own. -/
theorem runSlot_alone (home : Nat) (i : Instr) (op : State → Bundle → Bundle) (s : State) (h : s.bundle = none) :
    runSlot home i op s =
      .next (closeBundle { s with free := s.free + 1 } (slotEffect i op s { openBundle s s.cur with slot := home })) := by
  simp [runSlot, h]

/-- An operation that no check refuses has its effect. -/
theorem slotEffect_ok (i : Instr) (op : State → Bundle → Bundle) (s : State) (b : Bundle)
    (h : issueCauses s.faccept b.start.sr.hstat i = []) : slotEffect i op s b = op s b := by
  simp [slotEffect, h]

theorem addFault_foldl (l : List Nat) (b : Bundle) :
    l.foldl (fun b x => addFault b x 0) b = { b with faults := b.faults ++ l.map (fun k => (b.slot, k, (0 : BitVec 16))) } := by
  induction l generalizing b with
  | nil => simp
  | cons x r ih =>
    rw [List.foldl_cons, ih]
    simp [addFault]

/-- An operation that a check refuses has no effect but its faults (01_long_word R14, R16). -/
theorem slotEffect_refused (i : Instr) (op : State → Bundle → Bundle) (s : State) (b : Bundle)
    (h : issueCauses s.faccept b.start.sr.hstat i ≠ []) :
    slotEffect i op s b =
      { b with faults := b.faults ++ (issueCauses s.faccept b.start.sr.hstat i).map (fun k => (b.slot, k, (0 : BitVec 16))) } := by
  unfold slotEffect
  split
  · exact absurd ‹_› h
  · exact addFault_foldl _ _

/-- What an instruction answers whose meaning runs `op` in its slot. -/
theorem answers_of {i : Instr} {home : Nat} {op f : State → Bundle → Bundle} (he : ∀ s, exec i s = runSlot home i op s)
    (h : ∀ s u, op s u = f s u) : Answers i f := by
  intro s b hb
  rw [he, runSlot_open _ _ _ _ _ hb.1, slotEffect_ok _ _ _ _ hb.2, h]

theorem answersWhen_of {i : Instr} {home : Nat} {c : State → Bundle → Prop} {op f : State → Bundle → Bundle}
    (he : ∀ s, exec i s = runSlot home i op s) (h : ∀ s u, c s u → op s u = f s u) : AnswersWhen i c f := by
  intro s b hb hc
  rw [he, runSlot_open _ _ _ _ _ hb.1, slotEffect_ok _ _ _ _ hb.2, h s b hc]

/-! ## Scalar results and transfers -/

theorem setScalar_push (b : Bundle) (k : Nat) (v : Scalar) :
    setScalar b 0 k v = { b with work := pushValue b.work b.start.sr.hstat k v (b.slot == 3),
                                 fresh := freshDests b.start.sr.hstat 0 k b.fresh } := by simp [setScalar]

theorem setScalar_named (b : Bundle) (d : BitVec 6) (k : Nat) (v : Scalar) (h : 16 ≤ d.toNat) (h' : d.toNat ≤ 47) :
    setScalar b d k v = { b with work := writeNamedBy b.work (d.toNat - 16) k v (b.slot == 3),
                                 fresh := freshDests b.start.sr.hstat d k b.fresh } := by
  have : d ≠ 0 := by rintro rfl; simp at h
  simp only [setScalar, if_neg this, if_pos (And.intro h h')]

@[simp] theorem setScalar_start (b : Bundle) (d : BitVec 6) (k : Nat) (v : Scalar) : (setScalar b d k v).start = b.start := rfl
@[simp] theorem setScalar_seq (b : Bundle) (d : BitVec 6) (k : Nat) (v : Scalar) : (setScalar b d k v).seq = b.seq := rfl
@[simp] theorem setScalar_stores (b : Bundle) (d : BitVec 6) (k : Nat) (v : Scalar) : (setScalar b d k v).stores = b.stores := rfl
@[simp] theorem setScalar_ctl (b : Bundle) (d : BitVec 6) (k : Nat) (v : Scalar) : (setScalar b d k v).ctl = b.ctl := rfl

theorem takeTransfer_clear (b : Bundle) (t : BitVec 11) (h : b.start.shadow = none) : takeTransfer b t = { b with ctl := .transfer t } := by
  simp [takeTransfer, h]

theorem takeTransfer_shadow (b : Bundle) (t : BitVec 11) (h : b.start.shadow.isSome = true) : takeTransfer b t = addFault b 4 0 := by
  simp [takeTransfer, h]

/-! ## The end of a bundle -/

theorem closeBundle_faults (s : State) (b : Bundle) (h : b.faults ++ backEdgeFault b ≠ []) :
    closeBundle s b = faultBundle { s with bundle := none } b (b.faults ++ backEdgeFault b) := by
  unfold closeBundle
  have : (b.faults ++ backEdgeFault b).isEmpty = false := by simpa [List.isEmpty_iff] using h
  simp only [this, Bool.not_false, if_true]

theorem closeBundle_fatal (s : State) (b : Bundle) (f : Nat × Nat × Word) (r : List (Nat × Nat × Word)) (h1 : b.faults = [])
    (h2 : backEdgeFault b = []) (h3 : b.stalls = []) (h : b.fatals = f :: r) :
    closeBundle s b = stopContext { s with bundle := none } b.seq f.2.1 f.1 b.start.pc f.2.2 := by
  simp [closeBundle, h1, h2, h3, h]

theorem closeBundle_stall (s : State) (b : Bundle) (h1 : b.faults = []) (h2 : backEdgeFault b = [])
    (h : b.stalls ≠ []) : closeBundle s b = stallBundle { s with bundle := none } b := by
  have : b.stalls.isEmpty = false := by simpa [List.isEmpty_iff] using h
  simp [closeBundle, h1, h2, this]

theorem closeBundle_commit (s : State) (b : Bundle) (h : Commits b) : closeBundle s b = commitBundle { s with bundle := none } b := by
  obtain ⟨h1, h2, h3, h4⟩ := h
  simp [closeBundle, h1, h2, h3, h4]

/-- A fatal error charged to a context leaves memory and every sequencer as they stood. -/
theorem chargeFatal_frame (s : State) (n cause slot : Nat) (p : BitVec 11) (d : Word) :
    (chargeFatal s n cause slot p d).mem = s.mem ∧ ∀ k, getSeq (chargeFatal s n cause slot p d) k = getSeq s k := by
  unfold chargeFatal
  split
  · exact ⟨modCtx_mem _ _ _, fun k => getSeq_modCtx _ _ k _⟩
  · exact ⟨rfl, fun _ => rfl⟩

/-- A stop leaves memory and every other sequencer as they stood. -/
theorem stopContext_frame (s : State) (n cause slot : Nat) (p : BitVec 11) (d : Word) :
    (stopContext s n cause slot p d).mem = s.mem ∧ (∀ k, k ≠ n → getSeq (stopContext s n cause slot p d) k = getSeq s k) ∧
      getSeq (stopContext s n cause slot p d) n = { getSeq s n with status := .stopped } := by
  have h := chargeFatal_frame s n cause slot p d
  refine ⟨h.1, fun k hk => (getSeq_setSeq _ _ _ _).trans ((if_neg hk).trans (h.2 k)), ?_⟩
  rw [← h.2 n]
  exact getSeq_setSeq_same _ _ _

/-! ## Commands that stand in a register or a queue -/

/-- A mailbox command that the mailbox holds is carried out. -/
theorem mailboxCommand_holds (name : String) (p : Word → Bool) (f : Word → State → State) (s : State) (w : Word) (h : s.cmcmd = some w)
    (hp : p w = true) : mailboxCommand name p f s = .next (f w { s with cmcmd := none }) := by
  simp [mailboxCommand, h, hp]

/-- The same for a command that never stands over. -/
theorem mailboxStep_holds (name : String) (p : Word → Bool) (f : State → State) (s : State) (w : Word) (h : s.cmcmd = some w)
    (hp : p w = true) : mailboxStep name p f s = .next (f { s with cmcmd := none }) := by
  exact mailboxCommand_holds name p _ s w h hp

/-- A debug command with no other in progress, on a context that exists. -/
theorem debugCommand_ready (s : State) (f : Nat → Ctx → State) (x : Ctx) (h : dbgBusy s = false) (hx : getCtx s (dbgCtx s) = some x) :
    debugCommand s f = .next (f (dbgCtx s) x) := by
  simp [debugCommand, h, hx]

/-- A micro-step of a routine in progress, read undamaged. -/
theorem routineStep_runs (name : String) (f : State → Nat → Routine → State) (s : State) (r : Routine)
    (h : (getSeq s s.cur).mx.routine = some r) (he : r.ended = false) (hb : r.pc ∉ (getSeq s s.cur).microBad) :
    routineStep name f s = .next (f { s with free := s.free + 1 } s.cur r) := by
  simp [routineStep, h, he, hb]

end Sys2Proof.Laws
end

