-- ==== Sys2Proof/Tests/Slice0.lean ====
section
/-! SUPPORT. Tests of the model and the witnesses of its statements. Expected values come from the manual's worked examples, named in
each test, or are worked out by hand from the rule the test names. -/

namespace Sys2Proof.Tests
open Sys2Proof Sys2Proof.Machine

set_option Elab.async false

/-! ## States the tests run on -/

/-- Named registers: g0 0x100, g1 poisoned, g2 0x101 (misaligned), g3 0x200000 (outside every window), g4 7, g5 −3, g6 2^63, g7 0. -/
def regs : List Scalar :=
  [{ bits := 0x100 }, { poison := true }, { bits := 0x101 }, { bits := 0x200000 }, { bits := 7 }, { bits := 0xFFFFFFFFFFFFFFFD },
   { bits := 0x8000000000000000 }, { bits := 0 }] ++ List.replicate 24 { bits := 0 }

/-- A running task of context 0 whose window is all of P. -/
def task : Seq := { status := .running, ctx := some 0, g := regs, sr := { winSize := 0x100000, tvec := 0x8005 } }

/-- A state whose sequencer 0 is `q`, its context resident and every feature accepted. -/
def host (q : Seq) : State :=
  { State.reset with seqs := [(0, q)], ctxs := [(0, { life := 1, seqs := [0] })], faccept := Config.foffer, lock := true }

/-- The bundle that `q` begins. -/
def opened (q : Seq) : Bundle := { seq := 0, start := q, work := q }

/-- That bundle being issued. -/
def issuing (q : Seq) : State := { host q with bundle := some (opened q) }

def isNext (o : Out) : Bool :=
  match o with
  | .next _ => true
  | _ => false

/-- The bundle after one operation of `q`'s bundle. -/
def after (q : Seq) (i : Instr) : Bundle :=
  match exec i (issuing q) with
  | .next t => t.bundle.getD (opened q)
  | _ => opened q

/-- The state after one step or one operation. -/
def next (o : Out) (s : State) : State :=
  match o with
  | .next t => t
  | _ => s

theorem next_of_isNext (o : Out) (h : isNext o = true) : ∃ t, o = .next t := by
  cases o <;> simp_all [isNext]

/-- The named register that a destination code selects, after one operation. -/
def result (i : Instr) (r : Nat) : Word := (at' (after task i).work.g r {}).bits

/-! ## Well-formedness: one ill-formed term for each check -/

theorem test_refuses_operand_code_56 : wellFormed (.add 16 56 16) = false := by decide
theorem test_refuses_destination_q1 : wellFormed (.add 1 16 16) = false := by decide
theorem test_refuses_vector_source_58 : wellFormed (.vadd 0 58 0 0 0) = false := by decide
theorem test_refuses_vector_destination_56 : wellFormed (.vadd 56 0 0 0 0) = false := by decide
theorem test_refuses_stream_of_vmov : wellFormed (.vmov 48 0 0 0) = false := by decide
theorem test_refuses_stream_source_of_lsend : wellFormed (.lsend 48 0) = false := by decide
theorem test_refuses_staging_code_24 : wellFormed (.stg 24 16) = false := by decide
theorem test_refuses_integer_type_of_vadd : wellFormed (.vadd 0 0 0 0 6) = false := by decide
theorem test_refuses_rounding_6 : wellFormed (.vsqrt 0 0 6 0 0) = false := by decide
theorem test_refuses_pack_preset_9 : wellFormed (.vpack 0 0 9 0 0) = false := by decide
theorem test_refuses_reduction_6 : wellFormed (.vred 0 0 6 0 6) = false := by decide
theorem test_refuses_flag_without_post : wellFormed (.cpy 3 0 0 0 0) = false := by decide
theorem test_refuses_copy_scope_6 : wellFormed (.cpy 3 1 0 6 0) = false := by decide
theorem test_refuses_atomic_order_5 : wellFormed (.namo 0 0 5 0 0 0) = false := by decide
theorem test_refuses_state_register_0x014 : wellFormed (.srd 16 0x014) = false := by decide
theorem test_refuses_write_of_sr_tile : wellFormed (.swr 16 0x00F) = false := by decide
theorem test_refuses_acquire_2 : wellFormed (.wait 0 2 0) = false := by decide
theorem test_refuses_post_acquire : wellFormed (.post 0 1 0 0) = false := by decide
theorem test_refuses_drain_scope_6 : wellFormed (.drain 6) = false := by decide
theorem test_refuses_sext_0 : wellFormed (.sext 16 16 0) = false := by decide
theorem test_refuses_amo_kind_9 : wellFormed (.amoI32 16 16 16 9 0) = false := by decide
theorem test_refuses_branch_condition_7 : wellFormed (.br 7 16 0) = false := by decide
theorem test_refuses_loop_offset_0 : wellFormed (.loop 16 0) = false := by decide
theorem test_refuses_pair_at_odd_lane : wellFormed (.xtov 0 16 1 2) = false := by decide
theorem test_refuses_generator_parameter_10 : wellFormed (.xag 0 10 16) = false := by decide
theorem test_refuses_stream_status_5 : wellFormed (.xsts 0 5 16) = false := by decide
theorem test_refuses_comparison_7 : wellFormed (.vcmp 7 0 0 0 0 0) = false := by decide
theorem test_refuses_selector_m0 : wellFormed (.vsel 0 0 0 0 6) = false := by decide
theorem test_refuses_decision_7 : wellFormed (.vdec 0 7 0 0 0 0 0) = false := by decide
theorem test_refuses_fill_from_stream : wellFormed (.vcut 0 48 0) = false := by decide
theorem test_refuses_step_range_past_255 : wellFormed (.mstep 0 0 255 1) = false := by decide
theorem test_refuses_armed_decision_7 : wellFormed (.mdec 0 0 7) = false := by decide
theorem test_refuses_post_scope_6 : wellFormed (.fpost 0 0 0 6) = false := by decide
theorem test_refuses_atomic_kind_9 : wellFormed (.namo 0 0 0 0 9 0) = false := by decide
theorem test_refuses_failure_order_2 : wellFormed (.ncas 0 0 0 0 2 0) = false := by decide
theorem test_refuses_join_of_site_1 : wellFormed (.stepJoin 2) = false := by decide
theorem test_refuses_tail_of_two_sites : wellFormed (.stepTail 3 0) = false := by decide
theorem test_refuses_relative_fill_with_latch : wellFormed (.stepFill 1 1 0 1 0 0) = false := by decide
theorem test_refuses_feed_of_generator_with_entry : wellFormed (.stepFeed 1 1 0 1 0 0 0) = false := by decide
theorem test_refuses_repeat_of_no_words : wellFormed (.stepRepeat 1 0 0 0) = false := by decide
theorem test_refuses_sched_sync_with_flag : wellFormed (.stepSync 0 1) = false := by decide

/-! ## Decoding: words written out from the manual's encodings -/

/-- 12, 08 and 03's worked words: CPY !f2, MCALL #0, L0 !f3, WAIT f3, #1, CPYS.sys !f2, WAIT f2, #2. -/
theorem test_decodes_worked_commands :
    decodeSlot 6 0x08A00000#32 = some (.cpy 2 1 0 0 0) ∧ decodeSlot 5 0x08E00000#32 = some (.mcall 3 1 0 0) ∧
    decodeSlot 0 0x08C80001#32 = some (.wait 3 1 1) ∧ decodeSlot 6 0x10A28000#32 = some (.cpys 2 1 0 5 0) ∧
    decodeSlot 0 0x08880002#32 = some (.wait 2 1 2) := by decide

/-- Scalar formats of 01 R24 to R26, written field by field: op 7, dst 6, a 6, b 6, 7 zero bits; imm13; off15; imm19. -/
theorem test_decodes_scalar_forms :
    decodeSlot 1 (0x01#7 ++ 20#6 ++ 18#6 ++ 19#6 ++ 0#7) = some (.add 20 18 19) ∧
    decodeSlot 2 (0x13#7 ++ 16#6 ++ 17#6 ++ 18#6 ++ 0#7) = some (.div 16 17 18) ∧
    decodeSlot 1 (0x13#7 ++ 16#6 ++ 17#6 ++ 18#6 ++ 0#7) = none ∧
    decodeSlot 1 (0x28#7 ++ 20#6 ++ 18#6 ++ 0x1FFF#13) = some (.addi 20 18 0x1FFF) ∧
    decodeSlot 2 (0x44#7 ++ 20#6 ++ 18#6 ++ 8#13) = some (.ldI32 20 18 8) ∧
    decodeSlot 2 (0x56#7 ++ 20#6 ++ 18#6 ++ 8#13) = some (.stI32 20 18 8) ∧
    decodeSlot 1 (0x60#7 ++ 1#4 ++ 18#6 ++ 0x7FFF#15) = some (.br 1 18 0x7FFF) ∧
    decodeSlot 2 (0x60#7 ++ 1#4 ++ 18#6 ++ 0x7FFF#15) = none ∧
    decodeSlot 1 (0x33#7 ++ 20#6 ++ 5#19) = some (.movi 20 5) := by decide

/-- No slot decodes an opcode that its map does not assign, or a bit set in a reserved field (01 R14). -/
theorem test_decodes_nothing_else :
    decodeSlot 1 (0x7F#7 ++ 0#25) = none ∧ decodeSlot 1 (0x01#7 ++ 20#6 ++ 18#6 ++ 19#6 ++ 1#7) = none ∧
    decodeSlot 0 (31#5 ++ 0#27) = none ∧ decodeSlot 7 (31#5 ++ 0#27) = none := by decide

/-- 12 R243's worked words: CPYS !f9, CPYS.sys !f9, CPY.dom !cp7. -/
theorem test_decodes_copy_headers :
    decodeSlot 6 0x12600000#32 = some (.cpys 9 1 0 0 0) ∧ decodeSlot 6 0x12628000#32 = some (.cpys 9 1 0 5 0) ∧
    decodeSlot 6 0x08224000#32 = some (.cpy 0 1 0 4 1) := by decide

/-- Transfer, vector and network words, field by field from 01 R31 to R33. -/
theorem test_decodes_other_slots :
    decodeSlot 3 (1#4 ++ 5#6 ++ 16#6 ++ 7#8 ++ 1#2 ++ 0#6) = some (.xtov 5 16 7 1) ∧
    decodeSlot 4 (0x01#7 ++ 1#6 ++ 2#6 ++ 3#6 ++ 4#3 ++ 0#4) = some (.vadd 1 2 3 4 0) ∧
    decodeSlot 7 (1#5 ++ 9#6 ++ 2#2 ++ 0#19) = some (.lsend 9 2) := by decide

/-- Micro-step words, field by field from 08 R189: TAIL at site 7 from the link, SWAP of all sites, FEED from generator 2, REPEAT. -/
theorem test_decodes_micro_steps :
    decodeStep (5#4 ++ 0x80#8 ++ 2#2 ++ 0#50) = some (.stepTail 0x80 2) ∧ decodeStep (7#4 ++ 0xFF#8 ++ 0#52) = some (.stepSwap 0xFF) ∧
    decodeStep (8#4 ++ 0xFF#8 ++ 1#1 ++ 0#4 ++ 2#8 ++ 64#16 ++ 0#23) = some (.stepFeed 0xFF 1 0 0 2 64 0) ∧
    decodeStep (9#4 ++ 0#8 ++ 4#16 ++ 2#8 ++ 0#28) = some (.stepRepeat 4 2 0 0) ∧ decodeStep (11#4 ++ 0#60) = none := by decide

/-! ## The effects of slot operations -/

theorem test_decode_check_cause : (after task (.add 16 56 16)).faults = [(8, 2, 0)] := by decide +kernel
theorem test_add_wraps : result (.add 24 20 21) 8 = 4 := by decide +kernel
theorem test_sub : result (.sub 24 20 21) 8 = 10 := by decide +kernel
theorem test_andn : result (.andn 24 21 20) 8 = 0xFFFFFFFFFFFFFFF8 := by decide +kernel
theorem test_shl_of_destination : result (.shl 20 20 16) 4 = 7 := by decide +kernel
theorem test_sar_negative : result (.sar 24 22 20) 8 = 0xFF00000000000000 := by decide +kernel
theorem test_rotl : result (.rotl 24 22 20) 8 = 0x40 := by decide +kernel
theorem test_min_signed : result (.min 24 20 21) 8 = 0xFFFFFFFFFFFFFFFD := by decide +kernel
theorem test_minu : result (.minu 24 20 21) 8 = 7 := by decide +kernel
theorem test_clt_signed : result (.clt 24 21 20) 8 = 1 := by decide +kernel
theorem test_cltu : result (.cltu 24 21 20) 8 = 0 := by decide +kernel
theorem test_clz_of_zero : result (.clz 24 23) 8 = 64 := by decide +kernel
theorem test_ctz : result (.ctz 24 22) 8 = 63 := by decide +kernel
theorem test_popc : result (.popc 24 20) 8 = 3 := by decide +kernel
theorem test_addi_negative : result (.addi 24 20 0x1FFF) 8 = 6 := by decide +kernel
theorem test_ori_zero_extends : result (.ori 24 23 0x1FFF) 8 = 0x1FFF := by decide +kernel
theorem test_sext : result (.sext 24 20 3) 8 = 0xFFFFFFFFFFFFFFFF := by decide +kernel
theorem test_lui_negative : result (.lui 24 0x40000) 8 = 0xFFFFFFFF80000000 := by decide +kernel
theorem test_movi : result (.movi 24 0x7FFFF) 8 = 0xFFFFFFFFFFFFFFFF := by decide +kernel
/-- BEXT with g0 = 0x100 as its b, which names position 0 and width 5. -/
theorem test_bext : result (.bext 24 20 16) 8 = 7 := by decide +kernel
theorem test_sel_ignores_the_other_poison : (at' (after task (.sel 24 20 17 16)).work.g 8 {}) = { bits := 7 } := by decide +kernel
theorem test_mov_keeps_poison : (at' (after task (.mov 24 17)).work.g 8 {}).poison = true := by decide +kernel
theorem test_push : ((after task (.mov 0 20)).work.q.headD {}).bits = 7 := by decide +kernel
theorem test_mul_lands_in_three :
    ((after task (.mul 24 20 21)).work.pending.map (fun e => (e.dest, e.value.bits, e.left))) =
      [(.named 8, 0xFFFFFFFFFFFFFFEB, 3)] := by decide +kernel
theorem test_div_truncates :
    ((after task (.div 24 21 20)).work.pending.map (fun e => (e.value.bits, e.left))) = [(0, 24)] ∧
    ((after task (.rem 24 21 20)).work.pending.map (fun e => e.value.bits)) = [0xFFFFFFFFFFFFFFFD] := by decide +kernel
/-- The corner cases of 02 R48's table. -/
theorem test_div_corners :
    ((after task (.div 24 20 23)).work.pending.map (fun e => e.value.bits)) = [0xFFFFFFFFFFFFFFFF] ∧
    ((after task (.remu 24 20 23)).work.pending.map (fun e => e.value.bits)) = [7] := by decide +kernel
theorem test_load_misaligned : (after task (.ldI32 24 18 0)).faults = [(8, 5, 0)] := by decide +kernel
theorem test_load_outside : (after task (.ldI32 24 19 0)).fatals = [(8, 1, 0x200000)] := by decide +kernel
theorem test_speculative_load_outside :
    ((after task (.ldsI32 24 19 0)).work.pending.map (fun e => (e.value, e.left))) = [({ bits := 0, poison := true }, 4)] := by decide +kernel
theorem test_store_bytes : (after task (.stI16 21 16 2)).stores = [⟨placeP 0 0x102, [0xFD, 0xFF]⟩] := by decide +kernel
theorem test_store_of_poison : (after task (.stI16 17 16 0)).fatals = [(8, 3, 0)] := by decide +kernel
theorem test_amo_add_from_zero : (after task (.amoI32 24 16 20 0 0)).stores = [⟨placeP 0 0x100, [7, 0, 0, 0]⟩] := by decide +kernel
theorem test_cas_other_value : (after task (.casI32 24 16 20 21 0)).stores = [] := by decide +kernel
theorem test_branch_taken : (after task (.br 3 21 5)).ctl = .transfer 5 := by decide +kernel
theorem test_branch_in_shadow : (after { task with shadow := some ⟨0, 1⟩ } (.jmp 5)).faults = [(8, 4, 0)] := by decide +kernel
theorem test_call_links_after_the_slots : (at' (after task (.call 9)).work.g 31 {}).bits = 4 := by decide +kernel
theorem test_loop_count_zero : (after task (.loop 23 3)).ctl = .skipLoop 4 := by decide +kernel
theorem test_loop_count : (after task (.loop 20 3)).ctl = .enterLoop ⟨1, 3, 7⟩ := by decide +kernel
theorem test_chk_of_poison : (after task (.chk 17 4)).ctl = .transfer 4 := by decide +kernel
theorem test_wait_unmet : (after task (.wait 2 0 1)).stalls = [(8, 0x10002)] := by decide +kernel
theorem test_waitc_takes : (after { task with f := List.replicate 32 5 } (.waitc 2 0 5)).work.fBase = some (2, some 5) := by decide +kernel
theorem test_post_adds : at' (after task (.post 2 0 0 3)).work.fInc 2 0 = 3 := by decide +kernel
theorem test_trapi_code : (after task (.trapi 5)).faults = [(8, 6, 5)] := by decide +kernel
theorem test_stgi_quarter : at' (after { task with cp := List.replicate 8 0xFFFFFFFFFFFFFFFF } (.stgi 10 1 0x40)).work.cp 2 0 = 0xFFFFFFFF0040FFFF := by
  decide +kernel
theorem test_srd_vmode : ((after task (.srd 24 8)).work.pending.map (fun e => (e.value.bits, e.left))) = [(1, 2)] := by decide +kernel
theorem test_swr_resume_outside_handler : (after task (.swr 20 3)).faults = [(8, 2, 0)] := by decide +kernel
theorem test_tret_outside_handler : (after task .tret).faults = [(8, 1, 0)] := by decide +kernel
theorem test_xag_lands_in_four :
    ((after task (.xag 2 1 20)).work.pending.map (fun e => (e.dest, e.left))) = [(.param 2 1, 4)] := by decide +kernel
theorem test_xfromv_signed :
    ((after { task with v := List.replicate 48 (List.replicate 256 0xFFFFFFFF) } (.xfromv 3 24 7 0)).work.pending.map (fun e => e.value.bits)) =
      [0xFFFFFFFFFFFFFFFF] := by decide +kernel
theorem test_command_queue_full :
    (after { task with mx := { queue := List.replicate 8 { op := .medge 0 0, stage := [] } } } (.medge 0 0)).stalls = [(8, 0)] := by decide +kernel
theorem test_command_enters : ((after task (.cpys 2 1 0 5 0)).work.cpy.queue.map (·.op)) = [.cpys 2 1 0 5 0] := by decide +kernel

/-! ## Vector examples of 07 -/

/-- A register whose first lanes are given, the others 0. -/
def lanes (l : List Lane) : VReg := l ++ List.replicate (256 - l.length) 0

/-- The first lanes of the result in flight that an operation adds. -/
def landed (q : Seq) (i : Instr) (k : Nat) : List Lane := ((after q i).work.pending.map (·.vec)).flatten.take k

/-- 07 R150's example: v4, v5, v6 and m3 in four lanes. -/
def fmaTask : Seq :=
  { task with v := ((task.v.set 4 (lanes [0x40000000, 0, 0, 0])).set 5 (lanes [0x40400000, 0x7F800000, 0x7F800000, 0])).set 6
                (lanes [0x3F800000, 0x7FC40000, 0x3F800000, 0x12345678]), m := task.m.set 3 7 }

theorem test_vfma_word : decodeSlot 4 0x083082B0#32 = some (.vfma 6 4 5 3 0) := by decide
theorem test_vfma_lanes : landed fmaTask (.vfma 6 4 5 3 0) 3 = [0x40E00000, 0x7FC40000, 0x7FD00000] := by decide +kernel
theorem test_vfma_mask_and_bound :
    (after fmaTask (.vfma 6 4 5 3 0)).work.pending.map (fun e => (e.dest, e.lanes, e.left)) = [(.vector 6, 7, 8)] := by decide +kernel

/-- 07 R161's example: code 0x5 of E2M1 under the scale 4 is 12; under a NaN scale it is the NaN of cause 0x2. -/
theorem test_vunpk_code : unpackCode 0x10 0 0x5 = (0x40400000, 0) := by decide +kernel
theorem test_vscale_by_four : scaleCode 0 1 0x40400000 0x810000 = (0x41400000, 0) := by decide +kernel
theorem test_vscale_by_nan : (scaleCode 0 1 0 0xFF0000).1 = 0x7FC80000 := by decide +kernel

/-- 07 R161, 06 R131: a NaN code of E4M3, with its sign bit set, gives nan(0x1). -/
theorem test_vunpk_nan : unpackCode 0x13 0 0xFF = (0x7FC40000, 0) := by decide +kernel

/-- 07 R166's example: lanes 0..3 of v1, segments of four. -/
def redTask : Seq := { task with v := task.v.set 1 (lanes [0x33800000, 0x3F800000, 0x33800000, 0x33800000]) }

theorem test_vred_word : decodeSlot 4 0x70103800#32 = some (.vred 2 1 0x30 0 0) ∧ decodeSlot 4 0x72183800#32 = some (.vscan 3 1 0x30 0 0) := by
  decide
theorem test_vred_tree : landed redTask (.vred 2 1 0x30 0 0) 1 = [0x3F800001] := by decide +kernel
theorem test_vscan_sequence : landed redTask (.vscan 3 1 0x30 0 0) 4 = [0x33800000, 0x3F800000, 0x3F800000, 0x3F800000] := by decide +kernel

/-- 07 R170's example: the window 0x400..0x40B, ag1 with base 0x400 and 4-byte elements of P, m2 enabling lanes 0..3. -/
def storeTask : Seq :=
  { task with v := (task.v.set 9 (lanes [0, 8, 0, 6])).set 7 (lanes [0xA0, 0xA1, 0xA2, 0xA3]), m := task.m.set 2 0xF,
              ag := task.ag.set 1 { base := 0x400, ctl := 4 }, sr := { task.sr with winBase := 0x400, winSize := 12 } }

theorem test_vstx_word : decodeSlot 4 0x7E3904A6#32 = some (.vstx 7 1 9 2 6) := by decide
theorem test_vstx_bytes :
    (readBytes (next (exec (.vstx 7 1 9 2 6) { issuing storeTask with bundle := none }) State.reset) (placeP 0 0x400) 12) =
      [0xA2, 0, 0, 0, 0xA3, 0, 0, 0, 0xA1, 0, 0, 0] := by decide +kernel

/-- Worked by hand from 07 R151, R153, R156 and R163. -/
theorem test_vmax_zero_signs : minmaxCode 0 true 0x80000000 0 = (0, 0) := by decide +kernel
theorem test_vimulh_signed : landed { task with v := task.v.set 1 (lanes [0x80000000]) } (.vimulh 2 1 1 0 6) 1 = [0x40000000] := by decide +kernel
theorem test_vslide_up : (landed { task with v := task.v.set 1 (lanes [5, 6]) } (.vslide 2 1 1 0) 3) = [0, 5, 6] := by decide +kernel
theorem test_vcmp_mask :
    ((after { task with v := task.v.set 1 (lanes [5, 6]) } (.vcmp 2 3 1 1 0 6)).work.pending.map (fun e => (e.dest, e.left))) = [(.mask 3, 6)] := by
  decide +kernel


/-! ## One step -/

/-- A bundle alone: TRAPI under an enabled handler enters it two clocks later (05 R114). -/
theorem test_trap_enters_handler :
    (let q := getSeq (next (exec (.trapi 5) { host { task with pc := 40, sr := { task.sr with tvec := 0x80C8 } } with bundle := none }) State.reset) 0
     (q.pc, q.gap, q.sr.hstat, q.sr.resume, bits q.sr.trapcause 0 8, bits q.sr.trapcause 16 16)) = (200, 1, true, 40, 6, 5) := by decide +kernel

/-- The word of ADDI #1 fetched and run as the first instruction after reset. -/
theorem test_step_runs_a_word :
    (at' (getSeq (next (step (State.reset.withFetchWord 32 0x51248001)) State.reset) 0).g 20 {}).bits = 1 := by decide +kernel

/-- A clock with nothing to do is counted. -/
theorem test_step_of_reset : (next (step State.reset) State.reset).clock = 1 := by decide +kernel

/-- 03 R77: an increment past 0xFFFF saturates and sets the sticky bit. -/
theorem test_flag_saturates :
    (let q := tickFlags { task with f := List.replicate 32 0xFFFF, fInc := (List.replicate 32 0).set 3 2 }
     (at' q.f 3 0, q.sr.flagsat)) = (0xFFFF, 8) := by decide +kernel

/-- 03 R85: a QUIET with nothing in progress carries cut number 0 and leaves 1. -/
theorem test_quiet_counts : (commitQuiet task 7 false).sr.cutnext = 1 ∧ (commitQuiet task 7 false).sr.cutlabel = 7 := by decide +kernel

/-- 20 R370: LOCK commits what is accepted of the features offered. -/
theorem test_lock_commits : (next (exec .lock { State.reset with faccept := 0xFFFFF }) State.reset).faccept = 0xFFF := by decide +kernel

/-- 21 R376: a command out of order sets ERR 1. -/
theorem test_die_reset_out_of_order : (getDie (next (exec (.linkstop 0) State.reset) State.reset) 0).err = 1 := by decide +kernel

/-- 22 R392: the replay of a link is counted. -/
theorem test_link_replay : (getLink (next (exec (.linkReplay 0 3 0) State.reset) State.reset) 3).replay = 1 := by decide +kernel

/-! ## Witnesses: encoding, reset, the step -/

theorem witness_SlotWordsRoundTrip :
    ((1 ∈ slotsOf (.add 16 16 16)) ∧ 2 ∈ slotsOf (.add 63 63 63) ∧ 7 ∈ slotsOf (.lsend 47 3)) ∧
    decodeSlot 1 0x03FFFF80#32 = some (.add 63 63 63) ∧ decodeSlot 7 0x0DF80000#32 = some (.lsend 47 3) := by decide

theorem witness_MicroStepWordsRoundTrip :
    ∀ i ∈ [Instr.stepEnd, .stepHead 0xFF, .stepJoin 1, .stepAdd 0, .stepPass 0xFF, .stepTail 0x80 2, .stepFill 0xFF 0 1 1 7 255,
      .stepFill 1 3 0 0 0 0, .stepSwap 0xFF, .stepFeed 0xFF 1 0 0 7 0xFFFF 0, .stepFeed 1 0 9 255 0 0 1, .stepRepeat 0xFFFF 255 0 0,
      .stepRepeat 0 1 1 7, .stepSync 0 0, .stepSync 1 31], isStep i = true ∧ wellFormed i = true := by decide

/-- A step that decodes, one whose field value R189 forbids, and words of a store that are, are not, and are damaged. -/
theorem witness_MicroStepWordsOfAStore :
    decodeStep (0x5800000000000000#64) = some (.stepTail 0x80 0) ∧ decodeStep (encodeStep (.stepJoin 2)) = some (.stepJoin 2) ∧ wellFormed (.stepJoin 2) = false ∧
    stepAt { task with micro := [0, 0x1FF0000000000000] } 1 = some (.stepHead 0xFF) ∧
    stepAt { task with micro := [0, 0x1FF0000000000000], microBad := [1] } 1 = none ∧ stepAt { task with micro := [encodeStep (.stepJoin 2)] } 0 = none := by
  decide +kernel

theorem witness_ZeroSlotIsNop :
    (1#32 ≠ 0 ∧ bits (1#32) 27 5 = 0#5 ∧ bits (0x01FFFFFF#32) 25 7 = 0#7 ∧ bits (0x0FFFFFFF#32) 28 4 = 0#4) ∧
    Enabled (issuing task) (opened task) .nop := ⟨by decide, rfl, by decide⟩

theorem witness_StepKeepsInvariant : StateInv State.reset ∧ ∃ t, step State.reset = .next t :=
  ⟨⟨by decide, rfl⟩, next_of_isNext _ (by decide +kernel)⟩

/-- Sequencer 0's turn, with the bundles of the clock begun. -/
def turning (q : Seq) : State := { host q with ran := [1], turn := [0] }

theorem witness_StepIssuesBundle :
    (let s := { turning task with ran := [] }
     inputDue s = none ∧ s.ran = [] ∧ due s = none ∧ mailboxDue s = none ∧ live s (getSeq s 0) = true ∧ segmentHolds (getSeq s 0) = false) ∧
    (let s := turning { task with drain := some 5 }
     (getSeq s 0).drain = some 5 ∧ drainDone s 0 (getSeq s 0) = true ∧ live s (getSeq s 0) = true) ∧
    inputDue (turning task) = none ∧ (turning task).halted = false ∧ (turning task).ran ≠ [] ∧ (turning task).turn = 0 :: [] ∧
    (getSeq (turning task) 0).status = .running ∧ live (turning task) (getSeq (turning task) 0) = true ∧ (getSeq (turning task) 0).gap = 0 ∧
    (getSeq (turning task) 0).drain = none ∧ segmentHolds (getSeq (turning task) 0) = false ∧
    poisoned (turning task) (bundlePlace 0 (getSeq (turning task) 0)) 32 = false := by decide +kernel

/-- A bundle that begins a segment still being fetched, and one with a damaged word. -/
theorem witness_BundleNotDecoded :
    (let q : Seq := { task with segFetch := [⟨63, 0, 1, 0x100, 9, []⟩] }
     let s := turning q
     inputDue s = none ∧ s.halted = false ∧ s.ran ≠ [] ∧ s.turn = 0 :: [] ∧ (getSeq s 0).status = .running ∧ live s (getSeq s 0) = true ∧ (getSeq s 0).gap = 0 ∧
       (getSeq s 0).drain = none ∧ ∃ f ∈ (getSeq s 0).segFetch, f.load = (getSeq s 0).pc.toNat) ∧
    (let s := { turning task with poison := [bundlePlace 0 (getSeq (turning task) 0) / 8 + 3] }
     inputDue s = none ∧ s.halted = false ∧ s.ran ≠ [] ∧ s.turn = 0 :: [] ∧ (getSeq s 0).status = .running ∧ live s (getSeq s 0) = true ∧ (getSeq s 0).gap = 0 ∧
       (getSeq s 0).drain = none ∧ (∀ f ∈ (getSeq s 0).segFetch, f.load ≠ (getSeq s 0).pc.toNat) ∧ poisoned s (bundlePlace 0 (getSeq s 0)) 32 = true ∧
       (getSeq s 0).ctx = some 0 ∧ (getCtx s 0).isSome = true) := by decide +kernel

theorem witness_SlotsRunDecodedInstructions :
    (∃ t, exec .nop (enterSlot (issuing task) 1 (collides [] 1)) = .next t) ∧ (issuing task).bundle = some (opened task) :=
  ⟨next_of_isNext _ (by decide +kernel), rfl⟩

/-- The destinations that 01 R14 compares, at the edges of each range of codes. -/
theorem witness_SharedDestinations :
    (collides [[], [31], [], [], [], [], [], [31]] 1 = true ∧ decodeSlot 7 (slotWord (issuing task) 0 7) = some .nop) ∧
    (scalarTarget (.add 16 0 0) = some 16 ∧ scalarTarget (.add 47 0 0) = some 47 ∧ scalarTarget (.add 0 0 0) = some 0 ∧ scalarTarget (.add 48 0 0) = some 48) ∧
    ((47#6).toNat < 48 ∧ ¬ (48#6).toNat < 48) ∧
    (isVectorOp (.vadd 55 57 0 0 0) = true ∧ vectorFields (.vadd 55 57 0 0 0) = [55, 57, 0] ∧ vectorFields (.vadd 56 57 0 0 0) = [56, 57, 0] ∧
      (∀ v g m t, Instr.vadd 55 57 0 0 0 ≠ .vst v g m t) ∧ (∀ v g b m t, Instr.vadd 55 57 0 0 0 ≠ .vstx v g b m t) ∧
      ∀ c e a b m t, Instr.vadd 55 57 0 0 0 ≠ .vcmp c e a b m t) :=
  ⟨by decide +kernel, by decide, by decide, by decide, by decide, by decide, nofun, nofun, nofun⟩

/-- A routine about to take a micro-step. -/
def routine : Routine := { serial := 0, entry := 0, bundle := 0, cf := 0, pe := false, pair := 0, params := List.replicate 8 0, pc := 0,
                           active := List.replicate 8 0, ready := 0 }

/-- A task whose matrix engine is `m`. -/
def withMx (m : Matrix) : Seq := { task with mx := m }

theorem witness_StepRunsWhatIsDue :
    inputDue { State.reset with inputs := [(0, .lock)] } = some (.lock, []) ∧
    (let s := host { task with pending := [{ dest := .named 3, left := 0 }] }
     inputDue s = none ∧ s.halted = false ∧ s.ran = [] ∧ due s = some (0, .pendingWriteLanding 0)) ∧
    (let s := { State.reset with clock := 1008, cmcmd := some 1, mgmt := { booted := 8 } }
     inputDue s = none ∧ s.halted = false ∧ s.ran = [] ∧ due s = none ∧ mailboxDue s = some 1) ∧
    (let q := withMx { routine := some routine }
     q.mx.routine = some routine ∧ routine.ended = false ∧ routine.feed = none ∧ routine.waitSync = false ∧ routine.ready ≤ (host q).clock ∧ routine.pc ∉ q.microBad) ∧
    (let s := State.reset
     inputDue s = none ∧ s.halted = false ∧ due s = none ∧ mailboxDue s = none ∧ s.turn = [] ∧ watchdogStep s = none) ∧
    (let s := host { task with sr := { task.sr with wdog := 16 }, stallCount := 65536 }
     inputDue s = none ∧ due s = none ∧ mailboxDue s = none ∧ s.turn = [] ∧ watchdogStep s = some (0, .watchdogExpiry 0)) ∧
    (let s := { State.reset with halted := true, peat := { busy := 1 } }
     inputDue s = none ∧ s.halted = true ∧ haltedDue s = some (0, .head)) ∧
    (let s := { State.reset with halted := true, clock := 1008, cmcmd := some 1, mgmt := { booted := 8 } }
     inputDue s = none ∧ s.halted = true ∧ haltedDue s = none ∧ mailboxDue s = some 1) ∧
    (let s := { State.reset with halted := true }
     inputDue s = none ∧ s.halted = true ∧ haltedDue s = none ∧ mailboxDue s = none) := by decide +kernel

/-! ## Witnesses: the bundle -/

theorem witness_FaultRecord :
    ([(7, 1, 0), (1, 4, 0)] : List (Nat × Nat × BitVec 16)) ≠ [] ∧ (1, 4, 0) ∈ ([(7, 1, 0), (1, 4, 0)] : List (Nat × Nat × BitVec 16)) ∧
    (∀ f ∈ ([(7, 1, 0), (1, 4, 0)] : List (Nat × Nat × BitVec 16)), f.1 < 8) ∧ (63 : Nat) < 64 ∧ (7 : Nat) < 8 ∧ (255 : Nat) < 256 := by decide

/-- The bundle of `q` in which slot 2 has raised a misaligned access. -/
def faulting (q : Seq) : Bundle := { opened q with faults := [(2, 5, 0)] }

theorem witness_FaultEntersHandler :
    (faulting task).faults ++ backEdgeFault (faulting task) ≠ [] ∧ (faulting task).start.sr.hstat = false ∧
    anyBit (faulting task).start.sr.tvec 15 1 = true ∧ (∀ f ∈ (faulting task).faults ++ backEdgeFault (faulting task), f.2.1 ≠ 7) ∧
    (1 : Nat) ≠ (faulting task).seq ∧
    (let s := { host task with ctxs := [(0, { life := 1, seqs := [0], brken := true })] }
     let b : Bundle := { opened task with faults := [(0, 7, 0xFFFF)] }
     b.faults ++ backEdgeFault b ≠ [] ∧ b.start.ctx = some 0 ∧ getCtx s 0 = some { life := 1, seqs := [0], brken := true } ∧
       ∃ f ∈ b.faults ++ backEdgeFault b, f.2.1 = 7) := by decide +kernel

/-- A task without a handler, and one inside its handler. -/
def noHandler : Seq := { task with sr := { task.sr with tvec := 5 } }
def inHandler : Seq := { task with sr := { task.sr with hstat := true } }

theorem witness_FaultWithoutHandlerStops :
    ((faulting noHandler).faults ++ backEdgeFault (faulting noHandler) ≠ [] ∧
      (∀ f ∈ (faulting noHandler).faults ++ backEdgeFault (faulting noHandler), f.2.1 ≠ 7) ∧ anyBit (faulting noHandler).start.sr.tvec 15 1 = false) ∧
    ((faulting inHandler).faults ++ backEdgeFault (faulting inHandler) ≠ [] ∧ (faulting inHandler).start.sr.hstat = true) := by decide +kernel

theorem witness_FatalConditionStops :
    (let b : Bundle := { opened task with fatals := [(2, 3, 0)] }
     b.faults = [] ∧ backEdgeFault b = [] ∧ b.stalls = [] ∧ b.fatals = (2, 3, 0) :: [] ∧ getSeq (host task) b.seq = b.start ∧ b.start.ctx = some 0 ∧
       getCtx (host task) 0 = some { life := 1, seqs := [0] } ∧ (1 : Nat) ≠ b.seq) ∧
    (let b : Bundle := { opened task with stalls := [(0, 1)], fatals := [(2, 3, 0)] }
     b.faults = [] ∧ backEdgeFault b = [] ∧ b.stalls = (0, 1) :: [] ∧ getSeq (host task) b.seq = b.start) := by decide +kernel

theorem witness_CommitTakesEffect :
    (let b : Bundle := { opened task with stores := [⟨placeP 0 0x100, [1]⟩] }
     b.faults = [] ∧ backEdgeFault b = [] ∧ b.fatals = [] ∧ b.stalls = [] ∧ Memory.wf (host task).mem = true ∧ Outside b.stores 0 ∧
       b.stores = [⟨placeP 0 0x100, [1]⟩] ∧ b.quiet = none ∧ b.ends = false ∧ b.drains = none ∧ b.work.drain = none) ∧
    (let o : StoreOp := ⟨placeP 0 0x100, [1, 2]⟩
     let b : Bundle := { opened task with stores := [o, ⟨placeP 0 0x101, [3]⟩] }
     b.stores = [] ++ o :: [⟨placeP 0 0x101, [3]⟩] ∧ 0 < o.bytes.length ∧ Outside [⟨placeP 0 0x101, [3]⟩] (o.place + 0) ∧
       b.stores = [o] ++ ⟨placeP 0 0x101, [3]⟩ :: [] ∧ Outside [] (placeP 0 0x101 + 0)) ∧
    (Commits { opened task with drains := some 5 } ∧ ({ opened task with drains := some 5 } : Bundle).quiet = none) ∧
    (Commits { opened task with ends := true } ∧ ({ opened task with ends := true } : Bundle).ends = true) := by
  unfold Outside Commits; decide +kernel

theorem witness_ControlFlow :
    (let e : LoopEntry := ⟨1, 2047, 2⟩
     let q : Seq := { task with loops := [e] }
     q.shadow = none ∧ q.loops = e :: [] ∧ e.last = 2047 ∧ 1 < e.left) ∧
    (let e : LoopEntry := ⟨1, 2047, 1⟩
     let q : Seq := { task with loops := [e] }
     q.shadow = none ∧ q.loops = [e] ∧ e.last = 2047 ∧ e.left ≤ 1) ∧
    (let e : LoopEntry := ⟨1, 2047, 0⟩
     let q : Seq := { task with loops := [e, ⟨0, 2047, 3⟩] }
     q.loops = e :: [⟨0, 2047, 3⟩] ∧ e.last = 2047 ∧ e.left ≤ 1 ∧ (∀ x ∈ q.loops.head?, x.last ≠ 2043)) ∧
    (∀ e ∈ task.loops.head?, ∀ k ∈ [0#11, 1#11, 2#11, 3#11], e.last ≠ 2047 + k) ∧
    (task.loops = [] ∧ task.shadow = none ∧ (∀ e ∈ task.loops.head?, e.last ≠ 0) ∧ (⟨1, 3, 7⟩ : LoopEntry).last ≠ 0) ∧
    (anyBit task.sr.resume 11 1 = false) ∧
    (let q : Seq := { task with sr := { task.sr with resume := 0x828 } }
     anyBit q.sr.resume 11 1 = true ∧ q.savedShadow = none ∧ q.savedLoops = []) := by decide +kernel

theorem witness_FlagRule :
    ((31 : Nat) < 32 ∧ task.f.length = 32 ∧ task.fInc.length = 32) ∧ quietNow task = true ∧
    quietNow (withMx { queue := [{ op := .medge 0 0, stage := [] }] }) = false := by decide +kernel

theorem witness_ChecksPrecedeEffects :
    slotsOf (.add 1 16 16) ≠ [] ∧ (issuing task).bundle = some (opened task) ∧
    issueCauses (issuing task).faccept (opened task).start.sr.hstat (.add 1 16 16) ≠ [] := by decide +kernel

theorem witness_ModeAndFeatureChecks :
    ((55#6).toNat < 56 ∧ (0x013#12) ∈ [0x001#12, 0x002, 0x004, 0x005, 0x006, 0x007, 0x00C, 0x00D, 0x00E, 0x00F, 0x010, 0x011, 0x012, 0x013]) ∧
    (0x014 ≤ (0x014#12).toNat ∧ 0x014 ≤ (0xFFF#12).toNat) ∧
    (48#6 ∈ vectorFields (.vstx 0 0 48 0 6) ∧ 55#6 ∈ vectorFields (.vfma 55 0 0 0 0) ∧ 48 ≤ (48#6).toNat ∧ (55#6).toNat ≤ 55) ∧
    (anyBit (0xFFE : BitVec 128) 0 1 = false ∧ anyBit (0xFFF : BitVec 128) 11 1 = true ∧ fieldN (8#6) 0 4 ≤ 8) ∧
    (63#6 ∈ scalarSources (.bins 16 16 16 63) ∧ 56 ≤ (56#6).toNat ∧ scalarTarget (.xsts 0 0 1) = some 1 ∧ 1 ≤ (1#6).toNat ∧ (15#6).toNat ≤ 15 ∧
      48 ≤ (63#6).toNat ∧ 58#6 ∈ vectorFields (.vmov 0 58 0 6) ∧ 58 ≤ (58#6).toNat) ∧
    (issueCauses 0 false (.srd 16 10) = [] ∧ ({ issuing task with faccept := 0 } : State).bundle = some (opened task) ∧ anyBit (0 : BitVec 128) 0 1 = false) := by
  decide

/-! ## Witnesses: the slot operations -/

/-- Every operation of a list is permitted in the first bundle of `q`. -/
def Permitted (q : Seq) (l : List Instr) : Prop := ∀ i ∈ l, Enabled (issuing q) (opened q) i

theorem permitted_of (q : Seq) (l : List Instr) (h : l.all (fun i => (issueCauses Config.foffer q.sr.hstat i).isEmpty) = true) :
    Permitted q l := by
  intro i hi
  exact ⟨rfl, List.isEmpty_iff.mp (List.all_eq_true.mp h i hi)⟩

theorem witness_ScalarRegisterForms : Permitted task
    [.add 16 0 55, .add 0 55 16, .sub 16 17 18, .and 16 17 18, .or 16 17 18, .xor 16 17 18, .andn 16 17 18, .shl 16 17 18, .shr 16 17 18,
     .sar 16 17 18, .rotl 16 17 18, .min 16 17 18, .max 16 17 18, .minu 16 17 18, .maxu 16 17 18, .ceq 16 17 18, .cne 16 17 18,
     .clt 16 17 18, .cle 16 17 18, .cltu 16 17 18, .cleu 47 17 18, .mov 47 55] := permitted_of _ _ (by decide)

theorem witness_ScalarProductsAndQuotients : Permitted task
    [.mul 16 17 18, .mulh 16 17 18, .mulhu 16 17 18, .div 16 17 18, .divu 16 17 18, .rem 16 17 18, .remu 47 0 55] :=
  permitted_of _ _ (by decide)

theorem witness_ScalarSelectAndFields : Permitted task
    [.sel 16 17 18 19, .bext 16 17 18, .bins 16 17 18 19, .clz 16 17, .ctz 16 17, .popc 47 55] := permitted_of _ _ (by decide)

theorem witness_ScalarImmediateForms : Permitted task
    [.addi 16 17 0x1FFF, .andi 16 17 0, .ori 16 17 0, .xori 16 17 0, .shli 16 17 63, .shri 16 17 0, .sari 16 17 63, .ceqi 16 17 0,
     .clti 16 17 0x1000, .cltui 16 17 0x1FFF, .sext 16 17 1, .sext 16 17 63, .zext 16 17 63, .movi 47 0x40000, .lui 0 0x7FFFF] :=
  permitted_of _ _ (by decide)

theorem witness_StagingAndStateRegisters :
    Permitted task [.stg 23 17, .stgi 0 3 0xFFFF, .srd 16 10, .srd 16 0, .srd 16 0x013, .srd 16 9, .swr 17 0, .swr 17 9, .swr 17 0x00B] ∧
    Permitted inHandler [.swr 17 3] ∧ 24 ≤ (24#6).toNat ∧ ((0 : BitVec 12) ≠ 9 ∧ (0x013 : BitVec 12) ≠ 10) ∧
    (0 < 16 * (1 : BitVec 2).toNat) ∧ 16 * (3 : BitVec 2).toNat + 16 ≤ 64 ∧ anyBit (issuing task).faccept 0 1 = true ∧
    ((23 : Nat) < 24 ∧ (0 : Nat) ≠ 23 ∧ (7 : Nat) < 8 ∧ (8 : Nat) ≤ 15 ∧ (15 : Nat) < 16 ∧ (16 : Nat) ≤ 23 ∧ task.mp.length = 8 ∧ task.cp.length = 8 ∧ task.np.length = 8) ∧
    ((∀ x ∈ [0, 3, 8, 9, 10, 11], (1 : Nat) ≠ x) ∧ 1 ≤ (0xFFFFFFFFFFFFFFF9 : Word).toNat % 8 ∧ ¬ (1 ≤ (8 : Word).toNat % 8 ∧ (8 : Word).toNat % 8 ≤ 5)) ∧
    (inHandler.sr.hstat = true ∧ task.sr.hstat = false ∧ task.shadow = none ∧ ({ task with shadow := some ⟨2047, 3⟩ } : Seq).shadow = some ⟨2047, 3⟩ ∧
      ({ inHandler with savedShadow := some ⟨0, 0⟩ } : Seq).savedShadow = some ⟨0, 0⟩ ∧ task.loops[0]? = none ∧
      ({ task with loops := [⟨0, 0, 1⟩, ⟨2047, 2047, 2 ^ 32 - 1⟩] } : Seq).loops[1]? = some ⟨2047, 2047, 2 ^ 32 - 1⟩ ∧ (511 : Nat) < 512) :=
  ⟨permitted_of _ _ (by decide), permitted_of _ _ (by decide), by decide, by decide, by decide, by decide, by decide, by decide, by decide, by decide⟩

theorem witness_ScalarResultsLand :
    (opened task).start.sr.hstat = false ∧ (opened inHandler).start.sr.hstat = true ∧ (31 : Nat) < 32 ∧ (1 : Nat) < 2 ∧
    (opened task).work.g.length = 32 ∧
    (15 : Nat) < task.q.length ∧ 15 < task.sq.length := by decide

/-- Results in flight: to q15, to shadow entry 15, to g31, to lane 255 of v47 and to bit 255 of m7; an open stream with a decision for bit 0 of
m1, a complete one that is cut in lane 0, and a group load to v0 that is still queued. -/
def flight : Seq :=
  { task with
    pending := [{ dest := .queue 15, left := 3 }, { dest := .shadow 15, left := 3 }, { dest := .named 31, left := 3 },
      { dest := .vector 47, lanes := 1#256 <<< 255, left := 3 }, { dest := .mask 7, lanes := 1#256 <<< 255, left := 3 }]
    z := (task.z.set 7 { valid := true, left := 5, chain := 0, vdec := some { md := 1, cc := 0, pe := false, flag := 0, scope := 1, thr := [], bits := 0, left := 7 } }).set 6
      { valid := true, chain := 2, cut := 1, olds := [(2, 3)] }
    net := { queue := [{ op := .gld 0 0 0, stage := List.replicate 8 0 }] }
    gldOpen := [{ vd := 46, lanes := 1, flag := 3, clock := 0 }]
    maskOpen := [{ md := 6, lanes := 1, flag := 3, clock := 0, left := 5 }] }

theorem witness_OperandsRead :
    (let q := flight
     (∃ e ∈ q.pending, e.dest = .queue 15 ∧ e.exact = false ∧ e.lanes ≠ 0) ∧ (∃ e ∈ q.pending, e.dest = .shadow 15 ∧ e.exact = false ∧ e.lanes ≠ 0) ∧
     (∃ e ∈ q.pending, e.dest = .named 31 ∧ e.exact = false ∧ e.lanes ≠ 0) ∧
     (∀ e ∈ q.pending, e.dest ≠ .queue 0 ∧ e.dest ≠ .shadow 0 ∧ e.dest ≠ .named 0) ∧ q.sr.hstat = false ∧ inHandler.sr.hstat = true ∧
     ((15#6).toNat < 16 ∧ 16 ≤ (16#6).toNat ∧ (47#6).toNat < 48 ∧ (47#6).toNat - 16 = 31 ∧ 48 ≤ (48#6).toNat)) ∧
    (let q := flight
     (∃ e ∈ q.pending, e.dest = .vector 47 ∧ e.exact = false ∧ e.lanes.getLsbD 255 = true) ∧
     (∃ k ∈ q.net.queue, k.op = .gld 0 0 0 ∧ fieldN (at' k.stage 1 0) 0 6 = (0#6).toNat) ∧
     (∃ g ∈ q.gldOpen, g.vd = (46#6).toNat ∧ g.lanes.getLsbD 0 = true) ∧
     (∀ e ∈ q.pending, e.dest = .vector 47 → e.lanes.getLsbD 0 = false) ∧ (∀ g ∈ q.gldOpen, g.vd ≠ 47) ∧ q.net.running = [] ∧
     (∀ k ∈ q.net.queue, fieldN (at' k.stage 1 0) 0 6 ≠ 47)) ∧
    (let q := flight
     ((at' q.z 0 {}).valid = false ∧ (at' q.z 0 {}).cut = 0) ∧ ((at' q.z 7 {}).valid = true ∧ (at' q.z 7 {}).left ≠ 0 ∧ (at' q.z 7 {}).chain = 0 ∧ (at' q.z 7 {}).cut = 0) ∧
     ((at' q.z 6 {}).valid = true ∧ (at' q.z 6 {}).chain ≠ 0 ∧ (at' q.z 6 {}).left = 0 ∧ (at' q.z 6 {}).cut.getLsbD 0 = true ∧ (at' q.z 6 {}).cut.getLsbD 1 = false ∧
       (∃ o ∈ (at' q.z 6 {}).olds, o.1.getLsbD 1 = true) ∧ (∀ o ∈ (at' q.z 6 {}).olds, o.1.getLsbD 2 = false))) ∧
    (let q := flight
     (∃ e ∈ q.pending, e.dest = .mask 7 ∧ e.exact = false ∧ e.lanes.getLsbD 255 = true) ∧ (∀ e ∈ q.pending, e.dest = .mask 7 → e.lanes.getLsbD 254 = false) ∧
     (∃ z ∈ q.z, z.vdec.any (fun d => d.md.toNat == 1 && d.scope.getLsbD 0 && !d.lost.getLsbD 0) = true) ∧
     (∃ g ∈ q.maskOpen, g.md = 6 ∧ g.lanes.getLsbD 0 = true) ∧ (∀ g ∈ q.maskOpen, g.md ≠ 7) ∧
     (∀ z ∈ q.z, z.vdec.all (fun d => d.md.toNat != 7) = true) ∧ (∀ e ∈ q.pending, e.dest ≠ .mask 0)) ∧
    ((255 : Nat) < 256 ∧ (7 : BitVec 3) ≠ 0) := by
  refine ⟨?_, ?_, ?_, ?_, ?_⟩ <;> decide +kernel

/-- The values that the codes of one value read as, by 01 R21 and R22. -/
theorem test_special_operands :
    (let q : Seq := { task with sr := { task.sr with tile := 0x300020001, sched := 0x500000004 } }
     [48#6, 49, 50, 51, 52, 53, 54, 55].map (fun c => (scalarOperand 0 9 q 0 c).bits) = [0, 1, 2, 3, 9, 256, 4, 0xFFFFFFFFFFFFFFFF] ∧
     at' (vectorOperand 0 q false 0 57) 255 0 = 255 ∧ at' (vectorOperand 0 q false 0 56) 255 0 = 0) := by decide +kernel

/-- The state whose bytes at g0's address are damaged. -/
def damagedHost : State := { issuing task with poison := [placeP 0 0x100 / 8] }

/-- A window of the last four bytes of P, and one outside of which every access lies. -/
def edgeTask : Seq := { task with sr := { task.sr with winBase := 0xFFFFC, winSize := 4 }, g := task.g.set 0 { bits := 0xFFFFC } }

theorem witness_LoadsComplete :
    Permitted task [.ldI8 16 16 0, .ldN8 16 16 0, .ldI16 16 16 0, .ldN16 16 16 0, .ldI32 16 16 0, .ldN32 16 16 0, .ldI64 16 16 0,
      .ldsI8 16 16 0, .ldsN8 16 16 0, .ldsI16 16 16 0, .ldsN16 16 16 0, .ldsI32 16 16 0, .ldsN32 16 16 0, .ldsI64 16 16 0,
      .ldaI32 16 16 0, .ldaN32 16 16 0, .ldaI64 16 16 0] ∧
    (∀ w ∈ [1, 2, 4], (opd (issuing edgeTask) (opened edgeTask) 0 16).poison = false ∧
      ((opd (issuing edgeTask) (opened edgeTask) 0 16).bits + (0 : BitVec 13).signExtend 64).toNat % w = 0 ∧
      inWindow (opened edgeTask).start ((opd (issuing edgeTask) (opened edgeTask) 0 16).bits + (0 : BitVec 13).signExtend 64).toNat w = true ∧
      poisoned (issuing edgeTask) (placeP 0 0xFFFFC) w = false) ∧
    ((opd (issuing task) (opened task) 0 16).bits + (0 : BitVec 13).signExtend 64).toNat % 8 = 0 ∧
    inWindow (opened task).start ((opd (issuing task) (opened task) 0 16).bits + (0 : BitVec 13).signExtend 64).toNat 8 = true ∧
    (Enabled damagedHost (opened task) (.ldI64 16 16 0) ∧ Enabled damagedHost (opened task) (.ldsI8 16 16 0) ∧
      (opd damagedHost (opened task) 0 16).poison = false ∧ poisoned damagedHost (placeP 0 (0x100 : Word).toNat) 8 = true ∧
      poisoned damagedHost (placeP 0 (0x107 : Word).toNat) 1 = true) ∧
    (opd (issuing task) (opened task) 0 17).poison = true ∧
    (∀ w ∈ [2, 4, 8], (opd (issuing task) (opened task) 0 18).poison = false ∧
      ((opd (issuing task) (opened task) 0 18).bits + (0 : BitVec 13).signExtend 64).toNat % w ≠ 0) ∧
    (∀ w ∈ [1, 2, 4, 8], (opd (issuing task) (opened task) 0 19).poison = false ∧
      ((opd (issuing task) (opened task) 0 19).bits + (0 : BitVec 13).signExtend 64).toNat % w = 0 ∧
      inWindow (opened task).start ((opd (issuing task) (opened task) 0 19).bits + (0 : BitVec 13).signExtend 64).toNat w = false) :=
  ⟨permitted_of _ _ (by decide), by unfold Enabled; decide +kernel⟩

theorem witness_StoresComplete :
    Permitted task [.stI8 20 16 0, .stI16 20 16 0, .stI32 20 16 0, .stI64 20 16 0, .stlI32 20 16 0, .stlI64 20 16 0] ∧
    storeForm (.stlI64 20 16 0) = some (8, 16, 0, 20) ∧
    (let s := issuing task
     let u := opened task
     (opd s u 0 16).poison = false ∧ (opd s u 1 20).poison = false ∧ ((opd s u 0 16).bits + (0 : BitVec 13).signExtend 64).toNat % 8 = 0 ∧
     inWindow u.start ((opd s u 0 16).bits + (0 : BitVec 13).signExtend 64).toNat 8 = true ∧
     (opd s u 0 17).poison = true ∧ (opd s u 1 17).poison = true ∧
     ((opd s u 0 18).bits + (0 : BitVec 13).signExtend 64).toNat % 8 ≠ 0 ∧ (opd s u 0 18).poison = false ∧
     (opd s u 0 19).poison = false ∧ ((opd s u 0 19).bits + (0 : BitVec 13).signExtend 64).toNat % 8 = 0 ∧
     inWindow u.start ((opd s u 0 19).bits + (0 : BitVec 13).signExtend 64).toNat 8 = false) :=
  ⟨permitted_of _ _ (by decide), by decide, by decide +kernel⟩

theorem witness_AtomicsComplete :
    Permitted task [.amoI32 16 16 20 8 0, .amoI64 16 16 20 0 3, .casI32 16 16 20 21 0, .casI64 16 16 20 21 1] ∧
    (let s := issuing task
     let u := opened task
     (opd s u 0 16).poison = false ∧ (opd s u 1 20).poison = false ∧ (opd s u 2 21).poison = false ∧ (opd s u 0 16).bits.toNat % 8 = 0 ∧
     inWindow u.start (opd s u 0 16).bits.toNat 8 = true ∧ poisoned s (placeP u.seq (opd s u 0 16).bits.toNat) 8 = false) ∧
    (Enabled damagedHost (opened task) (.amoI64 16 16 20 0 0) ∧ Enabled damagedHost (opened task) (.casI32 16 16 20 21 0) ∧
      (opd damagedHost (opened task) 1 20).poison = false ∧ (opd damagedHost (opened task) 2 21).poison = false ∧
      Accessible (opened task) (opd damagedHost (opened task) 0 16).bits 8 ∧
      poisoned damagedHost (placeP 0 (opd damagedHost (opened task) 0 16).bits.toNat) 4 = true) ∧
    Permitted task [.amoI32 16 17 20 8 0, .amoI64 16 18 20 0 3, .amoI64 16 16 17 0 0, .casI32 16 16 20 17 0, .casI64 16 19 20 21 1] ∧
    (let s := issuing task
     let u := opened task
     (opd s u 0 17).poison = true ∧ (opd s u 1 17).poison = true ∧ (opd s u 2 17).poison = true ∧
     (∀ w ∈ [4, 8], (opd s u 0 18).bits.toNat % w ≠ 0 ∧ (opd s u 0 19).bits.toNat % w = 0 ∧ inWindow u.start (opd s u 0 19).bits.toNat w = false) ∧
     (opd s u 0 18).poison = false ∧ (opd s u 0 19).poison = false) :=
  ⟨permitted_of _ _ (by decide), by decide +kernel, by unfold Enabled Accessible; decide +kernel, permitted_of _ _ (by decide), by decide +kernel⟩

theorem witness_StoredBytes :
    storeForm (.stI64 20 16 0) = some (8, 16, 0, 20) ∧ (host task).bundle = none ∧ Memory.wf (host task).mem = true ∧
    issueCauses (host task).faccept task.sr.hstat (.stI64 20 16 0) = [] ∧
    (scalarOperand 0 0 (getSeq (host task) 0) 0 16) = { bits := 0x100 } ∧ (scalarOperand 0 0 (getSeq (host task) 0) 1 20).poison = false ∧
    inWindow (getSeq (host task) 0) 0x100 8 = true ∧ backEdgeFault (openBundle (host task) 0) = [] := by decide +kernel

/-- A task in the shadow of a taken branch. -/
def shadowed : Seq := { task with shadow := some ⟨9, 3⟩ }

theorem witness_TransfersOfControl :
    Permitted task [.br 0 0 0x7FFF, .br 6 16 5, .jmp 5, .jmpi 16, .call 5, .ret, .chk 16 5, .loop 16 1] ∧ Permitted inHandler [.tret] ∧
    Permitted shadowed [.br 3 17 5, .br 3 21 5, .jmp 5, .jmpi 16, .call 5, .ret, .chk 16 5, .chk 17 5, .loop 16 1] ∧ Permitted { shadowed with sr := { shadowed.sr with hstat := true } } [.tret] ∧
    ((1 : BitVec 4) ≠ 0 ∧ (opened task).start.shadow = none ∧ (opened inHandler).start.shadow = none ∧
      (opd (issuing task) (opened task) 0 16).poison = false ∧ (opd (issuing task) (opened task) 0 17).poison = true ∧
      (opd (issuing task) (opened task) 0 47).poison = false ∧ (opened shadowed).start.shadow.isSome = true ∧
      (opd (issuing shadowed) (opened shadowed) 0 16).poison = false ∧ (opd (issuing shadowed) (opened shadowed) 0 17).poison = true ∧
      (opd (issuing shadowed) (opened shadowed) 0 21).bits.toInt < 0 ∧ (opd (issuing shadowed) (opened shadowed) 0 47).poison = false ∧
      (opd (issuing { task with g := task.g.set 31 { poison := true } }) (opened { task with g := task.g.set 31 { poison := true } }) 0 47).poison = true) :=
  ⟨permitted_of _ _ (by decide), permitted_of _ _ (by decide), permitted_of _ _ (by decide), permitted_of _ _ (by decide), by decide +kernel⟩

/-- An image of one overlay segment beside segment 0, registered in context 0, and a task of it. -/
def img : Image :=
  { handle := 1, entry := 3, tvec := 0, winBase := 0, winSize := 0x100000, zones := List.replicate 16 0x000B0000,
    banks := List.replicate 32 0x000B0000, flags := List.replicate 32 0, data := [], steps := [], routines := List.replicate 32 none,
    segs := [some (0, 1, 0), some (64, 1, 0x100)], code := List.replicate 32 0 }
def lnch : Launch :=
  { id := 0, ctx := 0, queue := 0, index := 0, prio := 0, handle := 1, pinned := true, esc := false, seq0 := 0, nx := 1, ny := 1, nz := 1,
    wdog := 32, ranges := List.replicate 8 0, sig := 0, unplaced := [0] }
/-- The package with that image and a launch of it. -/
def launched (q : Seq) (l : Launch) : State :=
  { issuing q with ctxs := [(0, { life := 1, seqs := [0], images := [img] })], launches := [l] }

theorem witness_SyncSlot :
    Permitted task [.wait 31 0 0xFFFF, .waitc 31 1 0, .post 31 2 5 0xFFFF, .clrf 0, .quiet 0, .drain 5, .endOp, .brk 0, .trapi 0xFFFF, .segb 63] ∧
    ((0 : BitVec 16).toNat ≤ (at' task.f 31 0).toNat ∧ ¬ ((1 : BitVec 16).toNat ≤ (at' task.f 31 0).toNat)) ∧
    (segmentEntry (issuing task) (opened task).work 63 = none ∧
      (let q : Seq := { task with launch := some 0 }
       segmentEntry (launched q lnch) q 0 ≠ none ∧ q.segRes.getLsbD 0 = true ∧
       segmentEntry (launched q lnch) q 1 = some (64, 1, 0x100) ∧ q.segRes.getLsbD 1 = false ∧ (∀ f ∈ q.segFetch, f.seg ≠ 1)) ∧
      (let q : Seq := { task with launch := some 0, segFetch := [⟨1, 64, 1, 0x100, 9, []⟩] }
       segmentEntry (launched q lnch) q 1 ≠ none ∧ q.segRes.getLsbD 1 = false ∧ ∃ f ∈ q.segFetch, f.seg = 1)) :=
  ⟨permitted_of _ _ (by decide), by decide, by decide +kernel⟩

theorem witness_TransferSlot :
    Permitted task [.xtov 47 16 0 0, .xtov 47 16 255 1, .xtov 47 16 254 2, .xfromv 47 16 255 0, .xfromv 0 16 255 1, .xfromv 0 16 254 2,
      .xag 7 0 16, .xag 7 9 16, .xmask 7 0 3 16, .xmask 7 1 3 16, .xsts 7 0 16, .xsts 0 4 16] ∧
    (quarterMask 3).getLsbD 255 = true ∧ (quarterMask 3).getLsbD 191 = false ∧ (quarterMask 0).getLsbD 0 = true ∧
    (opd (issuing task) (opened task) 0 16).poison = false ∧ (opd (issuing task) (opened task) 0 17).poison = true ∧
    (at' (opened task).start.z 0 {}).valid = false ∧
    (at' (opened { task with z := task.z.set 0 { valid := true } }).start.z 0 {}).valid = true :=
  ⟨permitted_of _ _ (by decide), by decide +kernel, by decide +kernel, by decide +kernel, by decide +kernel⟩

theorem witness_VectorTwoOperandForms : Permitted task
    [.vadd 0 1 2 0 0, .vsub 55 57 2 7 1, .vmul 0 1 2 0 0, .vmin 0 1 2 0 0, .vmax 0 1 2 0 0, .viadd 0 1 2 0 2, .visub 0 1 2 0 8,
     .vimul 0 1 2 0 6, .vimulh 0 1 2 0 6, .vimin 0 1 2 0 6, .vimax 0 1 2 0 6, .vand 0 1 2 0 9, .vor 0 1 2 0 6, .vxor 0 1 2 0 6,
     .vshl 0 1 2 0 6, .vshr 0 1 2 0 6, .vsar 0 1 2 0 6, .vdiv 0 1 2 0 0, .vwadd 0 1 2 0 2, .vwmul 0 1 2 0 7, .vfma 0 1 2 0 0,
     .vfms 0 1 2 0 1] := permitted_of _ _ (by decide)

theorem witness_VectorOneOperandForms : Permitted task
    [.vsqrt 0 1 0 0 0, .vrsq 0 1 5 7 1, .vrcp 0 1 1 0 0, .vexp2 0 1 2 0 0, .vlog2 0 1 3 0 0, .vtanh 0 1 4 0 0, .vsigm 55 57 0 0 0,
     .vabs 0 1 0 0, .vabs 0 1 0 8, .vneg 0 1 0 1, .vneg 0 1 0 2] := permitted_of _ _ (by decide)

/-- Codes that meet each case of the float laws, in both types: NaNs, infinities, zeros, sums and fused values that are and are not 0. -/
theorem witness_FloatTwoOperandValues : ∀ k ∈ [0, 1],
    let one := oneCode k
    let inf := infMag k
    let neg (c : Nat) : Nat := signed k true c
    (inf < codeMag k (inf + 1) ∧ inf < codeMag k (2 ^ codeWidth k - 1) ∧ 2 ^ codeWidth k - 1 < 2 ^ codeWidth k) ∧
    (codeMag k inf = inf ∧ codeMag k (neg inf) = inf ∧ codeNeg k (neg inf) = true ∧ codeNeg k inf = false ∧ ¬ inf < codeMag k inf) ∧
    (codeMag k 0 = 0 ∧ codeMag k (neg 0) = 0 ∧ codeMag k (inf - 1) < inf ∧ codeMag k 1 ≠ 0 ∧ codeMag k one < inf) ∧
    (codeVal k one + codeVal k (neg one) = 0 ∧ codeVal k (inf - 1) + codeVal k (inf - 1) ≠ 0) ∧
    codeVal k one * codeVal k one + codeVal k (neg one) * 2 ^ codeScale k = 0 ∧ codeVal k 0 * codeVal k 0 + codeVal k 1 * 2 ^ codeScale k ≠ 0 := by
  decide +kernel

/-- Arguments of the functions: the integers −126 and 127, the powers of two at the ends of the range, and a negative number. -/
theorem witness_FloatOneOperandValues : ∀ k ∈ [0, 1],
    let low := signed k true (133 * 2 ^ codeFrac k + 62 * 2 ^ (codeFrac k - 6))
    let high := 133 * 2 ^ codeFrac k + 63 * 2 ^ (codeFrac k - 6)
    (codeVal k low = -126 * 2 ^ codeScale k ∧ codeVal k high = 127 * 2 ^ codeScale k ∧ codeMag k low < infMag k ∧ codeNeg k low = true) ∧
    (1 * 2 ^ codeFrac k = (127 + (-126) : Int).toNat * 2 ^ codeFrac k ∧ 254 * 2 ^ codeFrac k = (127 + 127 : Int).toNat * 2 ^ codeFrac k) ∧
    (0 < codeMag k 1 ∧ codeMag k (infMag k - 1) < infMag k ∧ codeNeg k 1 = false ∧ infMag k < codeMag k (infMag k + 1)) := by decide +kernel

/-- An integer of modest size stands off every code and every midpoint. -/
theorem standsOff_of_int (t : Nat) (m : Int) (h : |m| ≤ 2 ^ 200) : StandsOff t (m : ℝ) := by
  have hm : |(m : ℝ)| ≤ 2 ^ 200 := by exact_mod_cast h
  have key : ∀ a : Int, a ≠ 0 → |(m : ℝ)| ≤ 2 ^ 600 * |(a : ℝ)| := by
    intro a ha
    have h1 : (1 : ℝ) ≤ |(a : ℝ)| := by exact_mod_cast Int.one_le_abs ha
    have h2 : (2 : ℝ) ^ 200 ≤ 2 ^ 600 := pow_le_pow_right₀ (by norm_num) (by norm_num)
    exact (hm.trans h2).trans (le_mul_of_one_le_right (by positivity) h1)
  intro c _ _
  dsimp only
  refine ⟨?_, ?_⟩
  · rcases eq_or_ne (m - codeVal t c) 0 with e | e
    · exact .inl (by exact_mod_cast (by omega : m = codeVal t c))
    · exact .inr (by have := key _ e; push_cast at this; exact this)
  · rcases eq_or_ne (2 * m - (codeVal t c + codeVal t (c + 1))) 0 with e | e
    · exact .inl (by exact_mod_cast (by omega : 2 * m = codeVal t c + codeVal t (c + 1)))
    · exact .inr (by have := key _ e; push_cast at this; exact this)

/-- So does a number just below an integer. -/
theorem standsOff_below (t : Nat) (n : Int) (y : ℝ) (hn : n ≤ 2 ^ 200) (h0 : (n : ℝ) - 1 / 4 < y) (h1 : y < n - 1 / 2 ^ 200) (hy : 0 ≤ y) :
    StandsOff t y := by
  have hn' : (n : ℝ) ≤ 2 ^ 200 := by exact_mod_cast hn
  have pos : (0 : ℝ) < 1 / 2 ^ 200 := by positivity
  have key : ∀ d : ℝ, 1 / 2 ^ 200 ≤ |d| → |y| ≤ 2 ^ 600 * |d| := by
    intro d hd
    have h600 : (2 : ℝ) ^ 600 = 2 ^ 400 * 2 ^ 200 := by rw [← pow_add]
    have h2 : (2 : ℝ) ^ 200 ≤ 2 ^ 400 := pow_le_pow_right₀ (by norm_num) (by norm_num)
    have h3 : (2 : ℝ) ^ 600 * (1 / 2 ^ 200) = 2 ^ 400 := by rw [h600]; field_simp
    have h4 : (2 : ℝ) ^ 600 * (1 / 2 ^ 200) ≤ 2 ^ 600 * |d| := mul_le_mul_of_nonneg_left hd (by positivity)
    have h5 : y ≤ 2 ^ 200 := by linarith
    rw [abs_of_nonneg hy]
    exact (h5.trans h2).trans (h3.symm.le.trans h4)
  have small : (1 : ℝ) / 2 ^ 200 ≤ 1 / 2 := by norm_num
  intro c _ _
  dsimp only
  refine ⟨.inr (key _ ?_), .inr (key _ ?_)⟩
  · rcases lt_or_ge (codeVal t c) n with e | e
    · have : (codeVal t c : ℝ) ≤ n - 1 := by exact_mod_cast Int.le_sub_one_of_lt e
      rw [abs_of_nonneg (by linarith)]; linarith
    · have : (n : ℝ) ≤ codeVal t c := by exact_mod_cast e
      rw [abs_sub_comm, abs_of_nonneg (by linarith)]; linarith
  · rcases lt_or_ge (codeVal t c + codeVal t (c + 1)) (2 * n) with e | e
    · have : (codeVal t c : ℝ) + codeVal t (c + 1) ≤ 2 * n - 1 := by exact_mod_cast Int.le_sub_one_of_lt e
      rw [abs_of_nonneg (by linarith)]; linarith
    · have : (2 * n : ℝ) ≤ (codeVal t c : ℝ) + codeVal t (c + 1) := by exact_mod_cast e
      rw [abs_sub_comm, abs_of_nonneg (by linarith)]; linarith

/-- Arguments 1, 2, 64 and 128 of both types: VEXP2 of 1 and VLOG2 of 2 are codes; VTANH of 64 and VSIGM of 128 lie just below 1. -/
theorem witness_SpecialFunctionsRoundOnce : ∀ k ∈ [0, 1],
    let code (e : Nat) : Nat := (127 + e) * 2 ^ codeFrac k
    (∀ e ∈ [0, 1, 6, 7], code e < 2 ^ codeWidth k ∧ 0 < codeMag k (code e) ∧ codeMag k (code e) < infMag k ∧ codeNeg k (code e) = false ∧
      codeVal k (code e) = 2 ^ (e + codeScale k)) ∧
    codeMag k (code 1) ≠ oneCode k ∧ (1 : Mode).toNat = 1 ∧ (5 : Mode).toNat = 5 := by decide +kernel

/-- Bounds of e^64, by those of e. -/
theorem exp_64_bounds : (2 : ℝ) ^ 80 < Real.exp 64 ∧ Real.exp 64 < 2 ^ 120 := by
  have h : Real.exp 64 = Real.exp 1 ^ 64 := by rw [Real.exp_one_pow]; norm_num
  have h1 := Real.exp_one_gt_d9
  have h2 := Real.exp_one_lt_d9
  rw [h]
  refine ⟨lt_of_lt_of_le ?_ (pow_le_pow_left₀ (by norm_num) (show (2.7 : ℝ) ≤ Real.exp 1 by linarith) 64), lt_of_le_of_lt (pow_le_pow_left₀ (by linarith)
    (show Real.exp 1 ≤ 3 by linarith) 64) ?_⟩ <;> norm_num

/-- A value 1 − d with d of modest size, scaled, lies just below 2^codeScale. -/
theorem standsOff_of_gap (k : Nat) (hk : k ≤ 1) (y d : ℝ) (hy : y = 1 - d) (h0 : d < 1 / 2 ^ 152) (h1 : 1 / 2 ^ 300 < d) : StandsOff k (y * 2 ^ codeScale k) := by
  have hs : codeScale k = 149 ∨ codeScale k = 133 := by interval_cases k <;> decide
  have key : ∀ n : Nat, n = 149 ∨ n = 133 → StandsOff k (y * 2 ^ n) := by
    intro n hn
    have hp : (0 : ℝ) < 2 ^ n := by positivity
    have a : d * 2 ^ n < 1 / 2 ^ 152 * 2 ^ n := mul_lt_mul_of_pos_right h0 hp
    have b : 1 / 2 ^ 300 * 2 ^ n < d * 2 ^ n := mul_lt_mul_of_pos_right h1 hp
    have e300 : (2 : ℝ) ^ 300 = 2 ^ 150 * 2 ^ 150 := by rw [← pow_add]
    rw [e300] at b
    refine standsOff_below k (2 ^ n) _ ?_ ?_ ?_ ?_
    · rcases hn with rfl | rfl <;> norm_num
    all_goals rw [hy]; push_cast; rcases hn with rfl | rfl <;> norm_num at a b ⊢ <;> linarith
  exact key _ hs

theorem witness_SpecialFunctionsStandOff (k : Nat) (hk : k ≤ 1) :
    StandsOff k ((2 : ℝ) ^ (1 : ℝ) * 2 ^ codeScale k) ∧ StandsOff k (Real.logb 2 2 * 2 ^ codeScale k) ∧
    StandsOff k (Real.tanh 64 * 2 ^ codeScale k) ∧ StandsOff k (1 / (1 + Real.exp (-128)) * 2 ^ codeScale k) := by
  obtain ⟨l, u⟩ := exp_64_bounds
  have hE : 0 < Real.exp 64 := Real.exp_pos _
  have h2 : Real.exp (-128) = 1 / (Real.exp 64 * Real.exp 64) := by rw [Real.exp_neg, ← Real.exp_add]; norm_num
  have hT : Real.tanh 64 = 1 - 2 / (Real.exp 64 * Real.exp 64 + 1) := by
    rw [Real.tanh_eq_sinh_div_cosh, Real.sinh_eq, Real.cosh_eq, Real.exp_neg]
    field_simp
    ring
  generalize Real.exp 64 = E at *
  have lo : (2 : ℝ) ^ 160 < E * E := by nlinarith
  have hi : E * E < 2 ^ 240 := by nlinarith
  have e300 : (2 : ℝ) ^ 300 = 2 ^ 240 * 2 ^ 60 := by rw [← pow_add]
  have ints : ∀ m : Int, |m| ≤ 2 ^ 200 → ∀ y : ℝ, y = m → StandsOff k y := fun m h y e => e ▸ standsOff_of_int k m h
  refine ⟨ints (2 ^ (1 + codeScale k)) ?_ _ ?_, ints (2 ^ codeScale k) ?_ _ ?_, standsOff_of_gap k hk _ _ hT ?_ ?_,
    standsOff_of_gap k hk _ (1 / (E * E + 1)) ?_ ?_ ?_⟩
  · interval_cases k <;> decide +kernel
  · rw [Real.rpow_one]; push_cast; ring
  · interval_cases k <;> decide +kernel
  · rw [Real.logb_self_eq_one (by norm_num)]; push_cast; ring
  · rw [div_lt_div_iff₀ (by positivity) (by positivity)]; norm_num at lo ⊢; linarith
  · rw [div_lt_div_iff₀ (by positivity) (by positivity), e300]; norm_num at hi ⊢; linarith
  · rw [h2]; field_simp; ring
  · rw [div_lt_div_iff₀ (by positivity) (by positivity)]; norm_num at lo ⊢; linarith
  · rw [div_lt_div_iff₀ (by positivity) (by positivity), e300]; norm_num at hi ⊢; linarith

theorem witness_VectorResultsLand :
    (∀ t ∈ [0, 2, 8, 9], let n := elemCount t
      t < 10 ∧ n - 1 < n ∧ n ≤ elemCount t ∧ n - 1 < (List.replicate n ((0 : Nat), (0 : BitVec 6))).length ∧ lanesPer t - 1 < lanesPer t) ∧
    (∀ x ∈ streamsOf (opened task).work, x.2.left = 0) ∧
    (let q : Seq := { task with z := task.z.set 1 { valid := true, left := 3, srcs := [57] } }
     ∀ x ∈ streamsOf q, x.2.left = 0 ∨ (48 : BitVec 6) ∉ x.2.srcs ∨ x.2.cut = allLanes) ∧
    (47#6).toNat < 48 ∧ 48 ≤ (48#6).toNat ∧ (55#6).toNat ≤ 55 ∧ task.v.length = 48 ∧ (opened task).work.z.length = 8 ∧ (255 : Nat) < 256 ∧
    ({ dest := .vector 47, left := 0 } : Pending).dest = .vector 47 := by decide +kernel

theorem witness_VectorConversions :
    Permitted task [.vnarw 0 1 2 0 2, .vcmp 6 7 1 2 0 8, .vcmp 0 0 1 2 0 0, .vsel 0 1 2 7 6, .vmop 7 7 7 15, .vcvt 0 1 0 5 0 0,
      .vcvt 0 1 7 0 0 8, .vscale 0 1 2 0 0, .vpack 0 1 0x10 0 0, .vpack 0 1 0 0 1, .vunpk 0 1 0x10 0 0, .vunpk 0 1 8 0 6] ∧
    (0x10#6).getLsbD 4 = true ∧ (0#6).getLsbD 4 = false ∧ (6#4).toNat = 6 := ⟨permitted_of _ _ (by decide), by decide⟩

/-- Codes and scales that meet each case of the conversions' values. -/
theorem witness_ConversionValues :
    (∀ k ∈ [0, 1], infMag k < codeMag k (infMag k + 1) ∧ codeMag k (infMag k) = infMag k ∧ codeMag k (infMag k - 1) < infMag k ∧
      codeVal k (oneCode k) ≠ 0 ∧ codeVal k (signed k true 0) = 0 ∧ (infMag k + 6 * 2 ^ (codeFrac k - 5)) / 2 ^ (codeFrac k - 5) % 16 = 6) ∧
    ((∀ u ∈ [2, 9], (0 : Nat) < 2 ^ elemWidth u) ∧ readBy 2 0 = 0 ∧ sRead 128 (2 ^ 127) ≠ 0 ∧ 2 ^ 127 < 2 ^ elemWidth 9) ∧
    ((0xFF0000 : BitVec 24).toNat / 65536 = 255 ∧ (0x010000 : BitVec 24).toNat / 65536 = 1 ∧ (0xFEFFFF : BitVec 24).toNat / 65536 = 254) ∧
    (fieldN (0#6) 0 4 = 0 ∧ fieldN (8#6) 0 4 = 8 ∧ fieldN (0x15#6) 0 4 = 5 ∧ fieldN (3#6) 0 4 = 3 ∧ 126 % 128 ≠ 127 ∧ 0x7C % 128 ≤ 0x7C ∧
      (2 ^ 32 - 1 : Nat) < 2 ^ 32) := by decide +kernel

theorem witness_VectorPermutesAndReductions : Permitted task
    [.vmov 0 1 0 9, .vzip 0 1 2 0 0, .vuzp 0 1 2 0 8, .vperm 0 1 2 0 6, .vslide 0 1 255 0, .vslide 0 1 0 1, .vred 0 1 0x40 0 6,
     .vred 0 1 5 0 6, .vscan 0 1 0x38 0 0] := permitted_of _ _ (by decide)

/-- Lists of the lengths that a tree halves, members of a segment, and the types whose step and identity are stated. -/
theorem witness_ReductionTrees :
    ((8 : Nat) ≤ 8 ∧ (List.replicate 256 (some 1)).length = 2 ^ 8 ∧ ([some 1] : List (Option Nat)).length = 2 ^ 0 ∧ (List.replicate 128 (none : Option Nat)).length = 2 ^ 7) ∧
    ((0 : Nat) ≤ 1 ∧ (2 : Nat) ≤ 2 ∧ (9 : Nat) ≤ 9 ∧ (8 : Nat) ≤ 8 ∧ 2 ^ 64 - 1 < 2 ^ elemWidth 8) ∧
    (255 < elemCount 6 ∧ 63 < elemCount 9 ∧ (1#256 : Mask).getLsbD (lanesPer 9 * 0) = true) ∧ (255 : Nat) < 256 := by
  decide +kernel

theorem witness_VectorMemoryAndStreams :
    Permitted task [.vld 47 7 0 9, .vst 57 0 7 0, .vldx 0 0 57 0 6, .vstx 0 0 1 0 6, .vdec 7 6 7 0 0 1 31, .vcut 7 56 7, .vcut 0 0 0] ∧
    (opened task).work.z.length = 8 ∧ (1#256 : Mask).getLsbD 0 = true ∧ (List.replicate 256 (-1 : Int)).length = 256 ∧ (0 : Nat) < 1 :=
  ⟨permitted_of _ _ (by decide), by decide +kernel⟩

/-- A task whose lode schedule lets its LSEND go now, and that lode. -/
def lodeTable : LodeTable := { period := 4, entries := [⟨2, 0, 1, 1⟩] }
def lodeHost (q : Seq) : State := { issuing q with lodes := [(0, { table := some lodeTable })] }

theorem witness_EngineCommandsEnter :
    Permitted task [.mcall 31 1 31 3, .mlatch 0 0 3 1, .medge 0 0, .mflush 0 0, .mstep 0 0 255 0, .mrout 0 0 31 255, .mstat 0 0, .mdec 0 0 6,
      .mcut 0 0 1, .cpy 31 1 5 5 0, .cpys 0 1 0 0 1, .cpyg 0 0 0 0 0, .cpyt 0 0 0 0 0, .cpyx 0 0 0 0 0, .cpyf 0 0 0 0 0, .cpyw 0 0 0 0 0,
      .cpyq 0 0 0 0 0, .lsend 47 3, .lsched 0 0, .gld 0 0 63, .gdef 0 0, .fpost 0 0 2 5, .namo 0 0 4 3 8 1, .ncas 0 0 3 5 1 0, .pgmap 0 0,
      .pgdone 31 1] ∧
    (isCommandOp (.mcall 31 1 31 3) = true ∧ slotsOf (.mcall 31 1 31 3) = [5] ∧ (opened task).start.mx.queue.length < 8) ∧
    (isCommandOp (.cpy 31 1 5 5 0) = true ∧ slotsOf (.cpy 31 1 5 5 0) = [6] ∧ (opened task).start.cpy.queue.length < 16) ∧
    (isCommandOp (.pgdone 31 1) = true ∧ slotsOf (.pgdone 31 1) = [7] ∧ isLsend (.pgdone 31 1) = false ∧ (opened task).start.net.queue.length < 16) ∧
    (let c : Command := { op := .nop, stage := [] }
     8 ≤ (opened (withMx { queue := List.replicate 8 c })).start.mx.queue.length ∧
     16 ≤ (opened { task with cpy := { queue := List.replicate 16 c } }).start.cpy.queue.length ∧
     16 ≤ (opened { task with net := { queue := List.replicate 16 c } }).start.net.queue.length) ∧
    (lodeHost task).bundle = some (opened task) ∧ lsendReady (lodeHost task) 0 task = true ∧ lsendReady (issuing task) 0 task = false :=
  ⟨permitted_of _ _ (by decide), by decide, by decide, by decide, by decide, rfl, by decide +kernel, by decide +kernel⟩

/-! ## Witnesses: the frames -/

theorem witness_ScalarResultFrame :
    scalarDest (.xsts 0 0 16) = some 16 ∧ scalarDest (.srd 16 0) = some 16 ∧ (issuing task).bundle = some (opened task) ∧
    ∃ t, exec (.add 16 16 16) (issuing task) = .next t := ⟨rfl, rfl, rfl, next_of_isNext _ (by decide +kernel)⟩

theorem witness_ScalarStoreFrame :
    storeForm (.stI8 20 16 0) = some (1, 16, 0, 20) ∧ (∃ t, exec (.stI8 20 16 0) (issuing task) = .next t) ∧
    atomicForm (.casI64 16 16 20 21 1) = some (8, 16, 16) ∧ (∃ t, exec (.casI64 16 16 20 21 1) (issuing task) = .next t) ∧
    (issuing task).bundle = some (opened task) :=
  ⟨rfl, next_of_isNext _ (by decide +kernel), rfl, next_of_isNext _ (by decide +kernel), rfl⟩

theorem witness_VectorFrame :
    isVectorOp (.vmov 0 1 0 6) = true ∧ isVectorOp (.vcut 0 0 0) = true ∧ (issuing task).bundle = some (opened task) ∧
    ∃ t, exec (.vmov 0 1 0 6) (issuing task) = .next t := ⟨rfl, rfl, rfl, next_of_isNext _ (by decide +kernel)⟩

theorem witness_CommandFrame :
    isCommandOp (.mcall 0 0 0 0) = true ∧ (issuing task).bundle = some (opened task) ∧ (∃ t, exec (.mcall 0 0 0 0) (issuing task) = .next t) ∧
    (isCommandOp (.cpy 0 0 0 0 0) = true ∧ ∃ t, exec (.cpy 0 0 0 0 0) (issuing task) = .next t) ∧
    (isCommandOp (.fpost 0 0 0 0) = true ∧ ∃ t, exec (.fpost 0 0 0 0) (issuing task) = .next t) :=
  ⟨rfl, rfl, next_of_isNext _ (by decide +kernel), ⟨rfl, next_of_isNext _ (by decide +kernel)⟩, rfl, next_of_isNext _ (by decide +kernel)⟩

/-! ## Witnesses: the engines -/

/-- Sequencer 0's matrix engine at clock `k`. -/
def engine (k : Nat) (m : Matrix) : State := { host (withMx m) with clock := k }
/-- A command of one operation, entered in clock 0. -/
def cmd (i : Instr) : Command := { op := i, stage := List.replicate 8 0 }
def site7 : Fill := { site := 7, latch := 0, value := [], width := 0, pois := 0, spm := false, owner := 0, routine := true, idx := 0, doneAt := 0 }

theorem witness_MicroStepsRun :
    (let r := routine
     let s := engine 0 { routine := some r }
     (getSeq s s.cur).mx.routine = some r ∧ r.ended = false ∧ r.pc ∉ (getSeq s s.cur).microBad ∧ (getSeq s s.cur).mx.lodeBuf = [] ∧
       fillsPending (getSeq s s.cur).mx (sitesIn 0xFF) = false ∧ r.cutRow = none ∧ (∀ j ∈ sitesIn 0xFF, (getSite s (siteOf s.cur j)).retired = false) ∧
       0 < repeatCount r.params 0 0 0 ∧ repeatCount r.params 1 1 7 = 0 ∧ (getSeq s s.cur).mx.edgeBuf = [] ∧ (getSeq s s.cur).mx.sent = [] ∧
       (getSeq s s.cur).mx.fills = [] ∧ r.posts = [] ∧ (31#5).toNat < (getSeq s s.cur).fInc.length) ∧
    (let s := { engine 0 { routine := some routine } with sites := [(7, { bank := List.replicate 32 0x00020000 })] }
     let pl := planOf (getSite s 7) 7 (at' routine.params 0 0) (255 * tget 0 routine.fillRuns routine.pc) false
     sitesIn 0x80 = [7] ∧ siteOf s.cur 7 = 7 ∧ (getSite s 7).retired = false ∧ fillRefused (at' routine.params 0 0) pl = false ∧
       (openingsOf s 0 7 pl).stop = none ∧ (openingsOf s 0 7 pl).lost = []) ∧
    (let s := engine 0 { routine := some routine, fills := [site7] }
     (getSeq s s.cur).mx.routine = some routine ∧ fillsPending (getSeq s s.cur).mx (sitesIn 0x80) = true) := by decide +kernel

/-- A row of empty windows. -/
def row : Row := { wins := [], ew := 0, arrive := 0 }
def feedOf (w : Instr) : Feed := { word := w, rows := 2, start := 0, next := 0 }
/-- A task with an END at word 0 of its micro-steps and routine 5 there. -/
def caller (c : Command) : Seq := { withMx { queue := [c] } with micro := [0], routines := (task.routines.set 5 (some 0)) }

/-- A command with its first two staging words. -/
def staged (i : Instr) (a b : Word) : Command := { op := i, stage := [a, b, 0, 0, 0, 0, 0, 0] }
/-- Sequencer 0 whose engine has one command to start at clock 1, and `m` beside. -/
def starting (m : Matrix) (c : Command) : State := engine 1 { m with queue := [c] }
/-- An edge configuration that neither keeps its rows nor has the type of raw sums. -/
def edge0 : Edge := { cfg := [0, 0, 0, 0], mode := 1, bias := [], scale := [] }

/-- The starts of MLATCH, MSTAT, MDEC and MCUT, and an MCALL that a check refuses. -/
theorem witness_MatrixStarts :
    (let c := staged (.mlatch 31 1 3 1) 0x0080000000000000 0
     let s := { starting {} c with sites := [(7, { bank := List.replicate 32 0x00020000 })] }
     let pl := planOf (getSite s 7) 7 (mpOf c.stage 0) 0 true
     (getSeq s 0).mx.queue = c :: [] ∧ matrixMayStart s.clock (getSeq s 0).mx c = true ∧ sitesIn (fdSites (mpOf c.stage 0)) = [7] ∧ siteOf 0 7 = 7 ∧
       (getSite s 7).retired = false ∧ fillRefused (mpOf c.stage 0) pl = false ∧ (openingsOf s 0 7 pl).stop = none ∧ (openingsOf s 0 7 pl).lost = []) ∧
    (∀ w ∈ [0, 0xFFFE0, 0x80000000000FFFE0], let c := staged (.mstat 0 0) (BitVec.ofNat 64 w) 0
     let s := starting {} c
     matrixMayStart s.clock (getSeq s 0).mx c = true ∧ anyBit (mpOf c.stage 0) 20 43 = false ∧ Memory.wf s.mem = true ∧
       (getSeq s 0).sr.winBase.toNat ≤ (mpOf c.stage 0).toNat / 32 % 2 ^ 15 * 32 ∧
       (mpOf c.stage 0).toNat / 32 % 2 ^ 15 * 32 + 32 ≤ (getSeq s 0).sr.winBase.toNat + (getSeq s 0).sr.winSize.toNat) ∧
    (let c := staged (.mstat 0 0) 0 0
     let s := { host { edgeTask with mx := { queue := [c] } } with clock := 1 }
     matrixMayStart s.clock (getSeq s 0).mx c = true ∧ (mpOf c.stage 0).toNat / 32 % 2 ^ 15 * 32 < (getSeq s 0).sr.winBase.toNat) ∧
    (let c := staged (.mstat 0 0) 0xFFFE0 0
     let s := { host { task with sr := { task.sr with winSize := 0xFFFFC }, mx := { queue := [c] } } with clock := 1 }
     (getSeq s 0).sr.winBase.toNat + (getSeq s 0).sr.winSize.toNat < (mpOf c.stage 0).toNat / 32 % 2 ^ 15 * 32 + 32) ∧
    (∀ w ∈ [0, 0x3F00000], let c := staged (.mdec 31 1 6) (BitVec.ofNat 64 w) 0
     let s := starting { edge := some edge0 } c
     matrixMayStart s.clock (getSeq s 0).mx c = true ∧ (getSeq s 0).mx.edge = some edge0 ∧ edgeOty edge0.cfg ≠ 9 ∧ edgeAcc edge0.cfg = false ∧
       anyBit (mpOf c.stage 0) 26 38 = false ∧ fieldN (mpOf c.stage 0) 0 3 = 0 ∧ (anyBit (mpOf c.stage 0) 25 1 = true ∨ anyBit (mpOf c.stage 0) 20 5 = false)) ∧
    (let c := staged (.mcut 31 1 1) 1 0x10000
     matrixMayStart 1 (getSeq (starting {} c) 0).mx c = true ∧ anyBit (mpOf c.stage 1) 16 48 = true ∧ mpOf c.stage 0 ≠ 0 ∧ (getSeq (starting {} c) 0).mx.target = none) ∧
    (let c := staged (.mcut 31 1 1) 0 0xFFFF
     let s := starting { target := some {}, edge := some edge0, routine := some { routine with fed := 0xFFFF } } c
     matrixMayStart s.clock (getSeq s 0).mx c = true ∧ (getSeq s 0).mx.target = some {} ∧ ({} : Target).edgeChanged = false ∧ anyBit (mpOf c.stage 1) 16 48 = false ∧
       mpOf c.stage 0 = 0 ∧ ({ routine with fed := 0xFFFF } : Routine).cutRow = none ∧ 0xFFFF ≤ (mpOf c.stage 1).toNat % 2 ^ 16 ∧ ({} : Target).values = []) ∧
    (let c := cmd (.mcall 0 0 5 2)
     let s := { host { caller c with micro := [0xF000000000000000] } with clock := 1 }
     (getSeq s 0).mx.queue = c :: [] ∧ ((getSeq s 0).routines[5]?).join = some 0 ∧ (getSeq s 0).ctx = some 0 ∧
       (checkRoutine { getSeq s 0 with mx := { (getSeq s 0).mx with queue := [] } } 0 1 2 (c.stage.take 8) 0).toOption.isSome = false) := by
  refine ⟨?_, ?_, ?_, ?_, ?_, ?_, ?_, ?_⟩
  all_goals decide +kernel

theorem witness_MatrixEngineSteps :
    (let s := engine 1 { queue := [cmd (.mrout 0 0 31 255)] }
     (getSeq s 0).mx.queue = cmd (.mrout 0 0 31 255) :: [] ∧ matrixMayStart s.clock (getSeq s 0).mx (cmd (.mrout 0 0 31 255)) = true ∧
       (cmd (.mrout 0 0 31 255)).op = .mrout 0 0 31 255) ∧
    (let c := cmd (.mcall 0 0 5 2)
     let s := { host (caller c) with clock := 1 }
     (getSeq s 0).mx.queue = c :: [] ∧ matrixMayStart s.clock (getSeq s 0).mx c = true ∧ ((getSeq s 0).routines[5]?).join = some 0 ∧
       (checkRoutine { getSeq s 0 with mx := { (getSeq s 0).mx with queue := [] } } 0 1 2 (c.stage.take 8) 0).toOption.isSome = true) ∧
    (∀ c ∈ [cmd (.mstep 0 0 255 0), cmd (.medge 0 0), cmd (.mflush 0 0)], let s := engine 1 { queue := [c] }
     (getSeq s 0).mx.queue = c :: [] ∧ matrixMayStart s.clock (getSeq s 0).mx c = true ∧ edgeRefused c.stage (getSeq s 0).mx.acc.length = false) ∧
    (let s := engine 1 { queue := [cmd (.mflush 0 0)], acc := [[]] }
     matrixMayStart s.clock (getSeq s 0).mx (cmd (.mflush 0 0)) = true) ∧
    (let c := cmd (.mcall 0 0 31 2)
     let s := { host (caller c) with clock := 1 }
     (getSeq s 0).mx.queue = c :: [] ∧ matrixMayStart s.clock (getSeq s 0).mx c = true ∧ ((getSeq s 0).routines[31]?).join = none) ∧
    (let r : MatrixRun := { cmd := cmd (.medge 31 1), doneAt := 4 }
     let s := engine 4 { running := [r] }
     (getSeq s 0).mx.running.find? (runDone s.clock (getSeq s 0).mx) = some r ∧ matrixHeader r.cmd.op = (31, true) ∧
       31 < (getSeq s 0).fInc.length) ∧
    (let r : Routine := { routine with ended := true, pe := true, cf := 31 }
     let s := engine 4 { routine := some r }
     (getSeq s 0).mx.routine = some r ∧ callDone s.clock (getSeq s 0).mx r = true) ∧
    (let r : Routine := { routine with ended := true, posts := [{ flag := 31, rows := 0, fills := 0, after := 4 }, { flag := 31, rows := 0, fills := 0 }] }
     let s := engine 4 { routine := some r }
     (getSeq s 0).mx.routine = some r ∧ callDone s.clock (getSeq s 0).mx r = true ∧ callDone 3 (getSeq s 0).mx r = false ∧ 31 < (getSeq s 0).fInc.length) ∧
    (let s := engine 4 { fills := [site7] }
     (7 : Nat) < 4096 ∧ (getSeq s (siteOwner (siteOfPackage 7)).1).mx.fills.find?
       (fun f => f.site == (siteOwner (siteOfPackage 7)).2 && decide (f.doneAt ≤ s.clock)) = some site7) ∧
    (let f := feedOf (.stepFeed 1 1 0 0 0 2 0)
     let r : Routine := { routine with roles := routine.roles.set 0 (some .headRole), feed := some f }
     let s := engine 4 { routine := some r }
     (getSeq s 0).mx.routine = some r ∧ r.feed = some f ∧ f.word = .stepFeed 1 1 0 0 0 2 0 ∧ rowReady s 0 (getSeq s 0).mx r f = true ∧
       atCut r (sitesIn 1) = false ∧ feedTakesWest r.roles (sitesIn 1) = false ∧ 1 < f.rows) ∧
    (let s := engine 6 { edgeBuf := [row] }
     (getSeq s 0).mx.edgeBuf = row :: [] ∧ deliveryDue s.clock (getSeq s 0).mx = true ∧ row.flush = none) ∧
    (let s := engine 6 { edgeBuf := [{ row with flush := some 0 }] }
     deliveryDue s.clock (getSeq s 0).mx = true) ∧
    (let s := engine 6 { sent := [row] }
     westOf 16 = some 0 ∧ (getSeq s 0).mx.sent = row :: [] ∧ row.arrive ≤ s.clock ∧ linkOpen s 16 = true ∧ (getSeq s 16).mx.discardIn = 0) ∧
    (let s := { engine 6 { sent := [row] } with seqs := [(0, withMx { sent := [row] }), (16, { mx := { discardIn := 1 } })] }
     (getSeq s 0).mx.sent = row :: [] ∧ linkOpen s 16 = true ∧ 0 < (getSeq s 16).mx.discardIn) := by
  decide +kernel

/-- An LSEND in the network queue. -/
def lsendCmd : Command := { op := .lsend 0 0, stage := [], lanes := List.replicate 64 0 }
def vec : LodeVec := { entry := 0, rows := 1, cols := 1, arrive := 2, lanes := [] }

theorem witness_LodeSteps :
    (31 : Nat) < 32 ∧
    (let s := { host task with lodes := [(31, { waiting := some (lodeTable, 0) })] }
     (getLode s 31).waiting = some (lodeTable, 0) ∧ switchDue s 31 = true) ∧
    (let s := { host task with lodes := [(0, { table := some lodeTable })] }
     boundaryDue s 0 = true) ∧
    (let r : Routine := { routine with waitSync := true }
     let s := { host (withMx { routine := some r }) with lodes := [(0, { table := some lodeTable })] }
     boundaryDue s 0 = true ∧ (getSeq s 0).mx.routine = some r ∧ r.waitSync = true ∧ r.ready ≤ s.clock) ∧
    (let s := { host { task with net := { queue := [lsendCmd] } } with clock := 2, lodes := [(0, { table := some lodeTable })] }
     injectionDue s 0 = some (0, lsendCmd) ∧ (getLode s 0).table = some lodeTable ∧
       matchedEntry (getLode s 0) (0 % 16) (at' (getLode s 0).counts (0 % 16) 0) = some ⟨2, 0, 1, 1⟩) ∧
    (let s := { host task with clock := 2, lodes := [(0, { deliver := [vec] })] }
     (getLode s 0).deliver = vec :: [] ∧ vec.arrive ≤ s.clock) := by decide +kernel

theorem witness_LandingSteps :
    (511 : Nat) < 512 ∧
    (let s := host { task with pending := [{ dest := .named 0, left := 0 }] }
     (getSeq s 0).pending.any (fun e => e.left == 0) = true ∧ (1 : Nat) ≠ 0) ∧
    (let e (d : Dest) : Pending := { dest := d, lanes := 1#256 <<< 255, left := 0 }
     let l : List Pending := [e (.queue 15), e (.shadow 15), e (.named 31), e (.param 7 9), e (.vector 47)]
     let q : Seq := { task with pending := l ++ e (.mask 7) :: [{ e (.mask 7) with left := 1 }, { e (.mask 6) with left := 1 }] }
     q.pending = l ++ e (.mask 7) :: [{ e (.mask 7) with left := 1 }, { e (.mask 6) with left := 1 }] ∧ (e (.mask 7)).left = 0 ∧ (e (.mask 7)).lanes ≠ 0 ∧
       (e (.mask 7)).lanes.getLsbD 255 = true ∧ 15 < q.q.length ∧ 15 < q.sq.length ∧ 31 < q.g.length ∧ 7 < q.ag.length ∧ 47 < q.v.length ∧ 7 < q.m.length ∧
       (∀ x ∈ q.pending, x.left = 0 → x.dest ≠ .mask 6)) ∧
    (let s := host { task with z := task.z.set 7 { valid := true } }
     (at' (getSeq s 0).z 7 {}).valid = true ∧ (at' (getSeq s 0).z 7 {}).left = 0 ∧ (at' (getSeq s 0).z 7 {}).done = false) ∧
    (let d : Vdec := { md := 7, cc := 0, pe := true, flag := 31, scope := 1, thr := [], bits := 1, left := 0 }
     let s := host { task with z := task.z.set 7 { valid := true, vdec := some d } }
     (at' (getSeq s 0).z 7 {}).vdec = some d ∧ vdecDue d = true ∧ d.md.toNat < (getSeq s 0).m.length ∧ d.flag.toNat < (getSeq s 0).fInc.length) := by decide +kernel

/-- A copy of one element whose access is to be made, and one whose accesses are performed. -/
def copying : CopyRun := { cmd := cmd (.cpy 31 1 0 0 0), total := 1 }
def copied : CopyRun := { copying with next := 1 }
/-- A plain copy of one byte of P to another. -/
def moving : CopyRun :=
  { copying with wait := 5, src := { space := 1, addr := 0x100, lo := 0, hi := 0x100000 }, dst := { space := 1, addr := 0xFFFFF, lo := 0, hi := 0x100000 } }

/-- An atomic on byte 0x100 of sequencer 0's P, translated or not. -/
def pAddr : Nat := 4 * 2 ^ 45 + 0x100
def atomicRun (phase : Nat) : NetRun :=
  { cmd := { op := .namo 0 0 0 0 0 1, stage := [pAddr, 5, 0, 0, 0, 0, 0, 0] }, fa := pAddr, phase := phase, place := placeP 0 0x100 }
def heldReq : HeldRequest := { seq := 0, eng := 0, write := false, serial := 0, page := 0 }

/-- A CPY of one element between two ends, with a record at the last 32 bytes of P. -/
def copyCmd (a b w : Word) : Command := { op := .cpy 31 1 0 0 0, stage := [a, b, w, 0, 0, 0, 0x1FFFE0, 0] }
def begins : Begin → Nat
  | .run _ => 0
  | .held _ _ => 1
  | .outside _ => 2
/-- A sequencer about to begin a copy: its first range register is sequencer 128's P, its last zone is BF16, and links of die 1 are being stopped. -/
def copyHost (c : Command) : State :=
  { host { task with cpy := { queue := [c] }, zones := List.replicate 15 0x000B0000 ++ [0x00020000],
                     ranges := BitVec.ofNat 128 (0x10207 + 2 ^ 64 * (4 * 2 ^ 45 + 128 * 2 ^ 21)) :: List.replicate 7 0 } with
    clock := 1, dies := [(1, { st := 1, busy := true, cmd := 2 })] }

/-- A copy that begins, one held at its beginning, and one whose source no range maps. -/
theorem witness_CopyStarts :
    (let c := copyCmd 0x100 0xFFFFF 0x100000105
     let s := copyHost c
     (getSeq s 0).cpy.queue = c :: [] ∧ copyMayStart s 0 c = true ∧ (getSeq s 0).cpy.running = [] ∧ copyKind c.op ≠ .query ∧ cpRec c = true ∧
       (windowOf (getSeq s 0)).1 ≤ (cpRaddr c : Int) ∧ ((cpRaddr c + 32 : Nat) : Int) ≤ (windowOf (getSeq s 0)).2 ∧
       begins (beginCopy (setSeq s 0 { getSeq s 0 with cpy := { (getSeq s 0).cpy with queue := [] } }) 0 0 (newRun c)) = 0) ∧
    (let c := copyCmd 0x10000 0xF0000 0x100000104
     let s := copyHost c
     copyMayStart s 0 c = true ∧ begins (beginCopy (setSeq s 0 { getSeq s 0 with cpy := { (getSeq s 0).cpy with queue := [] } }) 0 0 (newRun c)) = 1) ∧
    (let c := copyCmd 0 0xF0000 0x100000104
     let s := copyHost c
     copyMayStart s 0 c = true ∧ begins (beginCopy (setSeq s 0 { getSeq s 0 with cpy := { (getSeq s 0).cpy with queue := [] } }) 0 0 (newRun c)) = 2) := by
  refine ⟨?_, ?_, ?_⟩ <;> decide +kernel

/-- The same copy with its unit read, whose write has been woken. -/
def halfMoved : CopyRun := { moving with unit := some (0, [7], false) }

/-- Requests whose wait has ended: one whose command is gone, a copy's write and an atomic. -/
theorem witness_WokenRequests :
    (heldReq.seq < 512 ∧ wokenNext { host task with woken := [heldReq] } = some heldReq ∧ ∀ x ∈ task.cpy.running, x.cmd.serial ≠ heldReq.serial) ∧
    (let h : HeldRequest := { heldReq with write := true }
     let s := { host { task with cpy := { running := [halfMoved] } } with woken := [h] }
     wokenNext s = some h ∧ h.eng = 0 ∧ (getSeq s 0).cpy.running.find? (fun x => x.cmd.serial == h.serial) = some halfMoved ∧ halfMoved.begun = true ∧
       copyKind halfMoved.cmd.op = .plain ∧ halfMoved.convert = false ∧ halfMoved.wait = 5 ∧ halfMoved.unit = some (0, [7], false) ∧
       [(7 : Byte)].length = cpEsz halfMoved.cmd ∧
       destReach { s with woken := s.woken.erase h, dies := s.dies.map (fun p => (p.1, { p.2 with busy := false })) } 0 0 0 halfMoved .plain halfMoved.next =
         some ([(.place (placeP 0 0xFFFFF), cpEsz halfMoved.cmd)], 0) ∧ Memory.wf s.mem = true) ∧
    (let h : HeldRequest := { heldReq with write := true, eng := 1 }
     let r : NetRun := { atomicRun 0 with wait := 5 }
     let s := { host { task with net := { running := [r] } } with woken := [h] }
     wokenNext s = some h ∧ h.eng = 1 ∧ (getSeq s 0).net.running.find? (fun x => x.cmd.serial == h.serial) = some r ∧ r.ticket = none ∧ r.wait = 5 ∧
       reach { s with woken := s.woken.erase h, dies := s.dies.map (fun p => (p.1, { p.2 with busy := false })) } 0 0 r.fa 3 = .place (placeP 0 0x100) ∧
       spaceOf (placeP 0 0x100) ≠ 3 ∧ poisoned s (placeP 0 0x100) (atomicWidth r.cmd.op) = false ∧ Memory.wf s.mem = true) := by
  refine ⟨?_, ?_, ?_⟩ <;> decide +kernel

theorem witness_CopyEngineSteps :
    (let s := { host { task with cpy := { queue := [cmd (.cpyq 0 0 0 0 0)] } } with clock := 1 }
     (getSeq s 0).cpy.queue = cmd (.cpyq 0 0 0 0 0) :: [] ∧ copyMayStart s 0 (cmd (.cpyq 0 0 0 0 0)) = true) ∧
    (let s := host { task with net := { running := [atomicRun 0] } }
     wokenNext s = none ∧ (nextAccess s 0).isSome = true ∧ (getSeq s 0).cpy.running.find? (copyWaits s 0) = none ∧
       (getSeq s 0).net.running.find? (netWaits s 0) = some (atomicRun 0) ∧ (atomicRun 0).wait ≠ 2 ∧ (atomicRun 0).wait ≠ 4 ∧
       reach s 0 ((getSeq s 0).ctx.getD 16) (atomicRun 0).fa 3 = .place (placeP 0 0x100) ∧ spaceOf (placeP 0 0x100) ≠ 3) ∧
    (let s := host { task with cpy := { running := [moving] } }
     let r := moving
     wokenNext s = none ∧ (getSeq s 0).cpy.running.find? (copyWaits s 0) = some r ∧ r.begun = true ∧ copyKind r.cmd.op = .plain ∧
       r.convert = false ∧ r.wait = 5 ∧ r.unit = none ∧ spaceOf (placeP 0 0xFFFFF) ≠ 1 ∧
       (unitPieces r.src (sourceUnit r.src false (cpEsz r.cmd) r.next).1 (sourceUnit r.src false (cpEsz r.cmd) r.next).2.2.1).map
         (fun y => reachSpan s 0 ((getSeq s 0).ctx.getD 16) r r.src y 1) = [(.place (placeP 0 0x100), cpEsz r.cmd)] ∧
       ((fetchElement s 0 ((getSeq s 0).ctx.getD 16) .plain r).2.bind (fun x => destReach (fetchElement s 0 ((getSeq s 0).ctx.getD 16) .plain r).1 0
         ((getSeq s 0).ctx.getD 16) 0 x .plain r.next)) = some ([(.place (placeP 0 0xFFFFF), cpEsz r.cmd)], 0) ∧
       poisoned s (placeP 0 0x100) (cpEsz r.cmd) = false ∧ r.image = [] ∧ Memory.wf s.mem = true) ∧
    ((3 : Nat) < 4 ∧ (63 : Nat) < 64 ∧ ([(3, 63, 0, 0)] : List (Nat × Nat × Nat × Nat)).find? (fun r => r.1 == 3 && r.2.1 == 63) = some (3, 63, 0, 0)) ∧
    (let s := host { task with cpy := { running := [copied] } }
     (getSeq s 0).cpy.running.find? (fun r => decide (r.total ≤ r.next) && decide (r.ready ≤ s.clock)) = some copied ∧ cpRec copied.cmd = false ∧
       (copyHeader copied.cmd.op).rf = false ∧ (copyHeader copied.cmd.op).pe = true ∧ copied.status = 0 ∧
       (copyHeader copied.cmd.op).cf < (getSeq s 0).fInc.length) := by decide +kernel

/-- Whether `r` is the copy of `s` whose next unit is to be moved. -/
def movesNext (s : State) (r : CopyRun) : Bool :=
  decide (wokenNext s = none) && decide ((getSeq s 0).cpy.running.find? (copyWaits s 0) = some r) && r.begun && !r.convert && r.image.isEmpty && Memory.wf s.mem

/-- Whether its unit lies whole at place `p`, undamaged, and goes to place `d`. -/
def movesTo (s : State) (r : CopyRun) (p d : Nat) : Bool :=
  let k := copyKind r.cmd.op
  let w := cpEsz r.cmd
  let u := sourceUnit r.src false w (sourcePos s 0 k r.cmd r.next)
  let y := fetchElement s 0 0 k r
  movesNext s r && decide (r.wait = 5) && decide (r.unit = none) && decide ((unitPieces r.src u.1 u.2.2.1).map (fun z => reachSpan s 0 0 r r.src z 1) = [(.place p, w)]) &&
    !poisoned s p w && y.2.any (fun x => decide (destReach y.1 0 0 0 x k (destPos y.1 0 k r.cmd r.next) = some ([(.place d, w)], 0)))

/-- A copy like `moving` of another command, with staging words 0, 1, 2, 5 and 6, and sequencer 0 about to move its unit. -/
def movingOf (i : Instr) (a b w l e : Word) : CopyRun := { moving with cmd := { op := i, stage := [a, b, w, 1, 1, l, e, 0] } }
def movingHost (r : CopyRun) : State := host { task with cpy := { running := [r] } }

/-- The elements of CPYS and CPYG, and of CPYF; CPYT to a sequencer that runs a task and to one that runs none. -/
theorem witness_CopyElements :
    movesTo (movingHost (movingOf (.cpys 31 1 0 0 0) 0 0 0x100 0 0)) (movingOf (.cpys 31 1 0 0 0) 0 0 0x100 0 0) (placeP 0 0x100) (placeP 0 0xFFFFF) = true ∧
    (∀ k ∈ [0xFFFFC, 0x1FFFFC], let l : Word := BitVec.ofNat 64 k
      let r := movingOf (.cpyg 31 1 0 0 0) 0 0 0x100 l 0
      (l.getLsbD 20 = true ∨ movesTo (movingHost r) r (placeP 0 0x100) (placeP 0 0xFFFFF) = true) ∧ l.toNat % 4 = 0 ∧
        inWindow (getSeq (movingHost r) 0) (l.toNat % 2 ^ 20) 4 = true ∧ poisoned (movingHost r) (placeP 0 (l.toNat % 2 ^ 20)) 4 = false) ∧
    (let r := movingOf (.cpyf 31 1 0 0 0) 0 0 0x100 0 0
     movesNext (movingHost r) r = true ∧ destReach (movingHost r) 0 0 0 r .filled (destPos (movingHost r) 0 .filled r.cmd r.next) = some ([(.place (placeP 0 0xFFFFF), 1)], 0)) ∧
    (let r := { movingOf (.cpyt 31 1 0 0 0) 0 0 0x104 0x30000 0 with unit := some (0, [7], false) }
     let s := movingHost r
     movesNext s r = true ∧ destList 0 .targets r.cmd = [0, 1] ∧ cpEsz r.cmd = 1 ∧
       destReach s 0 0 0 r .targets (destPos s 0 .targets r.cmd r.next) = some ([(.place (placeP 0 0xFFFFF), 1)], 0) ∧
       destReach s 0 0 1 r .targets (destPos s 0 .targets r.cmd r.next) = some ([(.refused, 1)], 0) ∧
       (placeP 0 0xFFFFF + 1 ≤ placeP 1 0xFFFFF ∨ placeP 1 0xFFFFF + 1 ≤ placeP 0 0xFFFFF)) := by
  refine ⟨?_, ?_, ?_, ?_⟩ <;> decide +kernel

/-- Blocks that fit and that do not, tokens of each kind at the ends of their ranges, and a CPYX about to compress a block or to expand one. -/
theorem witness_CopyBlocks :
    ((compressBlock 64 [5] false).isSome = true ∧ compressBlock 64 ((List.range 61).map (BitVec.ofNat 8 ·)) false = none ∧
      61 - 1 ≤ (compressGo 62 none ((List.range 61).map (BitVec.ofNat 8 ·))).length ∧ (4160 : Nat) ≤ 4160 ∧ (4096 : Nat) ≤ 4096 ∧ ¬ (4096 : Nat) < 4096) ∧
    ((0x7F#8).toNat < 0x80 ∧ (0x7F#8).toNat < (List.replicate 128 (0#8)).length ∧ ([] : List Byte).length + (0x7F#8).toNat < 128) ∧
    (0x80 ≤ (0x80#8).toNat ∧ (0xBF#8).toNat < 0xC0 ∧ ([] : List Byte).length + ((0xBF#8).toNat - 0x7F) ≤ 64) ∧
    (0xC0 ≤ (0xC0#8).toNat ∧ [(1 : Byte)] ≠ [] ∧ [(1 : Byte)].length + ((0xFF#8).toNat - 0xBF) ≤ 65) ∧
    (let r := movingOf (.cpyx 31 1 0 0 0) 0 0 0x105 5 0
     let r := { r with dst := { r.dst with addr := 0xFFF80 } }
     let s := movingHost r
     movesNext s r = true ∧ r.wait = 5 ∧ copyKind r.cmd.op = .blocks ∧ r.src.space = 1 ∧ r.dst.space = 1 ∧ cpxPB r.cmd = 128 ∧ cpxCompress r.cmd = true ∧
       r.src.addr + 4096 ≤ r.src.hi ∧ poisoned s (placeP 0 0x100) 4096 = false ∧ (compressBlock 128 (readBytes s (placeP 0 0x100) 4096) false).isSome = true ∧
       r.dst.addr + 128 ≤ r.dst.hi) ∧
    (let r := movingOf (.cpyx 31 1 0 0 0) 0 0 0x105 2 0
     let s := writeBytes (movingHost r) (placeP 0 0x100) ((compressBlock 64 [5] false).getD [])
     movesNext s r = true ∧ cpxCompress r.cmd = false ∧ cpN0 r.cmd = 1 ∧ expandBlock 64 true (readBytes s (placeP 0 0x100) 64) = { out := [5], plen := 1 } ∧
       r.dst.addr + 1 ≤ r.dst.hi) := by
  refine ⟨?_, ?_, ?_, ?_, ?_, ?_⟩ <;> decide +kernel

/-- A row from P to W and one from W to P; a query of each mode; a record at the last place of P. -/
theorem witness_CopyRowsAndRecords :
    (∀ b ∈ [0x0240000, 0x0260000], let r := { movingOf (.cpyw 31 1 0 0 0) 0xFF800 (BitVec.ofNat 64 b) 0x101 0 0 with total := 1 }
     let s := movingHost r
     movesNext s r = true ∧ copyKind r.cmd.op = .rows ∧ cpwSites r.cmd = [0, 3] ∧ (getSite s (siteOf 0 0)).retired = false ∧ r.src.lo ≤ 0xFF800 ∧
       (0xFF800 : Int) + 2048 ≤ r.src.hi ∧ poisoned s (if cpwReads r.cmd then placeW 0 0 else placeP 0 0xFF800) 2048 = false) ∧
    (∀ a ∈ [0x0FFFE0, 0x2FFFE0, 0x1FFFC0, 0x3FFFC0], let c : Command := { op := .cpyq 31 1 0 0 0, stage := [BitVec.ofNat 64 a, 0, 0, 0, 0, 0, 0, 0] }
     let s := { host { task with cpy := { queue := [c] } } with clock := 1 }
     copyMayStart s 0 c = true ∧ anyBit (cpOf c 0) 22 42 = false ∧ (copyHeader c.op).rf = false ∧ Memory.wf s.mem = true ∧
       (cpOf c 0).toNat % 2 ^ 20 / 64 * 64 + 64 ≤ (getSeq s 0).sr.winBase.toNat + (getSeq s 0).sr.winSize.toNat) ∧
    (let r := { movingOf (.cpy 31 1 0 0 0) 0 0 0x100 0 0x1FFFE0 with next := 1 }
     let s := movingHost r
     (getSeq s 0).cpy.running.find? (fun r => decide (r.total ≤ r.next) && decide (r.ready ≤ s.clock)) = some r ∧ cpRec r.cmd = true ∧ copyKind r.cmd.op ≠ .query ∧
       Memory.wf s.mem = true ∧ (copyHeader r.cmd.op).rf = false ∧ (cpOf r.cmd 6).toNat % 2 ^ 20 / 32 * 32 = 0xFFFE0) := by
  refine ⟨?_, ?_, ?_⟩ <;> decide +kernel

def flagPost : FlagPost := { fabric := 5 * 2 ^ 45 + 4 * 31, inc := 3, seq := 0, ctx := 0 }

theorem witness_NetworkEngineSteps :
    (let c := cmd (.fpost 0 0 0 0)
     let s := { host { task with net := { queue := [c] } } with clock := 1 }
     netHead (getSeq s 0) = some c ∧ netMayStart s.clock (getSeq s 0) c = true) ∧
    (let s := host { task with net := { running := [atomicRun 1] } }
     (getSeq s 0).net.running.find? (fun r => r.phase == 1 && decide (r.ready ≤ s.clock) && !ticketWaits s r) = some (atomicRun 1) ∧
       poisoned s (atomicRun 1).place (atomicWidth (atomicRun 1).cmd.op) = false ∧ Memory.wf s.mem = true ∧
       atomicNew (atomicRun 1).cmd 8 (readNat s (atomicRun 1).place 8) = some 5) ∧
    (let s := { host task with posts := [flagPost] }
     s.posts.find? (postMayArrive s 0) = some flagPost ∧ faClass flagPost.fabric = 5 ∧
       reach s flagPost.seq flagPost.ctx flagPost.fabric 2 = .flag 0 31 ∧ (31 : Nat) < (getSeq s 0).fInc.length) ∧
    (let r : NetRun := { atomicRun 2 with cmd := { (atomicRun 2).cmd with op := .namo 31 1 0 0 0 1 } }
     let s := host { task with net := { running := [r] } }
     (getSeq s 0).net.running.find? (netMayComplete s (getSeq s 0)) = some r ∧ netHeader r.cmd.op = (31, true) ∧ 31 < (getSeq s 0).fInc.length) := by decide +kernel

/-- Context 0 with a pager of sequencer 0 whose requests are `w`, tables of eight rows, one frame of staithe memory and group 3 of sequencer 0. -/
def pagedCtx (w : List HeldRequest) : Ctx :=
  { life := 1, seqs := List.range 16, areas := [{ die := 0, site := 0, first := 0, count := 8, installed := true }], grants := [{ cls := 1, a0 := 0x10001, a1 := 0, a2 := 0 }],
    pagers := [{ first := 2 ^ 45, pages := 32, seq := 0, ring := 0, slots := 16, flag := 0, waits := w }],
    groups := [(3, { op := 0, mode := 1, fmt := 0, ew := 0, members := [0] })] }
/-- Sequencer 0 whose one network command is of `i` with staging words 0 to 2; bytes from address 0x100 of P, requests at the pager. -/
def netCmd (i : Instr) (a b c : Word) : Command := { op := i, stage := [a, b, c, 0, 0, 0, 0, 0] }
def netHost (c : Command) (l : List Byte) (w : List HeldRequest) : State :=
  writeBytes { host { task with net := { queue := [c] }, ranges := BitVec.ofNat 128 (0x1020F + 2 ^ 64 * (4 * 2 ^ 45 + 128 * 2 ^ 21)) :: List.replicate 7 0 } with
    clock := 1, ctxs := [(0, pagedCtx w)] } (placeP 0 0x100) l
/-- Whether that command may start. -/
def netStarts (s : State) (c : Command) : Bool :=
  decide (netHead (getSeq s 0) = some c) && netMayStart s.clock (getSeq s 0) c && !npRec c && decide ((getSeq s 0).ctx = some 0)

def isStatus {α : Type} (k : Nat) : Except Nat α → Bool
  | .error e => e == k
  | _ => false
def isTableStatus (k : Nat) : Except (Nat × Nat) LodeTable → Bool
  | .error e => e.1 == k
  | _ => false
/-- Words of a lode table: a period of 256 and the given entries. -/
def tableBytes (l : List (List Byte)) : List Byte := leBytes 8 (256 + 512 * l.length) ++ l.flatten
/-- A group descriptor of number 63 with the given members. -/
def groupBytes (l : List Nat) : List Byte := leBytes 16 (63 + 2 ^ 10 + 2 ^ 32 * l.length) ++ l.flatMap (fun j => leBytes 2 j)

/-- LSCHED of a good table, of one with two entries that clash, and from a misaligned address; GDEF of a good group, of one with a member outside
the context, of one with a member twice; GLD with refused staging, of no group, of one that OUT does not fit, and one that reads. -/
theorem witness_NetworkStarts :
    (let w : List (List Byte) := [[255, 0, 1, 0, 1, 0, 0, 0], [255, 15, 1, 0, 2, 0, 0, 0]]
     let c := netCmd (.lsched 31 1) 0x100 0 0
     let s := netHost c (tableBytes w) []
     netStarts s c = true ∧ (readTable (netTaken s 0) 0 c).toOption.isSome = true ∧ readNat s (placeP 0 0x100) 8 = 256 + 1024 ∧ ownInside (getSeq s 0) 0x100 24 = true ∧
       (∀ j, j < 16 → 0 / 16 * 16 + j ∈ (pagedCtx []).seqs) ∧ poisoned s (placeP 0 0x100) 24 = false ∧
       (∀ i, i < 2 → let x := readNat s (placeP 0 (0x100 + 8 + 8 * i)) 8
         x % 256 < 256 ∧ x / 2 ^ 12 % 16 = 0 ∧ x / 2 ^ 16 % 2 ^ 16 ≠ 0 ∧ x / 2 ^ 32 % 256 ≠ 0 ∧ x / 2 ^ 40 = 0)) ∧
    (let c := netCmd (.lsched 31 1) 0x100 0 0
     isTableStatus 5 (readTable (netTaken (netHost c (tableBytes [[3, 0, 1, 0, 1, 0, 0, 0], [3, 0, 1, 0, 2, 0, 0, 0]]) []) 0) 0 c) = true ∧
     isTableStatus 5 (readTable (netTaken (netHost c (tableBytes [[3, 0, 1, 0, 1, 0, 0, 0], [3, 1, 1, 0, 3, 0, 0, 0]]) []) 0) 0 c) = true ∧
     isTableStatus 1 (readTable (netTaken (netHost (netCmd (.lsched 31 1) 0x104 0 0) [] []) 0) 0 (netCmd (.lsched 31 1) 0x104 0 0)) = true) ∧
    (let c := netCmd (.gdef 31 1) 0x100 0 0
     let s := netHost c (groupBytes [15]) []
     netStarts s c = true ∧ (readGroup (netTaken s 0) 0 c).toOption.isSome = true ∧ ownInside (getSeq s 0) 0x100 18 = true ∧ poisoned s (placeP 0 0x100) 18 = false ∧
       readNat s (placeP 0 0x100) 16 = 63 + 2 ^ 10 + 2 ^ 32 ∧ readNat s (placeP 0 0x110) 2 = 15 ∧ 15 ∈ (pagedCtx []).seqs ∧ 16 ∉ (pagedCtx []).seqs ∧
       isStatus 6 (readGroup (netTaken (netHost c (groupBytes [16]) []) 0) 0 c) = true ∧
       isStatus 7 (readGroup (netTaken (netHost c (groupBytes [15, 15]) []) 0) 0 c) = true) ∧
    (gldBad (netCmd (.gld 31 1 3) 1 0 0) = true ∧ netStarts (netHost (netCmd (.gld 31 1 3) 1 0 0) [] []) (netCmd (.gld 31 1 3) 1 0 0) = true ∧
      gldBad (netCmd (.gld 31 1 63) 0 0 0) = false ∧ tfind (pagedCtx []).groups 63 = none ∧
      (∀ g ∈ tfind (pagedCtx []).groups 3, gldUnfit task g (netCmd (.gld 31 1 3) 0 0x40 0) = true ∧ gldUnfit task g (netCmd (.gld 31 1 3) 0 47 0) = false) ∧
      gldBad (netCmd (.gld 31 1 3) 0 47 0) = false ∧ gldBad (netCmd (.gld 31 1 3) 0 0x40 0) = false ∧ (tfind (pagedCtx []).groups 3).isSome = true) := by
  refine ⟨?_, ?_, ?_, ?_⟩ <;> decide +kernel

/-- FPOST with a bad and a good operand; NAMO inside and outside every range; PGMAP outside the pager's region, with a bad operand, and at both
levels with an entry that is refused and one that is not; PGDONE so, with each response. -/
theorem witness_NetworkAccesses :
    (let bad (c : Command) : Bool := npBad c || anyBit (npOf c 0) 56 8 || anyBit (npOf c 1) 16 48
     bad (netCmd (.fpost 31 1 2 5) (BitVec.ofNat 64 (5 * 2 ^ 45)) 0x10000 0) = true ∧ bad (netCmd (.fpost 31 1 2 5) (BitVec.ofNat 64 (5 * 2 ^ 45)) 0xFFFF 0) = false) ∧
    (let c := netCmd (.namo 31 1 0 0 0 1) 0x10000 5 0
     let s := netHost c [] []
     netStarts s c = true ∧ npBad c = false ∧ (npOf c 0).toNat % atomicWidth c.op = 0 ∧ (rangeOf (getSeq s 0) (npOf c 0).toNat 8 3).isSome = true ∧ rangeOf (getSeq s 0) 8 8 3 = none) ∧
    (let bad (c : Command) : Bool := npBad c || anyBit (npOf c 0) 56 8 || anyBit (npOf c 2) 1 63 || (npOf c 0).toNat % 2 ^ 56 % 2 ^ levelShift ((npOf c 2).toNat % 2) != 0
     let c (e l : Word) : Command := netCmd (.pgmap 31 1) (BitVec.ofNat 64 (2 ^ 45)) e l
     let s (e l : Word) : State := writeBytes (writeBytes (writeBytes (netHost (c e l) [] []) (placeW 0 0 + 128) [1, 0, 16]) (placeW 0 4096) [1, 0, 32]) (placeW 0 8192) [1, 0, 48]
     let ok (e l : Word) : Bool := entryOk (netTaken (s e l) 0) (pagedCtx []) (2 ^ 45) (l.toNat % 2) e && !(l.toNat % 2 == 1 && entV e && !entLeaf e) &&
       !(entMig e && !(entV e && (l.toNat % 2 == 0 || false)))
     netStarts (s 0x31 0) (c 0x31 0) = true ∧ servesPage (s 0 0) 0 (2 ^ 45) (2 ^ 21) = true ∧ servesPage (s 0 0) 0 (2 ^ 45 + 2 ^ 21) (2 ^ 16) = false ∧
       bad (c 0 2) = true ∧ bad (c 0x31 0) = false ∧ bad (c 0 1) = false ∧ dieStopped (s 0 0) (homeDie (2 ^ 45)) = false ∧
       (installPlace (netTaken (s 0x31 0) 0) (pagedCtx []) (2 ^ 45) 0).toOption = some (placeW 0 12288) ∧
       (installPlace (netTaken (s 0 1) 0) (pagedCtx []) (2 ^ 45) 1).toOption = some (placeW 0 8192) ∧
       oldDamaged (netTaken (s 0x31 0) 0) 0x31 (placeW 0 12288) = false ∧ ok 0x31 0 = true ∧ ok 0 1 = true ∧ ok 0x33 0 = false ∧ ok 1 1 = false ∧ Memory.wf (s 0x31 0).mem = true) ∧
    (let bad (c : Command) : Bool := npBad c || anyBit (npOf c 0) 56 8 || anyBit (npOf c 1) 1 63 || (npOf c 0).toNat % 2 ^ 56 % 65536 != 0
     let w : List HeldRequest := [{ heldReq with page := 2 ^ 45, eng := 0, serial := 7 }, { heldReq with page := 2 ^ 45, eng := 1, serial := 8 }]
     (∀ e ∈ [0, 1], let c := netCmd (.pgdone 31 1) (BitVec.ofNat 64 (2 ^ 45)) (BitVec.ofNat 64 e) 0
      let s := netHost c [] w
      netStarts s c = true ∧ bad c = false ∧ servesPage s 0 (2 ^ 45) 1 = true ∧ (regionOf (pagedCtx w) (2 ^ 45)).isSome = true ∧ ∀ h ∈ w, h.page = 2 ^ 45 ∧ h.serial ≠ c.serial) ∧
      bad (netCmd (.pgdone 31 1) (BitVec.ofNat 64 (2 ^ 45)) 2 0) = true ∧ servesPage (netHost (netCmd (.pgdone 31 1) 0 0 0) [] w) 0 (2 ^ 45 + 2 ^ 21) 1 = false) := by
  refine ⟨?_, ?_, ?_, ?_⟩ <;> decide +kernel

/-- NCAS at its start: with a bad operand, a misaligned address, a ticket, none, and outside every range. An NCAS at its place that finds its
compare value, and one that does not. -/
theorem witness_CompareAndSwap :
    (let c := { netCmd (.ncas 31 1 0 0 1 1) 0x10000 5 6 with stage := [0x10000, 5, 6, 0, 0, 0, 0, 0x200000] }
     netStarts (netHost c [] []) c = true ∧ npBad c = true) ∧
    (∀ c ∈ [netCmd (.ncas 31 1 4 3 1 1) 0x10000 5 6, netCmd (.ncas 31 1 0 0 0 0) 0x10004 5 6], let s := netHost c [] []
     netStarts s c = true ∧ npBad c = false ∧ (npOf c 0).toNat % atomicWidth c.op = 0 ∧ (rangeOf (getSeq s 0) (npOf c 0).toNat (atomicWidth c.op) 3).isSome = true) ∧
    (let c := netCmd (.ncas 31 1 0 0 1 1) 0x10004 5 6
     netStarts (netHost c [] []) c = true ∧ (npOf c 0).toNat % atomicWidth c.op ≠ 0) ∧
    (let c := netCmd (.ncas 31 1 0 0 1 1) 8 5 6
     netStarts (netHost c [] []) c = true ∧ rangeOf (getSeq (netHost c [] []) 0) (npOf c 0).toNat (atomicWidth c.op) 3 = none) ∧
    (∀ k ∈ [0, 5], let r : NetRun := { atomicRun 1 with cmd := { op := .ncas 0 0 0 0 0 1, stage := [pAddr, BitVec.ofNat 64 k, 6, 0, 0, 0, 0, 0] } }
     let s := host { task with net := { running := [r] } }
     (getSeq s 0).net.running.find? (fun r => r.phase == 1 && decide (r.ready ≤ s.clock) && !ticketWaits s r) = some r ∧ poisoned s r.place (atomicWidth r.cmd.op) = false ∧
       Memory.wf s.mem = true ∧ (readNat s r.place (atomicWidth r.cmd.op) = (npOf r.cmd 1).toNat % 2 ^ (8 * atomicWidth r.cmd.op) ↔ k = 0)) := by
  refine ⟨?_, ?_, ?_, ?_, ?_⟩ <;> decide +kernel

/-- PGMAP and PGDONE of a page of die 1: over a failed bridge, at a die in reset, and over links in service. -/
theorem witness_PagesOfOtherDies :
    let page : Nat := 2 ^ 45 + 2 ^ 43
    let x : Ctx := { life := 1, seqs := [0], pagers := [{ first := page, pages := 32, seq := 0, ring := 0, slots := 16, flag := 0 }] }
    let s (c : Command) : State := { netHost c [] [] with ctxs := [(0, x)] }
    ∀ c ∈ [netCmd (.pgmap 31 1) (BitVec.ofNat 64 page) 0x31 0, netCmd (.pgdone 31 1) (BitVec.ofNat 64 page) 0 0],
      (netStarts (s c) c = true ∧ servesPage (s c) 0 page (2 ^ 16) = true ∧ servesPage (s c) 0 page 1 = true) ∧
      (linkFailed (s c) 0 page = false ∧ dieStopped (s c) (homeDie page) = false ∧ dieStopped (s c) (controllerDie page) = false) ∧
      linkFailed { s c with links := [(4, { st := 4 })] } 0 page = true ∧
      (dieStopped { s c with dies := [(1, { st := 2 })] } (homeDie page) = true ∧ dieStopped { s c with dies := [(1, { st := 6 })] } (controllerDie page) = true) := by
  decide +kernel

/-- A group load that lands, its leaves, and a post whose address no flag has. -/
theorem witness_NetworkLandings :
    (let r : NetRun := { cmd := netCmd (.gld 31 1 3) 0 47 0, phase := 2, group := some { op := 0, mode := 1, fmt := 0, ew := 0, members := [0] } }
     let s := host { task with net := { running := [r] } }
     (getSeq s 0).net.running.find? (netMayComplete s (getSeq s 0)) = some r ∧ r.group.isSome = true ∧ gldVd r.cmd < 48 ∧ (getSeq s 0).v.length = 48) ∧
    (at' [Leaf.code 5 0] 0 .absent = .code 5 0 ∧ at' [Leaf.damaged] 0 .absent ≠ .code 5 0 ∧ (255 : Nat) < 256) ∧
    (let p : FlagPost := { flagPost with fabric := 4 * 2 ^ 45, netOf := some 9 }
     let s := { host task with posts := [p] }
     s.posts.find? (postMayArrive s 0) = some p ∧ p.netOf = some 9 ∧ p.copyOf = none ∧ faClass p.fabric ≠ 5 ∧ faPackage p.fabric = Config.ownPackage) := by
  refine ⟨?_, ?_, ?_⟩ <;> decide +kernel

/-! ## Witnesses: queues, contexts, dies -/

/-- Byte 0 of host memory. -/
def hostAddr : Nat := 3 * 2 ^ 45
/-- Queue 63 of two slots in host memory, for context 0; `x` is its fields beside. -/
def enabled (x : LQueue) : LQueue := { x with base := BitVec.ofNat 64 hostAddr, cfg := 0x801 }
/-- The package, its cores measured and running, with queue 63 so, its packet the given bytes and then zeros, and an image in context 0. -/
def queued (x : LQueue) (p : List Byte) : State :=
  writeBytes { host {} with mgmt := { booted := 8 }, queues := [(63, enabled x)], ctxs := [(0, { life := 1, seqs := [0], images := [img] })] } (placeHost 0) p

/-- A pinned launch of one tile; the same of an image that is not registered; a barrier; a signal-set. -/
def launchBytes : List Byte := [1, 3, 1, 0, 0, 0, 0, 0, 1, 0, 1, 0, 1]
def badLaunch : List Byte := [1, 3, 2, 0, 0, 0, 0, 0, 1, 0, 1, 0, 1]
def barrierBytes : List Byte := [2, 1]
/-- A barrier whose completion decrements the signal at byte 0x1000 of host memory. -/
def barrierSignal : List Byte := [2, 1] ++ List.replicate 38 0 ++ [0, 0x10, 0, 0, 0, 0x60, 0]
def signalBytes : List Byte := [3, 1, 0, 0, 0, 0, 0, 0, 0, 0x10, 0, 0, 0, 0x60]

theorem witness_QueueRegisterSteps :
    (let s := { host task with queues := [(63, { base := BitVec.ofNat 64 hostAddr, cfg := 1 })] }
     qEn (getQueue s 63) = false ∧ mayEnable s (getQueue s 63) = true ∧ s.mgmt.bootWaits = false) ∧
    mayEnable (host task) (getQueue (host task) 0) = false ∧ qEn (getQueue (queued {} []) 63) = true ∧
    (getQueue (queued { state := 2 } []) 63).state = 2 ∧ State.reset.lock = false ∧ (host task).lock = true ∧
    ((2 ^ 64 - 1 : Nat) < 2 ^ 64 ∧ State.reset.mgmt.bootWaits = false) ∧ (getQueue (queued { disabling := true } []) 63).disabling = true ∧
    (let s := queued { state := 1 } launchBytes
     let s1 := setQueue s 63 { getQueue s 63 with lastPoll := s.clock + 1 }
     qEn (getQueue s 63) = true ∧ (getQueue s 63).disabling = false ∧ (getQueue s 63).enabling = false ∧ (getQueue s 63).state = 1 ∧
     (getQueue s 63).lateFails = [] ∧ s.mgmt.bootWaits = false ∧ (getQueue s 63).consuming = none ∧ frontRuns s = true ∧
     coreRead s1 63 (qCtx (getQueue s 63)) (slotAddr (getQueue s 63)) 2 = .bytes [1, 3] ∧ leNat [1, 3] / 256 % 2 = 1 ∧
     packetOf (coreNote s1 63 (qCtx (getQueue s 63)) (slotAddr (getQueue s 63)) 2) 63 = .bytes (launchBytes ++ List.replicate 51 0)) ∧
    (let s := queued { state := 1, lateFails := [(0x05, 40, 0)] } launchBytes
     qEn (getQueue s 63) = true ∧ (getQueue s 63).disabling = false ∧ (getQueue s 63).enabling = false ∧ (getQueue s 63).state = 1 ∧
       (getQueue s 63).lateFails = (0x05, 40, 0) :: [] ∧ (getQueue s 63).consuming = none ∧ frontRuns s = true) := by decide +kernel

/-- A grant of one 64 KiB frame of staithe slice 0, and a table area of four rows at site 0. -/
def grant : Grant := { cls := 1, a0 := 0x10001, a1 := 0, a2 := 0 }
def tables : TableArea := { die := 0, site := 0, first := 0, count := 4 }

theorem witness_PacketSteps :
    (∀ k ∈ [1, 2, 3], (getQueue (queued { polled := some k } []) 63).polled = some k) ∧
    (let s := queued { polled := some 1 } badLaunch
     let s1 := setQueue s 63 { getQueue s 63 with polled := none }
     let p := badLaunch ++ List.replicate 51 0
     packetOf s 63 = .bytes p ∧ launchFailures s1 0 p (checkTable s1 63 0 p).1 ≠ []) ∧
    (let s := queued { polled := some 1 } launchBytes
     let s1 := setQueue s 63 { getQueue s 63 with polled := none }
     let p := launchBytes ++ List.replicate 51 0
     packetOf s 63 = .bytes p ∧ qCtx (getQueue s 63) = 0 ∧ launchFailures s1 0 p (checkTable s1 63 0 p).1 = [] ∧ (checkTable s1 63 0 p).2 = true ∧
       readDep (noteReads s1 63 0 (tableReads p)) 63 0 (pk p 32 8) = .ready ∧ (getCtx s 0).isSome = true ∧ pk p 32 8 = 0) ∧
    (let s := queued { polled := some 2 } barrierBytes
     let s1 := setQueue s 63 { getQueue s 63 with polled := none }
     let p := barrierBytes ++ List.replicate 62 0
     packetOf s 63 = .bytes p ∧ (getQueue s 63).depOk = [] ∧ barrierFailures p = [] ∧ pk p 40 8 = 0 ∧ ∀ i ∈ [8, 16, 24, 32], readDep s1 63 0 (pk p i 8) = .ready) ∧
    (let s := queued { polled := some 2 } barrierSignal
     let p := barrierSignal ++ List.replicate 17 0
     packetOf s 63 = .bytes p ∧ barrierFailures p = [] ∧ pk p 40 8 ≠ 0) ∧
    (let s := queued { polled := some 3 } signalBytes
     let p := signalBytes ++ List.replicate 50 0
     packetOf s 63 = .bytes p ∧ signalSetFailures p = []) := by
  refine ⟨?_, ?_, ?_, ?_, ?_, ?_⟩ <;> decide +kernel

/-- A launch whose range table lies in a page that waits at its pager, and whose completion signal is misaligned. -/
def waitingLaunch : List Byte := [1, 3, 1, 0, 0, 0, 1, 0, 1, 0, 1, 0, 1, 0, 0, 0, 0, 0, 0, 0, 0, 0x20, 0, 0, 1]
/-- A barrier with two DEPs in host memory, at bytes 0x1000 and 0x2000. -/
def barrierDeps : List Byte := [2, 1, 0, 0, 0, 0, 0, 0, 0, 0x10, 0, 0, 0, 0x60, 0, 0, 0, 0x20, 0, 0, 0, 0x60]

/-- A failure past the range table while the table cannot be read; DEPs that are met, that wait, and that are damaged, and one met before. -/
theorem witness_PacketsThatWait :
    (let x : Ctx := { life := 1, seqs := [0], images := [img], areas := [{ tables with installed := true }],
                      pagers := [{ first := 2 ^ 45, pages := 1, seq := 0, ring := 0, slots := 16, flag := 0 }] }
     let s := writeBytes { queued { polled := some 1 } waitingLaunch with ctxs := [(0, x)] } (placeW 0 0 + 128) [4]
     let s1 := setQueue s 63 { getQueue s 63 with polled := none }
     let p := waitingLaunch ++ List.replicate 39 0
     packetOf s 63 = .bytes p ∧ (checkTable s1 63 0 p).2 = false ∧ (launchFailures s1 0 p (checkTable s1 63 0 p).1).head? = some (24, 4)) ∧
    (∀ v ∈ [0, 1], let s := writeBytes (queued { polled := some 2 } barrierDeps) (placeHost 0x2000) [BitVec.ofNat 8 v]
     let s1 := setQueue s 63 { getQueue s 63 with polled := none }
     let p := barrierDeps ++ List.replicate 42 0
     packetOf s 63 = .bytes p ∧ barrierFailures p = [] ∧ (getQueue s 63).depOk = [] ∧ readDep s1 63 0 (hostAddr + 0x1000) = .ready ∧
       readDep s1 63 0 (hostAddr + 0x2000) = (if v = 0 then .ready else .notYet) ∧ pk p 8 8 = hostAddr + 0x1000 ∧ pk p 16 8 = hostAddr + 0x2000) ∧
    (let s := { queued { polled := some 2, depOk := [hostAddr + 0x1000] } barrierDeps with poison := [placeHost 0x2000 / 8] }
     let s1 := setQueue s 63 { getQueue s 63 with polled := none }
     packetOf s 63 = .bytes (barrierDeps ++ List.replicate 42 0) ∧ (getQueue s 63).depOk.contains (hostAddr + 0x1000) = true ∧
       (getQueue s 63).depOk.contains (hostAddr + 0x2000) = false ∧ readDep s1 63 0 (hostAddr + 0x2000) = .bad 9) := by
  refine ⟨?_, ?_, ?_⟩ <;> decide +kernel

/-- A packet in a page of context 0's staithe memory that migrates: the first entry of class 1's root, at byte 128 of the table area, is a leaf with V,
MIG, RD and WR set. -/
def movingPage : Nat := 2 ^ 45
def movingQueue : State :=
  let x : Ctx := { life := 1, seqs := [0], areas := [{ tables with installed := true }], grants := [grant] }
  let s : State := { host {} with queues := [(63, { enabled { polled := some 1 } with base := BitVec.ofNat 64 movingPage })], ctxs := [(0, x)], mgmt := { booted := 8 } }
  writeBytes (writeBytes s (placeW 0 0 + 128) [0x3B]) (placeS 0 0) [1, 1]

/-- The consumption of a packet, with its read index at byte 0x2000 of host memory, and of one on a migrating page; the changes of a signal. -/
theorem witness_PacketConsumption :
    (let s := queued { polled := some 3, ridx := BitVec.ofNat 64 (hostAddr + 0x2000) } signalBytes
     let x := getQueue s 63
     let w := writeBytes (countReach (setQueue s 63 { x with polled := none }) hub 0 (slotAddr x) (.place (placeHost 0))) (placeHost 0) (leBytes 2 3)
     reach s hub 0 (slotAddr x) 1 = .place (placeHost 0) ∧ reach s hub 0 (slotAddr x) 2 = .place (placeHost 0) ∧ poisoned s (placeHost 0) 2 = false ∧
       readNat s (placeHost 0) 2 = 0x103 ∧
       reach (setQueue w 63 { x with index := 1, polled := none, depOk := [], consuming := none }) hub 0 x.ridx.toNat 2 = .place (placeHost 0x2000)) ∧
    (let s := movingQueue
     coreRead s 63 0 (slotAddr (getQueue s 63)) 2 = .bytes (leBytes 2 0x101) ∧ reach s hub 0 (slotAddr (getQueue s 63)) 2 = .migrates movingPage) ∧
    (let s := queued {} []
     let fa := hostAddr + 0x1000
     signalClass fa = true ∧ reach s hub 0 fa 2 = .place (placeHost 0x1000) ∧ reach s hub 0 fa 3 = .place (placeHost 0x1000) ∧
       poisoned s (placeHost 0x1000) 8 = false ∧ Memory.wf s.mem = true ∧ ({ queue := 63, byte := 8, index := 0, dec := false } : SignalRef).dec = false) ∧
    (let l : Launch := { lnch with unplaced := [] }
     let s := launched task l
     s.launches.find? (fun x => x.id == l.id) = some l ∧ reportable s l = true ∧ l.sig = 0) ∧
    (let l : Launch := { lnch with unplaced := [], sig := hostAddr + 8 }
     let s := launched task l
     s.launches.find? (fun x => x.id == l.id) = some l ∧ reportable s l = true ∧ l.sig ≠ 0) := by
  refine ⟨?_, ?_, ?_, ?_, ?_⟩ <;> decide +kernel

theorem witness_TaskSteps :
    (let s := { launched {} lnch with bundle := none, mgmt := { booted := 8 } }
     let l : Launch := { lnch with unplaced := [], running := 1 }
     tileDue s 0 = some (0, 0, l) ∧ (getCtx s l.ctx).bind (fun x => x.images.find? (fun i => i.handle == l.handle)) = some img ∧
       (launchRanges s 0 l).toOption = some l.ranges ∧ tableRefused s l.ranges = false ∧ dieRuns s 3 = true) ∧
    (let s := { launched {} { lnch with ranges := [0xF] } with mgmt := { booted := 8 } }
     let l : Launch := { lnch with ranges := [0xF], unplaced := [], running := 1 }
     tileDue s 0 = some (0, 0, l) ∧ (launchRanges s 0 l).toOption = some [0xF] ∧ tableRefused s [0xF] = true) ∧
    (let f : SegFetch := ⟨63, 64, 1, 2 ^ 45, 0, []⟩
     let s := host { task with segFetch := [f] }
     (getSeq s 0).segFetch.find? (fun f => f.left == 0) = some f ∧ (fetchSegment s 0 f).toOption.isSome = true ∧ f.seg < 64) ∧
    (let f : SegFetch := ⟨63, 64, 1, 2 ^ 45, 0, []⟩
     let p : Pager := { first := 2 ^ 45, pages := 1, seq := 1, ring := 0, slots := 16, flag := 0, waits := [{ seq := 2, eng := 1, write := false, serial := 5, page := 2 ^ 45 }] }
     let x : Ctx := { life := 1, seqs := [0], pagers := [p], areas := [tables] }
     let s := writeBytes { host { task with segFetch := [f] } with ctxs := [(0, x)] } (placeW 0 0 + 128) [4]
     (match fetchSegment s 0 f with
      | .error (some q) => q
      | _ => 0) = 2 ^ 45 ∧ (getSeq s 0).ctx = some 0 ∧ regionOf x (2 ^ 45) = some p ∧ p.waits.any (fun w => w.page == 2 ^ 45) = true ∧
       p.waits.contains (segRequest 0 f (2 ^ 45)) = false) ∧
    (let s := host { task with sr := { task.sr with wdog := 16 }, stallCount := 65536 }
     (getSeq s 0).status = .running ∧ 2 ^ (getSeq s 0).sr.wdog.toNat ≤ (getSeq s 0).stallCount) ∧
    (let s := host { task with status := .ending }
     (getSeq s 0).status = .ending ∧ enginesIdle s 0 = true) := by
  refine ⟨?_, ?_, ?_, ?_, ?_, ?_⟩ <;> decide +kernel

/-- A mailbox command for context 15, which is `x`, with its arguments. -/
def mailboxOf (x : Ctx) (w a0 a1 a2 : Word) : State :=
  { host task with ctxs := [(0, { life := 1 }), (15, x)], cmcmd := some w, cmarg0 := a0, cmarg1 := a1, cmarg2 := a2 }
def mailbox (w a0 a1 a2 : Word) : State := mailboxOf {} w a0 a1 a2
/-- An image descriptor: a window of 64 bytes, and segment 0, one bundle from byte 0 of host memory. -/
def descriptor : List Byte :=
  List.replicate 11 0 ++ [4] ++ List.replicate 502 0 ++ [0x40, 0, 0, 0, 0, 0, 0, 0, 0, 0, 0, 0x60] ++ List.replicate 1010 0

theorem witness_MailboxSteps :
    fieldN (1 : Word) 0 8 = 1 ∧ (∀ k ∈ [2, 3, 4, 5, 6, 7, 8], isCommand k 15 (BitVec.ofNat 64 (k + 0xF00)) = true) ∧
    ({ mailbox 0xF07 0 0 0 with lock := false } : State).lock = false ∧ ({ mailbox 0xF07 0 0 0 with lock := false } : State).cmcmd = some 0xF07 ∧
    ((getCtx (mailbox 0xF02 0 0 0) 15).all (fun x => !x.freeing) = true ∧ (mailbox 0xF02 0 0 0).cmInstall = none) ∧
    (let s := mailboxOf { freeing := true } 0 0 0 0
     getCtx s 15 = some { freeing := true } ∧ enginesSettled s 15 = true) ∧
    (let s := { host task with cmInstall := some (15, [(0, 5)]) }
     s.cmInstall = some (15, [(0, 5)]) ∧ owes s [(0, 5)] = false) ∧
    (anyBit (0x7FFFF : Word) 19 1 = false ∧ anyBit (0x80000 : Word) 19 1 = true) ∧ (anyBit (0 : Word) 63 1 = false ∧ anyBit (0x8000000000000000 : Word) 63 1 = true) ∧
    (anyBit (0xFFFF : Word) 16 1 = false ∧ anyBit (0x10000 : Word) 16 1 = true) ∧ State.reset.lock = false ∧
    (let s := mailbox 1 (BitVec.ofNat 64 hostAddr) 1 0
     s.lock = true ∧ s.cmarg0.toNat % 8 = 0 ∧ s.cmarg0.toNat < 2 ^ 56 ∧ signalClass s.cmarg0.toNat = true ∧ anyBit s.cmarg1 1 63 = false ∧ s.cmarg2 = 0 ∧
       freeContext s = some 1) := by decide +kernel

/-- One acceptable command of each kind, for each clause that says what it does. -/
theorem witness_MailboxEffects :
    (let s := mailbox 0xF02 1 0 0
     s.cmcmd = some 0xF02 ∧ s.lock = true ∧ getCtx s 15 = some {} ∧ s.cmarg0 = 1 ∧ enginesSettled (haltSeqs { s with cmcmd := none } 15) 15 = true) ∧
    (let s := mailbox 0xF03 0x3FF 0 0
     getCtx s 15 = some {} ∧ anyBit s.cmarg0 19 45 = false ∧ 0 < fieldN s.cmarg0 9 10 ∧ fieldN s.cmarg0 0 9 + fieldN s.cmarg0 9 10 = 512) ∧
    (let s := mailbox 0xF03 0x803FF 0 0
     anyBit s.cmarg0 19 1 = true ∧ anyBit s.cmarg0 20 44 = false ∧ fieldN s.cmarg0 0 9 + fieldN s.cmarg0 9 10 = 512 ∧ runsTask s 15 511 = false) ∧
    (let s := mailbox 0xF04 0x10001 0 0
     anyBit s.cmarg0 63 1 = false ∧ grant.cls ≠ 2 ∧ grantBad s grant grant.a0 = false ∧ grantConflicts s 15 grant = false ∧
       grant = { cls := fieldN s.cmarg0 0 2, a0 := s.cmarg0 &&& ~~~((1 : Word) <<< 63), a1 := s.cmarg1, a2 := s.cmarg2 }) ∧
    (let s := mailboxOf { grants := [grant] } 0xF04 0x8000000000010001 0 0
     anyBit s.cmarg0 63 1 = true ∧ grantBad s grant grant.a0 = false ∧ grantMapped s { grants := [grant] } grant = false ∧
       grant = { cls := fieldN s.cmarg0 0 2, a0 := s.cmarg0 &&& ~~~((1 : Word) <<< 63), a1 := s.cmarg1, a2 := s.cmarg2 }) ∧
    (let s := mailbox 0xF05 0x80000000 0 0
     anyBit s.cmarg0 46 18 = false ∧ tables = { die := fieldN s.cmarg0 0 2, site := fieldN s.cmarg0 2 10, first := fieldN s.cmarg0 12 17, count := fieldN s.cmarg0 29 17 } ∧
       0 < tables.count ∧ tables.count ≤ 65536 ∧ areaConflicts s 15 tables = false) ∧
    (let x : Ctx := { areas := [tables] }
     let s := mailboxOf x 0xF06 0 0x100001 3
     anyBit s.cmarg0 56 8 = false ∧ anyBit s.cmarg2 2 62 = false ∧ faClass (fieldN s.cmarg0 0 56) ≤ 2 ∧ fieldN s.cmarg0 0 56 % 65536 = 0 ∧
       linkFailed s hub (fieldN s.cmarg0 0 56) = false ∧ dieStopped s (homeDie (fieldN s.cmarg0 0 56)) = false ∧ entryOk s x (fieldN s.cmarg0 0 56) (fieldN s.cmarg2 0 2) s.cmarg1 = true ∧
       (installPlace s x (fieldN s.cmarg0 0 56) (fieldN s.cmarg2 0 2)).toOption = some (placeW 0 0) ∧
       owedOn s 15 (fieldN s.cmarg0 0 56) (2 ^ levelShift (fieldN s.cmarg2 0 2)) = [] ∧ Memory.wf s.mem = true) ∧
    (let s := writeBytes (mailbox 0xF07 (BitVec.ofNat 64 (hostAddr + 64)) 0xFFFF 0) (placeHost 64) descriptor
     anyBit s.cmarg1 16 48 = false ∧ s.cmarg0.toNat < 2 ^ 56 ∧ s.cmarg0.toNat % 64 = 0 ∧
       (imageAt { s with cmcmd := none } 15 (fieldN s.cmarg1 0 16) s.cmarg0.toNat).toOption.isSome = true) ∧
    (let s := mailboxOf { images := [img] } 0xF07 0 0x10001 0
     anyBit s.cmarg1 16 1 = true ∧ anyBit s.cmarg1 17 47 = false ∧ [img].any (fun i => i.handle == fieldN s.cmarg1 0 16) = true ∧
       (s.launches ++ consumedLaunches s).any (fun l => l.ctx == 15 && l.handle == fieldN s.cmarg1 0 16) = false) ∧
    (let x : Ctx := { seqs := [0] }
     let s := { mailboxOf x 0xF08 0 1 0 with cmcmd := none }
     let r : Pager := { first := 0, pages := 1, seq := 0, ring := 0, slots := 16, flag := 0 }
     registerPager s 15 x = .ok (setCtx s 15 { x with pagers := x.pagers ++ [r] }, 0)) := by decide +kernel

/-- Context 0 as `x` with sequencer 0 as `q`, at clock `k`, beside context 1 and a launch of it that needs sequencer 0. -/
def cutting (k p : Nat) (x : Ctx) (q : Seq) : State :=
  { host q with clock := k, ctxs := [(0, x), (1, { seqs := [0], images := [img] })], launches := [{ lnch with ctx := 1, prio := p }] }
def alive : Ctx := { life := 1, seqs := [0] }

theorem witness_CutSteps :
    (preemptDue (cutting 0 1 alive task) 0 alive = true ∧ quantumDue (cutting (2 ^ 21) 0 alive task) 0 alive = true) ∧
    (let x : Ctx := { alive with cut := .reporting 3 }
     let s := cutting 0 0 x task
     x.cut = .reporting 3 ∧ armDue s 0 x = some 0 ∧ (getSeq s 0).ctx = some 0 ∧ (agreeing s 0 x).any (fun p => p.1 == 0) = true ∧ (getSeq s 0).hold = none ∧
       (getSeq s 0).status ≠ .placed ∧ targetDue (cutting 0 0 x { task with reported := some 2 }) 0 x = true) ∧
    (let x : Ctx := { alive with cut := .released 3 }
     let s := cutting 0 0 x { task with status := .placed }
     x.cut ≠ .none ∧ x.halted = false ∧ (armable s 0 x).any (fun p => p.1 == 0) = true ∧ (getSeq s 0).status = .placed ∧ (getSeq s 0).hold = none) ∧
    (let x : Ctx := { alive with cut := .released 3 }
     let q : Seq := { task with status := .held, reported := some 2, hold := some 2, sr := { task.sr with cutnext := 3 } }
     let s := cutting 0 0 x q
     x.cut = .released 3 ∧ x.halted = false ∧ (getSeq s 0).reported.isSome = true ∧ (agreeing s 0 x).any (fun p => p.1 == 0) = true ∧
       (getSeq s 0).status = .held ∧ (getSeq s 0).sr.cutnext.toNat ≤ (3 : Word).toNat) ∧
    (let x : Ctx := { alive with cut := .released 3 }
     let q : Seq := { task with status := .held, hold := some 3 }
     let s := cutting 0 0 x q
     savedDue s 0 x = true ∧ pagersRun s 0 x = [] ∧ Memory.wf s.mem = true ∧ (∀ p ∈ s.seqs, p.1 < 512) ∧ (∀ n ∈ x.seqs, n < 512)) ∧
    (let e : Pending := { dest := .vector 47, left := 255 }
     let q : Seq := { task with status := .held, hold := some 3, pending := [{ dest := .named 3, left := 1 }, e] }
     let s := cutting 0 0 { alive with cut := .released 3 } q
     (getSeq s 0).ctx = some 0 ∧ (getSeq s 0).status ≠ .idle ∧ Memory.wf s.mem = true ∧
       (q.q.length = 16 ∧ q.sq.length = 16 ∧ q.g.length = 32 ∧ q.m.length = 8 ∧ q.ag.length = 8 ∧ q.mp.length = 8 ∧ q.cp.length = 8 ∧ q.np.length = 8) ∧
       (q.f.length = 32 ∧ q.zones.length = 16 ∧ q.ranges.length = 8 ∧ q.v.length = 48 ∧ q.z.length = 8 ∧ q.pending.length ≤ 128) ∧
       q.pending = [{ dest := .named 3, left := 1 }] ++ e :: [] ∧ (pendingKind e).2.1 < 256 ∧ (47 : Nat) < 48) ∧
    (let x : Ctx := { alive with life := 2, saved := [⟨0, task⟩, ⟨1, task⟩] }
     resumeDue (cutting 0 0 { x with saved := [⟨0, task⟩] } {}) 0 { x with saved := [⟨0, task⟩] } = true ∧
       Memory.wf (cutting 0 0 { x with saved := [⟨0, task⟩] } {}).mem = true ∧ (∀ v ∈ x.saved, v.seq < 512) ∧ damagedOffsets (cutting 0 0 x {}) 0 0 = [] ∧
       damagedOffsets { cutting 0 0 x {} with poison := [(saveAreaPlace 0 0 0 + 0x200) / 8] } 0 0 = [0x200] ∧ spaceOf (placeHost 0) < 4 ∧ ¬ spaceOf (placeP 0 0) < 4 ∧
       x.saved = [⟨0, task⟩] ++ ⟨1, task⟩ :: [] ∧ x.saved = [] ++ ⟨0, task⟩ :: [⟨1, task⟩] ∧ ∀ w ∈ [(⟨1, task⟩ : SavedSeq)], w.seq ≠ 0) := by decide +kernel

theorem witness_DebugSteps :
    (let y : Ctx := { alive with halted := true, stepLeft := some 0 }
     getCtx (cutting 0 0 y task) 0 = some y ∧ stepEnded y = true) ∧
    (let s := cutting 0 0 alive task
     dbgBusy s = false ∧ getCtx s (dbgCtx s) = some alive ∧ alive.life ≠ 2 ∧ savesNow s 0 alive = false ∧ alive.halted = false) ∧
    (let x : Ctx := { alive with cut := .released 3 }
     savesNow (cutting 0 0 x { task with status := .held, hold := some 3 }) 0 x = true ∧ dbgBusy (cutting 0 0 x task) = false) ∧
    (let x : Ctx := { alive with life := 2, saved := [⟨0, task⟩] }
     let s := cutting 0 0 x {}
     getCtx s (dbgCtx s) = some x ∧ imageMiss s x 0 = false ∧ x.life = 2) ∧
    (let x : Ctx := { alive with halted := true }
     let s := { cutting 0 0 x task with mgmt := { dbgarg := 1 } }
     dbgBusy s = false ∧ getCtx s (dbgCtx s) = some x ∧ x.halted = true ∧ 0 < fieldN s.mgmt.dbgarg 0 16) ∧
    (let x : Ctx := { alive with halted := true }
     let s := { cutting 0 0 x task with mgmt := { dbgarg := 0x100, dbgdata := 5 } }
     x.halted = true ∧ standsHalted x = true ∧ standsHalted alive = false ∧ standsHalted { x with life := 2 } = false ∧ imageMiss s x 0 = false ∧ x.life ≠ 2 ∧ writeRefused s 0 (dbgOffset s) s.mgmt.dbgdata = false) := by decide +kernel

/-- Die 3 in a state of its reset. -/
def dieState (x : DieReset) : State := { host {} with dies := [(3, x)] }

theorem witness_DieResetSteps :
    (∀ k ∈ [0, 1, 2, 3, 5, 6], let x := getDie (dieState { st := k }) 3
      x.locked = false ∧ x.busy = false ∧ x.st = k) ∧
    dieBusy (dieState {}) 3 = false ∧ dieBusy (host task) 0 = true ∧
    (∀ k ∈ [2, 3, 4, 5, 6], let x := getDie (dieState { busy := true, cmd := k }) 3
      x.busy = true ∧ x.cmd = k) ∧
    (∀ k ∈ [0, 1, 2, 3, 5, 6], (getDie (dieState { st := 4 }) 3).st ≠ k) ∧ (getDie (dieState { locked := true }) 3).locked = true ∧ dieAnswered (dieState { busy := true, cmd := 2 }) 3 = true := by decide +kernel

theorem witness_LogSteps :
    (State.reset.peat.busy = 0 ∧ ({ State.reset with peat := { busy := 2 } } : State).peat.busy ≠ 0) ∧
    (2 ^ 20 ≤ ({ keys := 2 ^ 20 } : Peat).keys) ∧
    (let s := { host task with peat := { hbuf := BitVec.ofNat 64 hostAddr } }
     s.peat.keys < 2 ^ 20 ∧ faClass s.peat.hbuf.toNat = 3 ∧ s.peat.hbuf.toNat % 64 = 0 ∧ s.peat.hbuf.toNat < 2 ^ 56 ∧
       (coreWrite s 16 s.peat.hbuf.toNat (headBytes s.peat (timeNow s))).isSome = true) ∧
    State.reset.peat.head = none ∧
    (let p : Peat := { count := 4, head := some 3 }
     p.head = some 3 ∧ 3 = peatLast p) ∧
    (let p : Peat := { count := 5, head := some 3 }
     p.head = some 3 ∧ 3 ≠ peatLast p) ∧
    ((scrubSource 0).any (fun e => e.unit == 1) = true ∧ spaceOf 0 < 8 ∧ (scrubSource (placeP 511 0xFFFFF)).isSome = true ∧
      isSram (placeP 511 0xFFFFF) = true ∧ spaceOf (placeP 511 0xFFFFF) < 8) ∧ (4095 : Nat) < 4096 := by decide +kernel

/-- Retirement at the threshold: however large it is, some count of errors reaches it. -/
theorem witness_ThresholdRetirement : ∃ s : State, 0 < (getSite s (siteOfPackage 0)).uncorrectable ∧
    Config.retireThreshold ≤ (getSite s (siteOfPackage 0)).uncorrectable ∧ (getSite s (siteOfPackage 0)).retired = false :=
  ⟨{ State.reset with sites := [(0, { uncorrectable := Config.retireThreshold + 1 })] }, Nat.succ_pos _, Nat.le_succ _, rfl⟩

theorem witness_LinkSteps :
    (getLink State.reset 5).st = 2 ∧ (∀ k ∈ [0, 1, 2], (getPort { State.reset with ports := [(143, { st := k })] } 143).st = k) ∧
    (getPort { State.reset with ports := [(143, { st := 3, run := 8 })] } 143).st = 3 ∧
    (let s := { State.reset with links := [(5, { run := 8 })] }
     (getLink s 5).st = 2 ∧ 8 ≤ (getLink s 5).run) ∧
    (let s := { State.reset with ports := [(143, { st := 2, run := 8 })] }
     (getPort s 143).st = 2 ∧ 8 ≤ (getPort s 143).run) ∧
    (getCxl State.reset 7).st = 0 ∧ (0xFFFF : Nat) < 2 ^ 16 ∧ (∀ k ∈ [1, 2], (getCxl { State.reset with cxl := [(7, { st := k })] } 7).st = k) := by decide +kernel

theorem witness_PowerAndStartSteps :
    (let s := State.reset
     s.mgmt.lastStep = none ∧ s.mgmt.clkstep < 3 ∧ (4095 : Nat) < 2 ^ 12 ∧ s.mgmt.pwrcap.toNat < 4095 ∧ (0xFFFF : Nat) < 2 ^ 16 ∧ s.mgmt.ttrip.toNat ≤ 880 ∧
       s.halted = false ∧ s.mgmt.bootWaits = false ∧ s.mgmt.booted < 8 ∧ s.mgmt.booted ≠ 2 ∧ s.mgmt.slots.length = 16) ∧
    (let s : State := { State.reset with mgmt := { clkstep := 3, lastStep := some 0 }, stamp := millisecond }
     (0 : Nat) + millisecond ≤ s.stamp ∧ s.mgmt.clkstep ≤ 3 ∧ 100 * 0 < 95 * s.mgmt.pwrcap.toNat ∧ 100 * 0 < 95 * s.mgmt.twarn.toNat ∧ 0 < s.mgmt.ttrip.toNat) ∧
    (let s : State := { State.reset with mgmt := { lastStep := some 1 }, stamp := millisecond }
     s.mgmt.lastStep = some 1 ∧ s.stamp < 1 + millisecond) ∧
    (let s : State := { State.reset with mgmt := { booted := 2, pushed := true } }
     s.mgmt.booted = 2 ∧ s.mgmt.pushed = true ∧ s.mgmt.booted < 8) ∧
    (getCtx (host task) 0 = some { life := 1, seqs := [0] } ∧ (host task).halted = false) ∧
    ({ State.reset with mgmt := { bootWaits := true } } : State).mgmt.bootWaits = true := by decide +kernel


end Sys2Proof.Tests
end

/-! # Slot words: decoding and encoding are inverse (01_long_word R12, R24 to R33)

A word is read field by field and put together field by field. `bits_or`, `bits_field_self`, `bits_field_above` and `bits_field_below` read a
field of an encoded word; here a field put back in its place is the word under that field's mask, so that the fields of a decoded word together
are the word under the mask of all of them, and its reserved bits are the rest. Each slot's map then has the two directions as lemmas of its
own. -/

namespace Sys2Proof.Proofs
open Sys2Proof.Machine Sys2Proof.Laws

/-! ## Fields under their masks -/

/-- A field of a word put back in its place is the word under the field's mask. -/
theorem field_bits {n lo len : Nat} (w : BitVec n) :
    field n lo (bits w lo len) = w &&& (BitVec.allOnes len).setWidth n <<< lo := by
  apply BitVec.eq_of_getLsbD_eq
  intro i hi
  simp [bits, field]
  grind

/-- A constant put where a word holds it is the word under the field's mask. -/
theorem field_ofNat {n lo len c : Nat} {w : BitVec n} (h : (bits w lo len).toNat = c) :
    field n lo (BitVec.ofNat len c) = w &&& (BitVec.allOnes len).setWidth n <<< lo := by
  rw [← field_bits, ← h, BitVec.ofNat_toNat, BitVec.setWidth_eq]

/-- Bits of a word are zero where the word has nothing under their mask. -/
theorem zeros_iff {n lo len : Nat} {w : BitVec n} (h : lo + len ≤ n) :
    zeros w lo len = true ↔ w &&& (BitVec.allOnes len).setWidth n <<< lo = 0#n := by
  rw [← field_bits, zeros, beq_iff_eq]
  constructor
  · intro hz
    simp [hz, field]
  · intro hz
    rw [← bits_field_self (bits w lo len) lo h, hz]
    simp [bits]

/-- A mask leaves a word alone where the word has nothing outside it. -/
theorem and_eq_self_iff {n : Nat} {w m : BitVec n} : w &&& m = w ↔ w &&& ~~~m = 0#n := by
  simp only [BitVec.eq_of_getLsbD_eq_iff]
  grind

theorem and_eq_zero_and_iff {n : Nat} {w a b : BitVec n} : (w &&& a = 0#n ∧ w &&& b = 0#n) ↔ w &&& (a ||| b) = 0#n := by
  rw [BitVec.and_or_distrib_left, BitVec.or_eq_zero_iff]

/-! ## The reserved bits' check -/

theorem keep_eq_some_iff {ok : Bool} {i j : Instr} : keep ok i = some j ↔ ok = true ∧ i = j := by
  cases ok <;> simp [keep]

/-- A branch of a map gives its instruction where the reserved bits are zero. -/
theorem eq_some_of_eq_keep {r : Option Instr} {ok : Bool} {i j : Instr} (hr : r = keep ok i) (hok : ok = true) (hij : i = j) :
    r = some j :=
  hr.trans (keep_eq_some_iff.mpr ⟨hok, hij⟩)

/-- The word of what a branch gives, from the word of the branch's instruction. -/
theorem encodeSlot_of_keep {ok : Bool} {i j : Instr} {w : BitVec 32} (h : keep ok i = some j)
    (hw : ok = true → encodeSlot i = w) : encodeSlot j = w := by
  obtain ⟨hok, rfl⟩ := keep_eq_some_iff.mp h
  exact hw hok

/-- Opcode 0 (01 R13): a word whose opcode and other bits are zero is the word of NOP. -/
theorem encodeSlot_of_keep_nop {lo len : Nat} {w : BitVec 32} {i : Instr} (h : keep (zeros w 0 lo) .nop = some i)
    (hop : (bits w lo len).toNat = 0) (hlen : lo + len = 32) : encodeSlot i = w := by
  refine encodeSlot_of_keep h fun hz => ?_
  have hlow : bits w 0 lo = 0#lo := beq_iff_eq.mp hz
  have hhigh : bits w lo len = 0#len := BitVec.eq_of_toNat_eq hop
  calc 0#32 = field 32 lo (bits w lo len) ||| field 32 0 (bits w 0 lo) := by simp [hlow, hhigh, field]
    _ = w := by
      apply BitVec.eq_of_getLsbD_eq
      intro j hj
      simp [field, bits]
      grind

/-! ## The slots' maps

An operation's word: its opcode field picks the branch of the map, and there each field reads back and no reserved bit is set. A word that
decodes: the branch taken gives the opcode field, and the branch's fields together are the word outside the reserved bits, which are zero. -/

/-! ### The sync slot (R29) -/

theorem decodeSync_encodeSlot {i : Instr} (h : 0 ∈ slotsOf i) : decodeSync (encodeSlot i) = some i := by
  generalize hw : encodeSlot i = w
  unfold decodeSync
  generalize hop : (bits w 27 5).toNat = c
  cases i
  case nop | wait | waitc | post | clrf | quiet | segb | brk | trapi | drain | endOp =>
    unfold encodeSlot at hw
    simp [← hw, bits_or, bits_field_self, bits_field_above] at hop
    subst hop
    refine eq_some_of_eq_keep rfl ?_ ?_ <;> simp [← hw, zeros, bits_or, bits_field_self, bits_field_above, bits_field_below]
  all_goals exact absurd h (of_decide_eq_false rfl)

theorem encodeSlot_of_decodeSync {w : BitVec 32} {i : Instr} (h : decodeSync w = some i) : encodeSlot i = w := by
  unfold decodeSync at h
  split at h
  case h_1 hop => exact encodeSlot_of_keep_nop h hop rfl
  case h_12 => cases h
  all_goals
    rename_i hop
    refine encodeSlot_of_keep h ?_
    unfold encodeSlot
    simp [zeros_iff, and_eq_zero_and_iff, field_bits, field_ofNat hop, ← BitVec.and_or_distrib_left, and_eq_self_iff]

/-! ### The scalar slots (R30) -/

theorem decodeScalar_encodeSlot {i : Instr} (h : 1 ∈ slotsOf i ∨ 2 ∈ slotsOf i) : decodeScalar (encodeSlot i) = some i := by
  generalize hw : encodeSlot i = w
  unfold decodeScalar
  generalize hop : (bits w 25 7).toNat = c
  cases i
  case nop | add | sub | and | or | xor | andn | shl | shr | sar | rotl | min | max | minu | maxu | mov | mul | mulh | mulhu | div | divu |
    rem | remu | sel | clz | ctz | popc | bext | bins | sext | zext | ceq | cne | clt | cltu | cle | cleu | addi | andi | ori | xori | shli
    | shri | sari | ceqi | clti | cltui | lui | movi | stg | stgi | srd | swr | ldI8 | ldN8 | ldI16 | ldN16 | ldI32 | ldN32 | ldI64 | ldsI8
    | ldsN8 | ldsI16 | ldsN16 | ldsI32 | ldsN32 | ldsI64 | ldaI32 | ldaN32 | ldaI64 | stI8 | stI16 | stI32 | stI64 | stlI32 | stlI64 |
    amoI32 | amoI64 | casI32 | casI64 | br | jmp | jmpi | call | ret | loop | chk | tret =>
    unfold encodeSlot at hw
    simp [← hw, bits_or, bits_field_self, bits_field_above] at hop
    subst hop
    refine eq_some_of_eq_keep rfl ?_ ?_ <;> simp [← hw, zeros, bits_or, bits_field_self, bits_field_above, bits_field_below]
  all_goals exact absurd h (of_decide_eq_false rfl)

theorem encodeSlot_of_decodeScalar {w : BitVec 32} {i : Instr} (h : decodeScalar w = some i) : encodeSlot i = w := by
  unfold decodeScalar at h
  split at h
  case h_1 hop => exact encodeSlot_of_keep_nop h hop rfl
  case h_89 => cases h
  all_goals
    rename_i hop
    refine encodeSlot_of_keep h ?_
    unfold encodeSlot
    simp [zeros_iff, and_eq_zero_and_iff, field_bits, field_ofNat hop, ← BitVec.and_or_distrib_left, and_eq_self_iff]

/-! ### The transfer slot (R31) -/

theorem decodeTransfer_encodeSlot {i : Instr} (h : 3 ∈ slotsOf i) : decodeTransfer (encodeSlot i) = some i := by
  generalize hw : encodeSlot i = w
  unfold decodeTransfer
  generalize hop : (bits w 28 4).toNat = c
  cases i
  case nop | xtov | xfromv | xag | xmask | xsts =>
    unfold encodeSlot at hw
    simp [← hw, bits_or, bits_field_self, bits_field_above] at hop
    subst hop
    refine eq_some_of_eq_keep rfl ?_ ?_ <;> simp [← hw, zeros, bits_or, bits_field_self, bits_field_above, bits_field_below]
  all_goals exact absurd h (of_decide_eq_false rfl)

theorem encodeSlot_of_decodeTransfer {w : BitVec 32} {i : Instr} (h : decodeTransfer w = some i) : encodeSlot i = w := by
  unfold decodeTransfer at h
  split at h
  case h_1 hop => exact encodeSlot_of_keep_nop h hop rfl
  case h_7 => cases h
  all_goals
    rename_i hop
    refine encodeSlot_of_keep h ?_
    unfold encodeSlot
    simp [zeros_iff, field_bits, field_ofNat hop, ← BitVec.and_or_distrib_left, and_eq_self_iff]

/-! ### The vector slot (R32) -/

theorem decodeVector_encodeSlot {i : Instr} (h : 4 ∈ slotsOf i) : decodeVector (encodeSlot i) = some i := by
  generalize hw : encodeSlot i = w
  unfold decodeVector
  generalize hop : (bits w 25 7).toNat = c
  cases i
  case nop | vadd | vsub | vmul | vfma | vfms | vmin | vmax | vabs | vneg | vdiv | vsqrt | vrsq | vrcp | vexp2 | vlog2 | vtanh | vsigm |
    viadd | visub | vimul | vimulh | vimin | vimax | vand | vor | vxor | vshl | vshr | vsar | vwadd | vwmul | vnarw | vcmp | vsel | vmop |
    vcvt | vscale | vpack | vunpk | vmov | vperm | vslide | vzip | vuzp | vred | vscan | vld | vst | vldx | vstx | vdec | vcut =>
    unfold encodeSlot at hw
    simp [← hw, bits_or, bits_field_self, bits_field_above] at hop
    subst hop
    refine eq_some_of_eq_keep rfl ?_ ?_ <;> simp [← hw, zeros, bits_or, bits_field_self, bits_field_above, bits_field_below]
  all_goals exact absurd h (of_decide_eq_false rfl)

theorem encodeSlot_of_decodeVector {w : BitVec 32} {i : Instr} (h : decodeVector w = some i) : encodeSlot i = w := by
  unfold decodeVector at h
  split at h
  case h_1 hop => exact encodeSlot_of_keep_nop h hop rfl
  case h_54 => cases h
  all_goals
    rename_i hop
    refine encodeSlot_of_keep h ?_
    unfold encodeSlot
    simp [zeros_iff, and_eq_zero_and_iff, field_bits, field_ofNat hop, ← BitVec.and_or_distrib_left, and_eq_self_iff]

/-! ### The matrix slot (R33) -/

theorem decodeMatrix_encodeSlot {i : Instr} (h : 5 ∈ slotsOf i) : decodeMatrix (encodeSlot i) = some i := by
  generalize hw : encodeSlot i = w
  unfold decodeMatrix
  generalize hop : (bits w 27 5).toNat = c
  cases i
  case nop | mcall | mlatch | medge | mflush | mstep | mrout | mstat | mdec | mcut =>
    unfold encodeSlot at hw
    simp [← hw, bits_or, bits_field_self, bits_field_above] at hop
    subst hop
    refine eq_some_of_eq_keep rfl ?_ ?_ <;> simp [← hw, zeros, bits_or, bits_field_self, bits_field_above, bits_field_below]
  all_goals exact absurd h (of_decide_eq_false rfl)

theorem encodeSlot_of_decodeMatrix {w : BitVec 32} {i : Instr} (h : decodeMatrix w = some i) : encodeSlot i = w := by
  unfold decodeMatrix at h
  split at h
  case h_1 hop => exact encodeSlot_of_keep_nop h hop rfl
  case h_11 => cases h
  all_goals
    rename_i hop
    refine encodeSlot_of_keep h ?_
    unfold encodeSlot
    simp [zeros_iff, field_bits, field_ofNat hop, ← BitVec.and_or_distrib_left, and_eq_self_iff]

/-! ### The copy slot (R33) -/

theorem decodeCopy_encodeSlot {i : Instr} (h : 6 ∈ slotsOf i) : decodeCopy (encodeSlot i) = some i := by
  generalize hw : encodeSlot i = w
  unfold decodeCopy
  generalize hop : (bits w 27 5).toNat = c
  cases i
  case nop | cpy | cpys | cpyg | cpyt | cpyx | cpyf | cpyw | cpyq =>
    unfold encodeSlot at hw
    simp [← hw, bits_or, bits_field_self, bits_field_above] at hop
    subst hop
    refine eq_some_of_eq_keep rfl ?_ ?_ <;> simp [← hw, zeros, bits_or, bits_field_self, bits_field_above, bits_field_below]
  all_goals exact absurd h (of_decide_eq_false rfl)

theorem encodeSlot_of_decodeCopy {w : BitVec 32} {i : Instr} (h : decodeCopy w = some i) : encodeSlot i = w := by
  unfold decodeCopy at h
  split at h
  case h_1 hop => exact encodeSlot_of_keep_nop h hop rfl
  case h_10 => cases h
  all_goals
    rename_i hop
    refine encodeSlot_of_keep h ?_
    unfold encodeSlot
    simp [zeros_iff, field_bits, field_ofNat hop, ← BitVec.and_or_distrib_left, and_eq_self_iff]

/-! ### The network slot (R33) -/

theorem decodeNetwork_encodeSlot {i : Instr} (h : 7 ∈ slotsOf i) : decodeNetwork (encodeSlot i) = some i := by
  generalize hw : encodeSlot i = w
  unfold decodeNetwork
  generalize hop : (bits w 27 5).toNat = c
  cases i
  case nop | lsend | lsched | gld | gdef | fpost | namo | ncas | pgmap | pgdone =>
    unfold encodeSlot at hw
    simp [← hw, bits_or, bits_field_self, bits_field_above] at hop
    subst hop
    refine eq_some_of_eq_keep rfl ?_ ?_ <;> simp [← hw, zeros, bits_or, bits_field_self, bits_field_above, bits_field_below]
  all_goals exact absurd h (of_decide_eq_false rfl)

theorem encodeSlot_of_decodeNetwork {w : BitVec 32} {i : Instr} (h : decodeNetwork w = some i) : encodeSlot i = w := by
  unfold decodeNetwork at h
  split at h
  case h_1 hop => exact encodeSlot_of_keep_nop h hop rfl
  case h_11 => cases h
  all_goals
    rename_i hop
    refine encodeSlot_of_keep h ?_
    unfold encodeSlot
    simp [zeros_iff, field_bits, field_ofNat hop, ← BitVec.and_or_distrib_left, and_eq_self_iff]

/-! ## A word in its slot -/

/-- The reading of slot `k`'s word by the slot's map (R12), before the check of the permitted slots. -/
def slotMap (k : Nat) (w : BitVec 32) : Option Instr :=
  match k with
  | 0 => decodeSync w
  | 1 => decodeScalar w
  | 2 => decodeScalar w
  | 3 => decodeTransfer w
  | 4 => decodeVector w
  | 5 => decodeMatrix w
  | 6 => decodeCopy w
  | 7 => decodeNetwork w
  | _ => none

theorem decodeSlot_eq_some_iff {k : Nat} {w : BitVec 32} {i : Instr} :
    decodeSlot k w = some i ↔ slotMap k w = some i ∧ k ∈ slotsOf i := by
  have hdef : decodeSlot k w = (match slotMap k w with
    | some j => if (slotsOf j).contains k then some j else none
    | none => none) := rfl
  rw [hdef]
  cases slotMap k w with
  | none => simp
  | some j =>
    simp only [List.contains_iff_mem, Option.ite_none_right_eq_some, Option.some.injEq]
    grind

/-- A bundle has eight slots (R12). -/
theorem lt_eight_of_mem_slotsOf {k : Nat} {i : Instr} (h : k ∈ slotsOf i) : k < 8 := by
  have hall : (slotsOf i).all (fun k => decide (k < 8)) = true := by cases i <;> rfl
  simpa using List.all_eq_true.mp hall k h

theorem slotMap_encodeSlot {k : Nat} {i : Instr} (h : k ∈ slotsOf i) : slotMap k (encodeSlot i) = some i :=
  match k with
  | 0 => decodeSync_encodeSlot h
  | 1 => decodeScalar_encodeSlot (.inl h)
  | 2 => decodeScalar_encodeSlot (.inr h)
  | 3 => decodeTransfer_encodeSlot h
  | 4 => decodeVector_encodeSlot h
  | 5 => decodeMatrix_encodeSlot h
  | 6 => decodeCopy_encodeSlot h
  | 7 => decodeNetwork_encodeSlot h
  | _ + 8 => absurd (lt_eight_of_mem_slotsOf h) (by omega)

theorem encodeSlot_of_slotMap {k : Nat} {w : BitVec 32} {i : Instr} (h : slotMap k w = some i) : encodeSlot i = w :=
  match k with
  | 0 => encodeSlot_of_decodeSync h
  | 1 => encodeSlot_of_decodeScalar h
  | 2 => encodeSlot_of_decodeScalar h
  | 3 => encodeSlot_of_decodeTransfer h
  | 4 => encodeSlot_of_decodeVector h
  | 5 => encodeSlot_of_decodeMatrix h
  | 6 => encodeSlot_of_decodeCopy h
  | 7 => encodeSlot_of_decodeNetwork h
  | _ + 8 => nomatch h

/-- Settles O2: each slot's map reads back the fields of an operation's word, and the fields and reserved bits of a word that decodes are the
whole word. -/
theorem slotWordsRoundTrip : Obligations.SlotWordsRoundTrip := by
  constructor
  · intro i k hk
    exact decodeSlot_eq_some_iff.mpr ⟨slotMap_encodeSlot hk, hk⟩
  · intro k w i h
    obtain ⟨hmap, hk⟩ := decodeSlot_eq_some_iff.mp h
    exact ⟨hk, encodeSlot_of_slotMap hmap⟩

end Sys2Proof.Proofs

/-! # Scalar arithmetic (02_scalar_instructions R43 to R50)

The forms of one and of two operands share their shape: a function of the operands' bits, and the poison of any operand. What the manual gives
as an operation on integers, the model computes on words; one lemma for each such function says that they agree. -/

namespace Sys2Proof.Proofs
open Sys2Proof.Machine Sys2Proof.Laws

/-! ## The operand forms -/

/-- A two-operand form whose function on words is the manual's. -/
theorem answers_scalar2 {i : Instr} {home k : Nat} {f g : Word → Word → Word} {d a b : BitVec 6}
    (he : ∀ s, exec i s = runSlot home i (scalar2 f k d a b) s) (h : ∀ x y, f x y = g x y) : Answers i (result2 g k d a b) :=
  answers_of he fun s u => by simp only [scalar2, result2, h]

/-- A one-operand form whose function on words is the manual's. -/
theorem answers_scalar1 {i : Instr} {home : Nat} {f g : Word → Word} {d a : BitVec 6}
    (he : ∀ s, exec i s = runSlot home i (scalar1 f d a) s) (h : ∀ x, f x = g x) : Answers i (result1 g d a) :=
  answers_of he fun s u => by simp only [scalar1, result1, h]

/-! ## Fields and comparisons as numbers -/

theorem fieldN_eq {n : Nat} (x : BitVec n) (lo len : Nat) : fieldN x lo len = x.toNat / 2 ^ lo % 2 ^ len := by
  rw [fieldN, BitVec.extractLsb'_toNat, Nat.shiftRight_eq_div_pow]

theorem shAmt_eq (y : Word) : shAmt y = y.toNat % 64 := by
  simp [shAmt, fieldN_eq]

theorem b2w_eq_truth {c : Bool} {p : Prop} [Decidable p] (h : c = true ↔ p) : b2w c = truth p := by
  simp only [b2w, truth, h]

/-! ## Sums, shifts and comparisons (R46) -/

theorem sub_eq_ofInt (x y : Word) : x - y = BitVec.ofInt 64 ((x.toNat : Int) - y.toNat) := by
  rw [sub_eq_add_neg, Int.sub_eq_add_neg, BitVec.ofInt_add, BitVec.ofInt_neg, BitVec.ofInt_natCast, BitVec.ofInt_natCast]
  simp

theorem shiftLeft_eq_ofNat (x : Word) (n : Nat) : x <<< n = BitVec.ofNat 64 (x.toNat * 2 ^ n) := by
  apply BitVec.eq_of_toNat_eq
  rw [BitVec.toNat_shiftLeft, BitVec.toNat_ofNat, Nat.shiftLeft_eq]

theorem ushiftRight_eq_ofNat (x : Word) (n : Nat) : x >>> n = BitVec.ofNat 64 (x.toNat / 2 ^ n) := by
  apply BitVec.eq_of_toNat_eq
  rw [BitVec.toNat_ushiftRight, BitVec.toNat_ofNat, Nat.shiftRight_eq_div_pow, Nat.mod_eq_of_lt]
  exact (Nat.div_le_self _ _).trans_lt x.isLt

theorem sshiftRight_eq_ofInt (x : Word) (n : Nat) : x.sshiftRight n = BitVec.ofInt 64 (x.toInt / 2 ^ n) := by
  rw [BitVec.sshiftRight, Int.shiftRight_eq_div_pow]
  norm_cast

theorem rotateLeft_eq_or (x y : Word) :
    x.rotateLeft (shAmt y) = (x <<< (y.toNat % 64)) ||| (x >>> (64 - y.toNat % 64)) := by
  rw [shAmt_eq, BitVec.rotateLeft_def, Nat.mod_mod]

/-- Equal readings are equal words, so that it does not matter which of two equal ones a minimum or a maximum takes. -/
theorem select_of_lt_eq_select_of_le {β : Type} [LinearOrder β] {f : Word → β} (hf : Function.Injective f) (g : Word → Word → Word) (x y : Word) :
    (if f x < f y then g x y else g y x) = if f x ≤ f y then g x y else g y x := by
  rcases lt_trichotomy (f x) (f y) with h | h | h
  · rw [if_pos h, if_pos h.le]
  · rw [hf h, ite_self, ite_self]
  · rw [if_neg h.not_gt, if_neg h.not_ge]

theorem smin_eq (x y : Word) : (if x.slt y then x else y) = if x.toInt ≤ y.toInt then x else y := by
  simpa only [BitVec.slt_iff_toInt_lt] using select_of_lt_eq_select_of_le (fun _ _ => BitVec.eq_of_toInt_eq) (fun u _ => u) x y

theorem smax_eq (x y : Word) : (if x.slt y then y else x) = if x.toInt ≤ y.toInt then y else x := by
  simpa only [BitVec.slt_iff_toInt_lt] using select_of_lt_eq_select_of_le (fun _ _ => BitVec.eq_of_toInt_eq) (fun _ v => v) x y

theorem umin_eq (x y : Word) : (if x.ult y then x else y) = if x.toNat ≤ y.toNat then x else y := by
  simpa only [BitVec.ult_iff_toNat_lt] using select_of_lt_eq_select_of_le (fun _ _ => BitVec.eq_of_toNat_eq) (fun u _ => u) x y

theorem umax_eq (x y : Word) : (if x.ult y then y else x) = if x.toNat ≤ y.toNat then y else x := by
  simpa only [BitVec.ult_iff_toNat_lt] using select_of_lt_eq_select_of_le (fun _ _ => BitVec.eq_of_toNat_eq) (fun _ v => v) x y

/-- Settles O20: each form runs its function on words, which agrees with the manual's on numbers. -/
theorem scalarRegisterForms : Obligations.ScalarRegisterForms := fun d a b =>
  ⟨answers_scalar2 (exec_add d a b) fun _ _ => rfl,
   answers_scalar2 (exec_sub d a b) sub_eq_ofInt,
   answers_scalar2 (exec_and d a b) fun _ _ => rfl,
   answers_scalar2 (exec_or d a b) fun _ _ => rfl,
   answers_scalar2 (exec_xor d a b) fun _ _ => rfl,
   answers_scalar2 (exec_andn d a b) fun _ _ => rfl,
   answers_scalar2 (exec_shl d a b) fun x y => by rw [shiftLeft_eq_ofNat, shAmt_eq],
   answers_scalar2 (exec_shr d a b) fun x y => by rw [ushiftRight_eq_ofNat, shAmt_eq],
   answers_scalar2 (exec_sar d a b) fun x y => by rw [sshiftRight_eq_ofInt, shAmt_eq],
   answers_scalar2 (exec_rotl d a b) rotateLeft_eq_or,
   answers_scalar2 (exec_min d a b) smin_eq,
   answers_scalar2 (exec_max d a b) smax_eq,
   answers_scalar2 (exec_minu d a b) umin_eq,
   answers_scalar2 (exec_maxu d a b) umax_eq,
   answers_scalar2 (exec_ceq d a b) fun x y => b2w_eq_truth beq_iff_eq,
   answers_scalar2 (exec_cne d a b) fun x y => b2w_eq_truth bne_iff_ne,
   answers_scalar2 (exec_clt d a b) fun x y => b2w_eq_truth BitVec.slt_iff_toInt_lt,
   answers_scalar2 (exec_cle d a b) fun x y => b2w_eq_truth BitVec.sle_iff_toInt_le,
   answers_scalar2 (exec_cltu d a b) fun x y => b2w_eq_truth BitVec.ult_iff_toNat_lt,
   answers_scalar2 (exec_cleu d a b) fun x y => b2w_eq_truth BitVec.ule_iff_toNat_le,
   answers_scalar1 (exec_mov d a) fun _ => rfl⟩

/-! ## Products, quotients and remainders (R46, R48) -/

/-- The quotient of the one pair whose quotient no word holds wraps to the dividend (R48). -/
theorem divS_eq (x y : Word) : divS x y = if y = 0 then BitVec.allOnes 64
    else if x.toInt = -2 ^ 63 ∧ y.toInt = -1 then BitVec.ofInt 64 (-2 ^ 63) else BitVec.ofInt 64 (x.toInt.tdiv y.toInt) := by
  unfold divS
  split
  · rfl
  · split
    case isTrue h => rw [h.1, h.2]; decide
    case isFalse => rfl

/-- The remainder of that pair is 0. -/
theorem remS_eq (x y : Word) : remS x y = if y = 0 then x
    else if x.toInt = -2 ^ 63 ∧ y.toInt = -1 then 0 else BitVec.ofInt 64 (x.toInt - x.toInt.tdiv y.toInt * y.toInt) := by
  unfold remS
  split
  · rfl
  · split
    case isTrue h => rw [h.1, h.2]; decide
    case isFalse => rw [Int.tmod_def, Int.mul_comm]

/-- Settles O21: the model's one truncating division wraps in both corner cases of R48. -/
theorem scalarProductsAndQuotients : Obligations.ScalarProductsAndQuotients := fun d a b =>
  ⟨⟨rfl, rfl, rfl, rfl⟩,
   answers_scalar2 (exec_mul d a b) fun _ _ => rfl,
   answers_scalar2 (exec_mulh d a b) fun _ _ => rfl,
   answers_scalar2 (exec_mulhu d a b) fun _ _ => rfl,
   answers_scalar2 (exec_div d a b) divS_eq,
   answers_scalar2 (exec_divu d a b) fun _ _ => rfl,
   answers_scalar2 (exec_rem d a b) remS_eq,
   answers_scalar2 (exec_remu d a b) fun _ _ => rfl⟩

/-! ## Bit counts and bit fields (R46, R47) -/

theorem bext64_eq (x y : Word) : bext64 x y = BitVec.ofNat 64 (x.toNat / 2 ^ (y.toNat % 64) % 2 ^ (y.toNat / 64 % 64 + 1)) := by
  simp [bext64, fieldN_eq]

theorem bins64_eq (x y z : Word) :
    bins64 x y z =
      let pos := z.toNat % 64
      let m := BitVec.ofNat 64 ((2 ^ (z.toNat / 64 % 64 + 1) - 1) * 2 ^ pos)
      (x &&& ~~~m) ||| (BitVec.ofNat 64 (y.toNat * 2 ^ pos) &&& m) := by
  simp [bins64, fieldN_eq]

/-- A count of at most 64 is held by its word. -/
theorem toNat_ofNat_of_le {n : Nat} (h : n ≤ 64) : (BitVec.ofNat 64 n).toNat = n := by
  rw [BitVec.toNat_ofNat, Nat.mod_eq_of_lt (by omega)]

theorem leadZeros_le (w n : Nat) : leadZeros w n ≤ w := by
  unfold leadZeros
  split <;> omega

theorem toNat_clz64 (x : Word) : (clz64 x).toNat = leadZeros 64 x.toNat := toNat_ofNat_of_le (leadZeros_le _ _)

/-- A number other than 0 has its highest set bit below its leading zeros. -/
theorem log2_add_leadZeros {w n : Nat} (h0 : n ≠ 0) (h : n < 2 ^ w) : Nat.log2 n + 1 + leadZeros w n = w := by
  have : Nat.log2 n < w := (Nat.log2_lt h0).mpr h
  rw [leadZeros, if_neg h0]
  omega

theorem lt_two_pow_sub_leadZeros {w n : Nat} (h : n < 2 ^ w) : n < 2 ^ (w - leadZeros w n) := by
  by_cases h0 : n = 0
  · simp [h0]
  · have := log2_add_leadZeros h0 h
    rw [show w - leadZeros w n = Nat.log2 n + 1 by omega]
    exact Nat.lt_log2_self

theorem two_pow_le_of_leadZeros {w n : Nat} (h0 : n ≠ 0) (h : n < 2 ^ w) : 2 ^ (w - 1 - leadZeros w n) ≤ n := by
  have := log2_add_leadZeros h0 h
  rw [show w - 1 - leadZeros w n = Nat.log2 n by omega]
  exact Nat.log2_self_le h0

theorem trailZerosGo_le (k n : Nat) : trailZerosGo k n ≤ k := by
  induction k generalizing n with
  | zero => rfl
  | succ k ih =>
    unfold trailZerosGo
    have := ih (n / 2)
    split <;> omega

theorem toNat_ctz64 (x : Word) : (ctz64 x).toNat = trailZerosGo 64 x.toNat := toNat_ofNat_of_le (trailZerosGo_le _ _)

theorem two_pow_trailZerosGo_dvd (k n : Nat) : 2 ^ trailZerosGo k n ∣ n := by
  induction k generalizing n with
  | zero => exact one_dvd n
  | succ k ih =>
    unfold trailZerosGo
    split
    case isTrue => exact one_dvd n
    case isFalse hodd =>
      have hn : n / 2 * 2 = n := by omega
      rw [pow_succ]
      exact (Nat.mul_dvd_mul_right (ih (n / 2)) 2).trans hn.dvd

theorem testBit_trailZerosGo {k n : Nat} (h0 : n ≠ 0) (h : n < 2 ^ k) : n.testBit (trailZerosGo k n) = true := by
  induction k generalizing n with
  | zero => omega
  | succ k ih =>
    unfold trailZerosGo
    split
    case isTrue hodd => simp [Nat.testBit_zero, hodd]
    case isFalse =>
      rw [Nat.testBit_succ]
      exact ih (by omega) (by omega)

theorem popGo_eq_length (k n : Nat) : popGo k n = ((List.range k).filter (fun i => n.testBit i)).length := by
  induction k generalizing n with
  | zero => rfl
  | succ k ih =>
    rw [popGo, ih, List.range_succ_eq_map, List.filter_cons, List.filter_map, Nat.testBit_zero]
    have : ((fun i => n.testBit i) ∘ Nat.succ) = fun i => (n / 2).testBit i := funext fun i => Nat.testBit_succ n i
    rw [this]
    rcases Nat.mod_two_eq_zero_or_one n with h | h <;> simp [h, Nat.add_comm]

theorem toNat_popc64 (x : Word) : (popc64 x).toNat = ((List.range 64).filter (fun i => x.getLsbD i)).length := by
  have h : ((List.range 64).filter (fun i => x.toNat.testBit i)).length ≤ 64 := (List.length_filter_le _ _).trans_eq List.length_range
  rw [popc64, popGo_eq_length]
  exact toNat_ofNat_of_le h

/-- Settles O22: the counts by induction on their width, the fields by reading their positions as numbers. -/
theorem scalarSelectAndFields : Obligations.ScalarSelectAndFields := by
  intro d a b c
  refine ⟨answers_of (exec_sel d a b c) fun _ _ => rfl, answers_scalar2 (exec_bext d a b) bext64_eq, ?_, clz64, ctz64, popc64,
    answers_scalar1 (exec_clz d a) fun _ => rfl, answers_scalar1 (exec_ctz d a) fun _ => rfl, answers_scalar1 (exec_popc d a) fun _ => rfl,
    fun x => ?_, fun x => ?_, rfl, rfl, toNat_popc64⟩
  · exact answers_of (exec_bins d a b c) fun s u => by simp only [bins64_eq]
  · rw [toNat_clz64]
    exact ⟨leadZeros_le _ _, lt_two_pow_sub_leadZeros x.isLt, fun h => two_pow_le_of_leadZeros (BitVec.toNat_ne.mp h) x.isLt⟩
  · rw [toNat_ctz64]
    exact ⟨trailZerosGo_le _ _, Nat.mod_eq_zero_of_dvd (two_pow_trailZerosGo_dvd _ _), fun h => testBit_trailZerosGo (BitVec.toNat_ne.mp h) x.isLt⟩

/-! ## Immediates (R49, R50) -/

/-- The two's complement reading of a number of `w` bits. -/
theorem sRead_of_lt {w x : Nat} (hw : 0 < w) (h : x < 2 ^ w) : sRead w x = if 2 ^ (w - 1) ≤ x then (x : Int) - 2 ^ w else x := by
  have hb : (w != 0) = true := bne_iff_ne.mpr hw.ne'
  simp only [sRead, hb, Nat.mod_eq_of_lt h, Bool.true_and, decide_eq_true_eq]

theorem sRead_mod {w : Nat} (x : Nat) : sRead w (x % 2 ^ w) = sRead w x := by
  simp only [sRead, Nat.mod_mod]

/-- The top bit of the low `w` bits decides their sign. -/
theorem two_pow_le_mod_iff {w x : Nat} (hw : 0 < w) : 2 ^ (w - 1) ≤ x % 2 ^ w ↔ x.testBit (w - 1) = true := by
  obtain ⟨m, rfl⟩ := Nat.exists_eq_succ_of_ne_zero hw.ne'
  have hlow : x % 2 ^ m < 2 ^ m := Nat.mod_lt _ (Nat.two_pow_pos m)
  rw [Nat.succ_sub_one, Nat.testBit_eq_decide_div_mod_eq, decide_eq_true_iff, Nat.succ_eq_add_one, Nat.mod_pow_succ]
  rcases Nat.mod_two_eq_zero_or_one (x / 2 ^ m) with h | h <;> rw [h] <;> omega

theorem signExt_eq {n : Nat} (hn : 0 < n) (x : Word) : signExt n x =
    BitVec.ofInt 64 (if x.getLsbD (n - 1) then (x.toNat % 2 ^ n : Int) - 2 ^ n else x.toNat % 2 ^ n) := by
  rw [signExt, ← sRead_mod, sRead_of_lt hn (Nat.mod_lt _ (Nat.two_pow_pos n))]
  simp only [two_pow_le_mod_iff hn, BitVec.testBit_toNat]
  norm_cast

/-- What a field of an operation raises, it raises in every state. -/
theorem mem_issueCauses_of_mem_slotCauses {k : Nat} {i : Instr} (hk : k ∈ slotCauses i) (f : BitVec 128) (h : Bool) : k ∈ issueCauses f h i :=
  List.mem_append_left _ (List.mem_append_left _ hk)

/-- A width of 0 is an illegal encoding of SEXT (R49). -/
theorem issueCauses_sext_zero (f : BitVec 128) (h : Bool) (d a : BitVec 6) : issueCauses f h (.sext d a 0) ≠ [] := by
  have hs : slotCauses (.sext d a 0) = ckDst d ++ ckOpd a ++ [1] := rfl
  exact List.ne_nil_of_mem (mem_issueCauses_of_mem_slotCauses (hs ▸ List.mem_append_right _ (List.mem_singleton_self 1)) f h)

theorem imm13Z_eq (k : BitVec 13) : imm13Z k = BitVec.ofNat 64 k.toNat := (BitVec.ofNat_toNat 64 k).symm

theorem add_imm13S_eq (x : Word) (k : BitVec 13) : x + imm13S k = BitVec.ofInt 64 (x.toInt + k.toInt) := by
  rw [BitVec.ofInt_add, BitVec.ofInt_toInt]
  rfl

theorem imm13S_toInt (k : BitVec 13) : (imm13S k).toInt = k.toInt := BitVec.toInt_signExtend_of_le (by omega)

theorem imm13S_toNat (k : BitVec 13) : ((imm13S k).toNat : Int) = k.toInt % 2 ^ 64 := by
  rw [imm13S, BitVec.signExtend, BitVec.toNat_ofInt]
  omega

theorem lui_eq (c : BitVec 19) : c.signExtend 64 <<< 13 = BitVec.ofInt 64 (c.toInt * 2 ^ 13) := by
  rw [BitVec.shiftLeft_eq_mul_twoPow, BitVec.ofInt_mul]
  rfl

/-- Settles O23: SEXT's width is not 0, for its decode check refuses that. -/
theorem scalarImmediateForms : Obligations.ScalarImmediateForms := by
  intro d a n k c
  refine ⟨answers_scalar1 (exec_addi d a k) fun x => add_imm13S_eq x k, answers_scalar1 (exec_andi d a k) fun _ => by rw [imm13Z_eq],
    answers_scalar1 (exec_ori d a k) fun _ => by rw [imm13Z_eq], answers_scalar1 (exec_xori d a k) fun _ => by rw [imm13Z_eq],
    answers_scalar1 (exec_shli d a n) fun x => shiftLeft_eq_ofNat x _, answers_scalar1 (exec_shri d a n) fun x => ushiftRight_eq_ofNat x _,
    answers_scalar1 (exec_sari d a n) fun x => sshiftRight_eq_ofInt x _, answers_scalar1 (exec_ceqi d a k) fun x => b2w_eq_truth ?_,
    answers_scalar1 (exec_clti d a k) fun x => b2w_eq_truth ?_, answers_scalar1 (exec_cltui d a k) fun x => b2w_eq_truth ?_, ?_,
    answers_scalar1 (exec_zext d a n) fun _ => rfl, answers_of (exec_movi d c) fun _ _ => rfl,
    answers_of (exec_lui d c) fun s u => by rw [lui_eq]⟩
  · rw [beq_iff_eq, ← imm13S_toInt, BitVec.toInt_inj]
  · rw [BitVec.slt_iff_toInt_lt, imm13S_toInt]
  · rw [BitVec.ult_iff_toNat_lt, ← imm13S_toNat, Int.ofNat_lt]
  · by_cases hn : n = 0
    · subst hn
      exact fun s b hb => absurd hb.2 (issueCauses_sext_zero _ _ _ _)
    · exact answers_scalar1 (exec_sext d a n) (signExt_eq (Nat.pos_of_ne_zero (BitVec.toNat_ne.mp hn)))

end Sys2Proof.Proofs

/-! # Scalar loads, stores and atomics (02_scalar_instructions R52 to R59)

Loads, stores and atomics check their base, the address's alignment, the data and the window in one order; one lemma for each outcome of each
operation says what it does then. -/

namespace Sys2Proof.Proofs
open Sys2Proof.Machine Sys2Proof.Laws

/-! ## Little-endian numbers in memory -/

theorem leNat_lt (l : List Byte) : leNat l < 2 ^ (8 * l.length) := by
  induction l with
  | nil => exact Nat.one_pos
  | cons b r ih =>
    rw [leNat, List.length_cons, Nat.mul_succ, Nat.pow_add]
    have := b.isLt
    omega

@[simp] theorem length_memRead (m : List Host.Cell) (a n : Nat) : (memRead m a n).length = n := by
  induction n generalizing a with
  | zero => rfl
  | succ n ih => rw [memRead, List.length_cons, ih]

theorem readNat_lt (s : State) (a n : Nat) : readNat s a n < 2 ^ (8 * n) := by
  simpa [readNat, readBytes] using leNat_lt (readBytes s a n)

@[simp] theorem length_leBytes (n x : Nat) : (leBytes n x).length = n := by
  induction n generalizing x with
  | zero => rfl
  | succ n ih => rw [leBytes, List.length_cons, ih]

theorem leNat_leBytes (n x : Nat) : leNat (leBytes n x) = x % 2 ^ (8 * n) := by
  induction n generalizing x with
  | zero => simp [leBytes, leNat, Nat.mod_one]
  | succ n ih => rw [leBytes, leNat, ih, BitVec.toNat_ofNat, Nat.mul_succ, Nat.add_comm (8 * n), Nat.pow_add, Nat.mod_mul]

/-- Bytes that stand in memory one by one are read together. -/
theorem memRead_eq {m : List Host.Cell} {a : Nat} {l : List Byte} (h : ∀ i, i < l.length → memGet m (a + i) = l.getD i 0) :
    memRead m a l.length = l := by
  induction l generalizing a with
  | nil => rfl
  | cons b r ih =>
    rw [List.length_cons, memRead]
    congr 1
    · simpa using h 0 (Nat.succ_pos _)
    · refine ih fun i hi => ?_
      rw [Nat.add_assoc, Nat.add_comm 1]
      simpa using h (i + 1) (Nat.succ_lt_succ hi)

theorem memRead_memWrite {m : List Host.Cell} (hm : Memory.wf m = true) (a : Nat) (l : List Byte) :
    memRead (memWrite m a l) a l.length = l :=
  memRead_eq fun i hi => by rw [memGet_memWrite l m a _ hm, if_pos (by omega), Nat.add_sub_cancel_left]

/-! ## Loads (R52 to R54, R56) -/

/-- What a load of `w` bytes gives from the number that they hold: the signed types extend its sign (R53). -/
theorem extend_eq {w x : Nat} (signed : Bool) (hw : 0 < w) (hx : x < 2 ^ (8 * w)) :
    extend signed w x = if signed = true ∧ 2 ^ (8 * w - 1) ≤ x then BitVec.ofInt 64 ((x : Int) - 2 ^ (8 * w)) else BitVec.ofNat 64 x := by
  cases signed with
  | false => simp [extend]
  | true =>
    simp only [extend, if_true, true_and, sRead_of_lt (by omega : 0 < 8 * w) hx]
    split
    · rfl
    · exact BitVec.ofInt_natCast _ _

/-- The effective address of an operand and an offset (R52). -/
def baseOffset (a : BitVec 6) (o : BitVec 13) (s : State) (u : Bundle) : Word := (opd s u 0 a).bits + o.signExtend 64

/-- The value of `w` bytes at an address, extended by the type (R53). -/
def loadedWord (signed : Bool) (w : Nat) (ea : Word) (s : State) (u : Bundle) : Word :=
  let x := readNat s (placeP u.seq ea.toNat) w
  if signed = true ∧ 2 ^ (8 * w - 1) ≤ x then BitVec.ofInt 64 ((x : Int) - 2 ^ (8 * w)) else BitVec.ofNat 64 x

/-- What reading bytes does to the bundle: one error record where they are damaged, and the value, poisoned then, as a result. -/
def loadInto (signed : Bool) (w : Nat) (d : BitVec 6) (k : Nat) (ea : Word) (s : State) (u : Bundle) : Bundle :=
  let r := loadValue s u signed w ea.toNat
  setScalar { u with errs := u.errs ++ r.2 } d k r.1

theorem loadValue_eq {w : Nat} (hw : 0 < w) (signed : Bool) (ea : Word) (s : State) (u : Bundle) :
    loadValue s u signed w ea.toNat =
      ({ bits := loadedWord signed w ea s u, poison := poisoned s (placeP u.seq ea.toNat) w },
       if poisoned s (placeP u.seq ea.toNat) w then [damage u.seq 2 1] else []) := by
  rw [loadValue, extend_eq signed hw (readNat_lt _ _ _)]
  rfl

theorem loadInto_undamaged {w : Nat} (hw : 0 < w) (signed : Bool) (d : BitVec 6) (k : Nat) {ea : Word} {s : State} {u : Bundle}
    (h : poisoned s (placeP u.seq ea.toNat) w = false) :
    loadInto signed w d k ea s u = setScalar u d k { bits := loadedWord signed w ea s u, poison := false } := by
  simp [loadInto, loadValue_eq hw, h]

theorem loadInto_damaged {w : Nat} (hw : 0 < w) (signed : Bool) (d : BitVec 6) (k : Nat) {ea : Word} {s : State} {u : Bundle}
    (h : poisoned s (placeP u.seq ea.toNat) w = true) :
    loadInto signed w d k ea s u =
      setScalar { u with errs := u.errs ++ [damage u.seq 2 1] } d k { bits := loadedWord signed w ea s u, poison := true } := by
  simp [loadInto, loadValue_eq hw, h]

section Loads
variable {i : Instr} {signed : Bool} {w : Nat} {d a : BitVec 6} {o : BitVec 13} {s : State} {u : Bundle}

theorem loadOp_eq : loadOp signed w d a o s u =
    if (opd s u 0 a).poison then addPoison u
    else if (baseOffset a o s u).toNat % w ≠ 0 then addFault u 5 0
    else if !inWindow u.start (baseOffset a o s u).toNat w then addFatal u 0x01 (baseOffset a o s u)
    else loadInto signed w d 4 (baseOffset a o s u) s u := rfl

theorem loadSpecOp_eq : loadSpecOp signed w d a o s u =
    if (opd s u 0 a).poison || (baseOffset a o s u).toNat % w != 0 || !inWindow u.start (baseOffset a o s u).toNat w then
      setScalar u d 4 { bits := 0, poison := true }
    else loadInto signed w d 4 (baseOffset a o s u) s u := rfl

theorem loadOp_poisoned (hx : (opd s u 0 a).poison = true) : loadOp signed w d a o s u = addFatal u 0x03 0 := by
  rw [loadOp_eq, if_pos hx, addPoison]

theorem loadOp_misaligned (hx : (opd s u 0 a).poison = false) (ha : (baseOffset a o s u).toNat % w ≠ 0) :
    loadOp signed w d a o s u = addFault u 5 0 := by
  simp [loadOp_eq, hx, ha]

theorem loadOp_outside (hx : (opd s u 0 a).poison = false) (ha : (baseOffset a o s u).toNat % w = 0)
    (hw : inWindow u.start (baseOffset a o s u).toNat w = false) :
    loadOp signed w d a o s u = addFatal u 0x01 (baseOffset a o s u) := by
  simp [loadOp_eq, hx, ha, hw]

theorem loadOp_accessible (hx : (opd s u 0 a).poison = false) (h : Accessible u (baseOffset a o s u) w) :
    loadOp signed w d a o s u = loadInto signed w d 4 (baseOffset a o s u) s u := by
  simp [loadOp_eq, hx, h.1, h.2]

theorem loadSpecOp_accessible (hx : (opd s u 0 a).poison = false) (h : Accessible u (baseOffset a o s u) w) :
    loadSpecOp signed w d a o s u = loadInto signed w d 4 (baseOffset a o s u) s u := by
  simp [loadSpecOp_eq, hx, h.1, h.2]

theorem loadSpecOp_elsewhere (h : (opd s u 0 a).poison = true ∨ (baseOffset a o s u).toNat % w ≠ 0 ∨
    inWindow u.start (baseOffset a o s u).toNat w = false) :
    loadSpecOp signed w d a o s u = setScalar u d 4 { bits := 0, poison := true } := by
  rw [loadSpecOp_eq, if_pos]
  simpa [or_assoc] using h

/-- A load completes where its base is clean and its access is aligned and inside the window. -/
def LoadCompletes (i : Instr) (signed : Bool) (w : Nat) (d a : BitVec 6) (o : BitVec 13) : Prop :=
  let ea := baseOffset a o
  AnswersWhen i (fun s u => (opd s u 0 a).poison = false ∧ Accessible u (ea s u) w ∧ poisoned s (placeP u.seq (ea s u).toNat) w = false)
    (fun s u => setScalar u d 4 { bits := loadedWord signed w (ea s u) s u, poison := false }) ∧
  AnswersWhen i (fun s u => (opd s u 0 a).poison = false ∧ Accessible u (ea s u) w ∧ poisoned s (placeP u.seq (ea s u).toNat) w = true)
    (fun s u => setScalar { u with errs := u.errs ++ [damage u.seq 2 1] } d 4 { bits := loadedWord signed w (ea s u) s u, poison := true })

theorem loadCompletes_of {op : State → Bundle → Bundle} (hw : 0 < w) (he : ∀ s, exec i s = runSlot 2 i op s)
    (hop : ∀ s u, (opd s u 0 a).poison = false → Accessible u (baseOffset a o s u) w → op s u = loadInto signed w d 4 (baseOffset a o s u) s u) :
    LoadCompletes i signed w d a o :=
  ⟨answersWhen_of he fun s u ⟨hx, ha, hp⟩ => by rw [hop s u hx ha, loadInto_undamaged hw signed d 4 hp],
   answersWhen_of he fun s u ⟨hx, ha, hp⟩ => by rw [hop s u hx ha, loadInto_damaged hw signed d 4 hp]⟩

theorem load_completes (hw : 0 < w) (he : ∀ s, exec i s = runSlot 2 i (loadOp signed w d a o) s) : LoadCompletes i signed w d a o :=
  loadCompletes_of hw he fun _ _ => loadOp_accessible

theorem loadSpec_completes (hw : 0 < w) (he : ∀ s, exec i s = runSlot 2 i (loadSpecOp signed w d a o) s) : LoadCompletes i signed w d a o :=
  loadCompletes_of hw he fun _ _ => loadSpecOp_accessible

/-- The checks of LD and LDA in their order (R53). -/
def LoadChecks (i : Instr) (w : Nat) (a : BitVec 6) (o : BitVec 13) : Prop :=
  let ea := baseOffset a o
  AnswersWhen i (fun s u => (opd s u 0 a).poison = true) (fun _ u => addFatal u 0x03 0) ∧
  AnswersWhen i (fun s u => (opd s u 0 a).poison = false ∧ (ea s u).toNat % w ≠ 0) (fun _ u => addFault u 5 0) ∧
  AnswersWhen i (fun s u => (opd s u 0 a).poison = false ∧ (ea s u).toNat % w = 0 ∧ inWindow u.start (ea s u).toNat w = false)
    (fun s u => addFatal u 0x01 (ea s u))

theorem load_checks (he : ∀ s, exec i s = runSlot 2 i (loadOp signed w d a o) s) : LoadChecks i w a o :=
  ⟨answersWhen_of he fun _ _ => loadOp_poisoned, answersWhen_of he fun _ _ ⟨hx, h⟩ => loadOp_misaligned hx h,
   answersWhen_of he fun _ _ ⟨hx, h, hw⟩ => loadOp_outside hx h hw⟩

/-- LDS faults and stops nowhere (R54). -/
theorem loadSpec_elsewhere (he : ∀ s, exec i s = runSlot 2 i (loadSpecOp signed w d a o) s) :
    AnswersWhen i (fun s u => (opd s u 0 a).poison = true ∨ (baseOffset a o s u).toNat % w ≠ 0 ∨
      inWindow u.start (baseOffset a o s u).toNat w = false) (fun _ u => setScalar u d 4 { bits := 0, poison := true }) :=
  answersWhen_of he fun _ _ => loadSpecOp_elsewhere

end Loads

/-- Settles O27: LD, LDA and LDS read alike where the access is permitted, and differ in what they do elsewhere. -/
theorem loadsComplete : Obligations.LoadsComplete := by
  constructor
  · intro d a o ea damaged value ld
    have plain {i signed w} (hw : 0 < w) (he : ∀ s, exec i s = runSlot 2 i (loadOp signed w d a o) s) : ld i signed w := load_completes hw he
    have spec {i signed w} (hw : 0 < w) (he : ∀ s, exec i s = runSlot 2 i (loadSpecOp signed w d a o) s) : ld i signed w :=
      loadSpec_completes hw he
    have h1 : 0 < 1 := by decide
    have h2 : 0 < 2 := by decide
    have h4 : 0 < 4 := by decide
    have h8 : 0 < 8 := by decide
    exact ⟨plain h1 (exec_ldI8 d a o), plain h1 (exec_ldN8 d a o), plain h2 (exec_ldI16 d a o), plain h2 (exec_ldN16 d a o),
      plain h4 (exec_ldI32 d a o), plain h4 (exec_ldN32 d a o), plain h8 (exec_ldI64 d a o), plain h4 (exec_ldaI32 d a o),
      plain h4 (exec_ldaN32 d a o), plain h8 (exec_ldaI64 d a o), spec h1 (exec_ldsI8 d a o), spec h1 (exec_ldsN8 d a o),
      spec h2 (exec_ldsI16 d a o), spec h2 (exec_ldsN16 d a o), spec h4 (exec_ldsI32 d a o), spec h4 (exec_ldsN32 d a o),
      spec h8 (exec_ldsI64 d a o)⟩
  · intro d a o ea ld lds
    have plain {i signed w} (he : ∀ s, exec i s = runSlot 2 i (loadOp signed w d a o) s) : ld i w := load_checks he
    have spec {i signed w} (he : ∀ s, exec i s = runSlot 2 i (loadSpecOp signed w d a o) s) : lds i w := loadSpec_elsewhere he
    exact ⟨plain (exec_ldI8 d a o), plain (exec_ldN8 d a o), plain (exec_ldI16 d a o), plain (exec_ldN16 d a o), plain (exec_ldI32 d a o),
      plain (exec_ldN32 d a o), plain (exec_ldI64 d a o), plain (exec_ldaI32 d a o), plain (exec_ldaN32 d a o), plain (exec_ldaI64 d a o),
      spec (exec_ldsI8 d a o), spec (exec_ldsN8 d a o), spec (exec_ldsI16 d a o), spec (exec_ldsN16 d a o), spec (exec_ldsI32 d a o),
      spec (exec_ldsN32 d a o), spec (exec_ldsI64 d a o)⟩

/-! ## Stores (R55, R56) -/

section Stores
variable {i : Instr} {w : Nat} {d a : BitVec 6} {o : BitVec 13} {s : State} {u : Bundle}

theorem storeOp_eq : storeOp w d a o s u =
    if (opd s u 0 a).poison then addPoison u
    else if (baseOffset a o s u).toNat % w ≠ 0 then addFault u 5 0
    else if (opd s u 1 d).poison then addPoison u
    else if !inWindow u.start (baseOffset a o s u).toNat w then addFatal u 0x01 (baseOffset a o s u)
    else addStore u (placeP u.seq (baseOffset a o s u).toNat) (leBytes w (opd s u 1 d).bits.toNat) := rfl

theorem storeOp_poisonedBase (hx : (opd s u 0 a).poison = true) : storeOp w d a o s u = addFatal u 0x03 0 := by
  rw [storeOp_eq, if_pos hx, addPoison]

theorem storeOp_misaligned (hx : (opd s u 0 a).poison = false) (ha : (baseOffset a o s u).toNat % w ≠ 0) :
    storeOp w d a o s u = addFault u 5 0 := by
  simp [storeOp_eq, hx, ha]

theorem storeOp_poisonedData (hx : (opd s u 0 a).poison = false) (ha : (baseOffset a o s u).toNat % w = 0)
    (hv : (opd s u 1 d).poison = true) : storeOp w d a o s u = addFatal u 0x03 0 := by
  simp [storeOp_eq, hx, ha, hv, addPoison]

theorem storeOp_outside (hx : (opd s u 0 a).poison = false) (hv : (opd s u 1 d).poison = false)
    (ha : (baseOffset a o s u).toNat % w = 0) (hw : inWindow u.start (baseOffset a o s u).toNat w = false) :
    storeOp w d a o s u = addFatal u 0x01 (baseOffset a o s u) := by
  simp [storeOp_eq, hx, ha, hv, hw]

theorem storeOp_accessible (hx : (opd s u 0 a).poison = false) (hv : (opd s u 1 d).poison = false)
    (h : Accessible u (baseOffset a o s u) w) :
    storeOp w d a o s u = addStore u (placeP u.seq (baseOffset a o s u).toNat) (leBytes w (opd s u 1 d).bits.toNat) := by
  simp [storeOp_eq, hx, hv, h.1, h.2]

/-- Each scalar store runs the one store operation at its width. -/
theorem exec_of_storeForm (h : storeForm i = some (w, a, o, d)) (s : State) : exec i s = runSlot 2 i (storeOp w d a o) s := by
  unfold storeForm at h
  split at h
  case h_7 => cases h
  all_goals
    cases h
    rfl

end Stores

/-! ## The commit of a bundle that only stores (R57) -/

/-- The commit with no transfer moves the program counter and advances the shadow and the loops. -/
theorem flowOn_frame (q : Seq) (x : BitVec 11) :
    ∃ p h l, flowOn q x = { q with pc := p, shadow := h, loops := l } := by
  unfold flowOn
  split
  · split
    · exact ⟨_, _, _, rfl⟩
    · exact ⟨_, _, _, rfl⟩
  · exact ⟨_, _, _, rfl⟩

theorem getSeq_performStores (l : List StoreOp) (s : State) (n : Nat) : getSeq (performStores l s) n = getSeq s n := by
  induction l generalizing s with
  | nil => rfl
  | cons o r ih => exact ih _

/-- Of memory a commit changes what the bundle's stores write. -/
theorem commitBundle_mem (s : State) (b : Bundle) :
    (commitBundle s b).mem = (performStores b.stores { s with events := s.events ++ b.errs }).mem := by
  unfold commitBundle
  dsimp only
  split
  · exact modCtx_mem _ _ _
  · rfl

/-- Of the sequencers a commit changes the bundle's own. -/
theorem getSeq_commitBundle_other (s : State) (b : Bundle) {n : Nat} (h : n ≠ b.seq) : getSeq (commitBundle s b) n = getSeq s n := by
  unfold commitBundle
  dsimp only
  split
  · rw [getSeq_modCtx, getSeq_setSeq, if_neg h, getSeq_performStores]
    rfl
  · rw [getSeq_setSeq, if_neg h, getSeq_performStores]
    rfl

/-- A bundle that asks for no QUIET and no END leaves its sequencer as its slots and its control slot have. -/
theorem getSeq_commitBundle_same (s : State) (b : Bundle) (hq : b.quiet = none) (he : b.ends = false) :
    getSeq (commitBundle s b) b.seq =
      { flow { b.work with stallCount := 0, stallDetail := 0 } b.start.pc b.ctl with drain := b.drains } := by
  unfold commitBundle
  rw [hq, he]
  dsimp only
  split
  · rw [getSeq_modCtx, getSeq_setSeq_same]
    rfl
  · rw [getSeq_setSeq_same]
    rfl

/-- The bundle that a scalar memory operation is, with no other bundle open. -/
def loneBundle (s : State) : Bundle := { openBundle s s.cur with slot := 2 }

/-- A permitted operation with no other bundle open is the end of that bundle with its effect. -/
theorem runSlot_lone (i : Instr) (op : State → Bundle → Bundle) (s : State) (hb : s.bundle = none)
    (hc : issueCauses s.faccept (getSeq s s.cur).sr.hstat i = []) :
    runSlot 2 i op s = .next (closeBundle { s with free := s.free + 1 } (op s (loneBundle s))) := by
  rw [runSlot_alone _ _ _ _ hb]
  exact congrArg (fun b => Host.Outcome.next (closeBundle _ b)) (slotEffect_ok i op s (loneBundle s) hc)

/-- A bundle whose one request is a store commits, where no back-edge faults. -/
theorem closeBundle_store (s r : State) (p : Nat) (l : List Byte) (hback : backEdgeFault (openBundle s s.cur) = []) :
    closeBundle r (addStore (loneBundle s) p l) = commitBundle { r with bundle := none } (addStore (loneBundle s) p l) :=
  closeBundle_commit _ _ ⟨rfl, hback, rfl, rfl⟩

/-- What a bundle leaves whose one request is a store: its bytes in memory, and its sequencer at the next bundle. -/
theorem commitBundle_store (s : State) (p : Nat) (l : List Byte) (r : State) (hr : r.mem = s.mem) (hs : r.seqs = s.seqs) :
    let t := commitBundle r (addStore (loneBundle s) p l)
    t.mem = memWrite s.mem p l ∧ (∀ n, n ≠ s.cur → getSeq t n = getSeq s n) ∧
      (getSeq t s.cur).g = (getSeq s s.cur).g ∧ (getSeq t s.cur).q = (getSeq s s.cur).q ∧ (getSeq t s.cur).f = (getSeq s s.cur).f ∧
      (getSeq t s.cur).sr = (getSeq s s.cur).sr := by
  have hsame : getSeq (commitBundle r (addStore (loneBundle s) p l)) s.cur = { flowOn { getSeq s s.cur with stallCount := 0, stallDetail := 0 }
      (getSeq s s.cur).pc with drain := none } := getSeq_commitBundle_same r (addStore (loneBundle s) p l) rfl rfl
  obtain ⟨pc, h, loops, hflow⟩ := flowOn_frame { getSeq s s.cur with stallCount := 0, stallDetail := 0 } (getSeq s s.cur).pc
  rw [hflow] at hsame
  refine ⟨?_, fun n hn => ?_, ?_⟩
  · rw [commitBundle_mem, ← hr]
    rfl
  · rw [getSeq_commitBundle_other _ _ hn, getSeq, hs]
    rfl
  · rw [hsame]
    exact ⟨rfl, rfl, rfl, rfl⟩

/-- Settles O28: the checks one by one, and for a store alone the commit of its bundle. -/
theorem storesComplete : Obligations.StoresComplete := by
  constructor
  · intro i w a o d hf
    have he := exec_of_storeForm hf
    exact ⟨answersWhen_of he fun _ _ ⟨hx, hv, h⟩ => storeOp_accessible hx hv h, answersWhen_of he fun _ _ => storeOp_poisonedBase,
      answersWhen_of he fun _ _ ⟨hx, ha⟩ => storeOp_misaligned hx ha,
      answersWhen_of he fun _ _ ⟨hx, ha, hv⟩ => storeOp_poisonedData hx ha hv,
      answersWhen_of he fun _ _ ⟨hx, hv, ha, hw⟩ => storeOp_outside hx hv ha hw⟩
  · intro i w a o d s hf hb hm q x v ea hc hx hv ha hw hback
    let l := leBytes w v.bits.toNat
    let r : State := { s with free := s.free + 1, bundle := none }
    let t := commitBundle r (addStore (loneBundle s) (placeP s.cur ea) l)
    have hrun : exec i s = .next t := by
      rw [exec_of_storeForm hf, runSlot_lone _ _ _ hb hc, storeOp_accessible (u := loneBundle s) hx hv ⟨ha, hw⟩]
      exact congrArg Host.Outcome.next (closeBundle_store s _ _ _ hback)
    obtain ⟨hmem, hother, hkeep⟩ := commitBundle_store s (placeP s.cur ea) l r rfl rfl
    have hlen : l.length = w := length_leBytes w _
    refine ⟨t, hrun, ?_, fun m hmo => ?_, hother, hkeep⟩
    · have hread := memRead_memWrite hm (placeP s.cur ea) l
      rw [hlen] at hread
      rw [readNat, readBytes, hmem, hread, leNat_leBytes]
    · rw [hmem, memGet_memWrite l s.mem _ _ hm, if_neg (by omega)]

/-! ## Atomics (R58, R59) -/

/-- The two's complement reading of a number of `w` bytes. -/
def signedBytes (w y : Nat) : Int := if 2 ^ (8 * w - 1) ≤ y then (y : Int) - 2 ^ (8 * w) else y

theorem sRead_bytes {w y : Nat} (hw : 0 < w) (h : y < 2 ^ (8 * w)) : sRead (8 * w) y = signedBytes w y := sRead_of_lt (by omega) h

/-- The table of R58. -/
def amoTable (kind w y v : Nat) : Nat :=
  match kind with
  | 0 => (y + v) % 2 ^ (8 * w)
  | 1 => y &&& v
  | 2 => y ||| v
  | 3 => y ^^^ v
  | 4 => if signedBytes w y ≤ signedBytes w v then y else v
  | 5 => if signedBytes w y ≤ signedBytes w v then v else y
  | 6 => min y v
  | 7 => max y v
  | _ => v

theorem amoFn_eq {w y v : Nat} (kind : Nat) (hw : 0 < w) (hy : y < 2 ^ (8 * w)) (hv : v < 2 ^ (8 * w)) :
    amoFn kind w y v = amoTable kind w y v := by
  have hm := sRead_bytes hw hy
  have hn := sRead_bytes hw hv
  match kind with
  | 0 | 1 | 2 | 3 | 6 | 7 | _ + 8 => rfl
  | 4 | 5 => simp only [amoFn, amoTable, hm, hn]

section Atomics
variable {i : Instr} {w : Nat} {d a b c : BitVec 6} {k : BitVec 4} {s : State} {u : Bundle} {bad : Bool} {new : Nat → Option Nat}

/-- What an atomic reads at its address. -/
def atomicOld (w : Nat) (a : BitVec 6) (s : State) (u : Bundle) : Nat := readNat s (placeP u.seq (opd s u 0 a).bits.toNat) w

/-- The result of an atomic: the old value, sign-extended, with latency 6; on damaged bytes poisoned and with an error record. -/
def atomicOut (w : Nat) (d a : BitVec 6) (bad : Bool) (s : State) (u : Bundle) : Bundle :=
  setScalar (if bad then { u with errs := u.errs ++ [damage u.seq 2 1] } else u) d 6
    { bits := BitVec.ofInt 64 (signedBytes w (atomicOld w a s u)), poison := bad }

/-- The old value as a result, and the new one, where there is one, as a store. -/
def storeNew (w : Nat) (d a : BitVec 6) (new : Nat → Option Nat) (s : State) (u : Bundle) : Bundle :=
  (new (atomicOld w a s u)).elim (atomicOut w d a false s u)
    (fun y => addStore (atomicOut w d a false s u) (placeP u.seq (opd s u 0 a).bits.toNat) (leBytes w y))

theorem loadInto_eq_atomicOut (hw : 0 < w) (h : poisoned s (placeP u.seq (opd s u 0 a).bits.toNat) w = bad) :
    loadInto true w d 6 (opd s u 0 a).bits s u = atomicOut w d a bad s u := by
  have hlt := readNat_lt s (placeP u.seq (opd s u 0 a).bits.toNat) w
  have hbits : loadedWord true w (opd s u 0 a).bits s u = BitVec.ofInt 64 (signedBytes w (atomicOld w a s u)) :=
    (extend_eq true hw hlt).symm.trans (congrArg (BitVec.ofInt 64) (sRead_bytes hw hlt))
  cases bad with
  | false => rw [loadInto_undamaged hw true d 6 h, hbits]; rfl
  | true => rw [loadInto_damaged hw true d 6 h, hbits]; rfl

theorem atomicOp_poisonedAddress {p : Bool} (hx : (opd s u 0 a).poison = true) : atomicOp w d a p new s u = addFatal u 0x03 0 := by
  rw [atomicOp, if_pos hx, addPoison]

theorem atomicOp_misaligned {p : Bool} (hx : (opd s u 0 a).poison = false) (ha : (opd s u 0 a).bits.toNat % w ≠ 0) :
    atomicOp w d a p new s u = addFault u 5 0 := by
  simp [atomicOp, hx, ha]

theorem atomicOp_poisonedData {p : Bool} (hx : (opd s u 0 a).poison = false) (ha : (opd s u 0 a).bits.toNat % w = 0) (hp : p = true) :
    atomicOp w d a p new s u = addFatal u 0x03 0 := by
  simp [atomicOp, hx, ha, hp, addPoison]

theorem atomicOp_outside {p : Bool} (hx : (opd s u 0 a).poison = false) (ha : (opd s u 0 a).bits.toNat % w = 0) (hp : p = false)
    (hw : inWindow u.start (opd s u 0 a).bits.toNat w = false) : atomicOp w d a p new s u = addFatal u 0x01 (opd s u 0 a).bits := by
  simp [atomicOp, hx, ha, hp, hw]

theorem atomicOp_damaged (hw : 0 < w) (hx : (opd s u 0 a).poison = false) (h : Accessible u (opd s u 0 a).bits w)
    (hp : poisoned s (placeP u.seq (opd s u 0 a).bits.toNat) w = true) : atomicOp w d a false new s u = atomicOut w d a true s u := by
  rw [← loadInto_eq_atomicOut hw hp]
  simp [atomicOp, loadInto, loadValue_eq hw, hx, h.1, h.2, hp]

theorem atomicOp_undamaged (hw : 0 < w) (hx : (opd s u 0 a).poison = false) (h : Accessible u (opd s u 0 a).bits w)
    (hp : poisoned s (placeP u.seq (opd s u 0 a).bits.toNat) w = false) : atomicOp w d a false new s u = storeNew w d a new s u := by
  rw [storeNew, ← loadInto_eq_atomicOut hw hp, atomicOld]
  cases hnew : new (readNat s (placeP u.seq (opd s u 0 a).bits.toNat) w) <;>
    simp [atomicOp, loadInto, loadValue_eq hw, hx, h.1, h.2, hp, hnew]

/-- Where an atomic completes: clean operands, an aligned address inside the window, and bytes of the given damage. -/
def AtomicReady (w : Nat) (a b : BitVec 6) (bad : Bool) (s : State) (u : Bundle) : Prop :=
  (opd s u 0 a).poison = false ∧ (opd s u 1 b).poison = false ∧ Accessible u (opd s u 0 a).bits w ∧
    poisoned s (placeP u.seq (opd s u 0 a).bits.toNat) w = bad

/-- The new value of AMO (R58), and of CAS (R59) where it finds its compare value. -/
def amoNew (w : Nat) (b : BitVec 6) (k : BitVec 4) (s : State) (u : Bundle) (old : Nat) : Option Nat :=
  some (amoFn k.toNat w old ((opd s u 1 b).bits.toNat % 2 ^ (8 * w)))

def casNew (w : Nat) (b c : BitVec 6) (s : State) (u : Bundle) (old : Nat) : Option Nat :=
  if old = (opd s u 1 b).bits.toNat % 2 ^ (8 * w) then some ((opd s u 2 c).bits.toNat % 2 ^ (8 * w)) else none

theorem amoOp_eq : amoOp w d a b k s u = atomicOp w d a (opd s u 1 b).poison (amoNew w b k s u) s u := rfl

theorem casOp_eq : casOp w d a b c s u = atomicOp w d a ((opd s u 1 b).poison || (opd s u 2 c).poison) (casNew w b c s u) s u := rfl

theorem amoOp_undamaged (hw : 0 < w) (h : AtomicReady w a b false s u) : amoOp w d a b k s u =
    addStore (atomicOut w d a false s u) (placeP u.seq (opd s u 0 a).bits.toNat)
      (leBytes w (amoTable k.toNat w (atomicOld w a s u) ((opd s u 1 b).bits.toNat % 2 ^ (8 * w)))) := by
  obtain ⟨hx, hy, hacc, hp⟩ := h
  have hnew := amoFn_eq k.toNat hw (readNat_lt s (placeP u.seq (opd s u 0 a).bits.toNat) w)
    (Nat.mod_lt (opd s u 1 b).bits.toNat (Nat.two_pow_pos (8 * w)))
  rw [amoOp_eq, hy, atomicOp_undamaged hw hx hacc hp, storeNew, amoNew, Option.elim_some, atomicOld, hnew]

theorem amoOp_damaged (hw : 0 < w) (h : AtomicReady w a b true s u) : amoOp w d a b k s u = atomicOut w d a true s u := by
  obtain ⟨hx, hy, hacc, hp⟩ := h
  rw [amoOp_eq, hy, atomicOp_damaged hw hx hacc hp]

theorem casOp_undamaged (hw : 0 < w) (h : AtomicReady w a b false s u) (hz : (opd s u 2 c).poison = false) : casOp w d a b c s u =
    if atomicOld w a s u = (opd s u 1 b).bits.toNat % 2 ^ (8 * w) then
      addStore (atomicOut w d a false s u) (placeP u.seq (opd s u 0 a).bits.toNat) (leBytes w ((opd s u 2 c).bits.toNat % 2 ^ (8 * w)))
    else atomicOut w d a false s u := by
  obtain ⟨hx, hy, hacc, hp⟩ := h
  rw [casOp_eq, hy, hz, Bool.or_false, atomicOp_undamaged hw hx hacc hp, storeNew, casNew]
  split
  · rfl
  · rfl

theorem casOp_damaged (hw : 0 < w) (h : AtomicReady w a b true s u) (hz : (opd s u 2 c).poison = false) :
    casOp w d a b c s u = atomicOut w d a true s u := by
  obtain ⟨hx, hy, hacc, hp⟩ := h
  rw [casOp_eq, hy, hz, Bool.or_false, atomicOp_damaged hw hx hacc hp]

/-- The checks of an atomic in their order, `p` being whether its data is poisoned. -/
def AtomicChecks (i : Instr) (w : Nat) (a : BitVec 6) (p : State → Bundle → Bool) : Prop :=
  AnswersWhen i (fun s u => (opd s u 0 a).poison = true) (fun _ u => addFatal u 0x03 0) ∧
  AnswersWhen i (fun s u => (opd s u 0 a).poison = false ∧ (opd s u 0 a).bits.toNat % w ≠ 0) (fun _ u => addFault u 5 0) ∧
  AnswersWhen i (fun s u => (opd s u 0 a).poison = false ∧ (opd s u 0 a).bits.toNat % w = 0 ∧ p s u = true) (fun _ u => addFatal u 0x03 0) ∧
  AnswersWhen i (fun s u => (opd s u 0 a).poison = false ∧ (opd s u 0 a).bits.toNat % w = 0 ∧ p s u = false ∧
    inWindow u.start (opd s u 0 a).bits.toNat w = false) (fun s u => addFatal u 0x01 (opd s u 0 a).bits)

theorem atomic_checks {op : State → Bundle → Bundle} {p : State → Bundle → Bool} {new : State → Bundle → Nat → Option Nat}
    (he : ∀ s, exec i s = runSlot 2 i op s) (hop : ∀ s u, op s u = atomicOp w d a (p s u) (new s u) s u) : AtomicChecks i w a p :=
  ⟨answersWhen_of he fun s u hx => (hop s u).trans (atomicOp_poisonedAddress hx),
   answersWhen_of he fun s u ⟨hx, ha⟩ => (hop s u).trans (atomicOp_misaligned hx ha),
   answersWhen_of he fun s u ⟨hx, ha, hp⟩ => (hop s u).trans (atomicOp_poisonedData hx ha hp),
   answersWhen_of he fun s u ⟨hx, ha, hp, hw⟩ => (hop s u).trans (atomicOp_outside hx ha hp hw)⟩

end Atomics

/-- Settles O29: AMO and CAS are one operation that differs in the value it stores. -/
theorem atomicsComplete : Obligations.AtomicsComplete := by
  intro d a b c k o x ok old out signed f amo cas checks
  have hamo {i w} (hw : 0 < w) (he : ∀ s, exec i s = runSlot 2 i (amoOp w d a b k) s) : amo i w :=
    ⟨answersWhen_of he fun _ _ => amoOp_undamaged hw, answersWhen_of he fun _ _ => amoOp_damaged hw⟩
  have hcas {i w} (hw : 0 < w) (he : ∀ s, exec i s = runSlot 2 i (casOp w d a b c) s) : cas i w :=
    ⟨answersWhen_of he fun _ _ ⟨h, hz⟩ => casOp_undamaged hw h hz, answersWhen_of he fun _ _ ⟨h, hz⟩ => casOp_damaged hw h hz⟩
  have camo {i w} (he : ∀ s, exec i s = runSlot 2 i (amoOp w d a b k) s) : checks i w false :=
    atomic_checks he fun s u => by rw [Bool.false_and, Bool.or_false, amoOp_eq]
  have ccas {i w} (he : ∀ s, exec i s = runSlot 2 i (casOp w d a b c) s) : checks i w true :=
    atomic_checks he fun _ _ => casOp_eq
  exact ⟨⟨hamo (by decide) (exec_amoI32 d a b k o), hamo (by decide) (exec_amoI64 d a b k o), hcas (by decide) (exec_casI32 d a b c x),
    hcas (by decide) (exec_casI64 d a b c x)⟩, camo (exec_amoI32 d a b k o), camo (exec_amoI64 d a b k o), ccas (exec_casI32 d a b c x),
    ccas (exec_casI64 d a b c x)⟩

end Sys2Proof.Proofs

/-! # Transfers of control (02_scalar_instructions R62 to R71)

Outside a shadow a taken transfer is one to its target, in a shadow the fault 0x04: `takeTransfer_clear` and `takeTransfer_shadow` say so once,
and here each operation is shown to take its transfer, or not, as its operand has it. -/

namespace Sys2Proof.Proofs
open Sys2Proof.Machine Sys2Proof.Laws

/-! ## Targets and conditions -/

theorem relTarget_eq (u : Bundle) (o : BitVec 15) : relTarget u o = BitVec.ofInt 11 (u.start.pc.toNat + o.toInt) := by
  rw [BitVec.ofInt_add, BitVec.ofInt_natCast, BitVec.ofNat_toNat, BitVec.setWidth_eq]
  rfl

theorem bits_low_eq_ofNat (x : Word) (n : Nat) : bits x 0 n = BitVec.ofNat n x.toNat := by
  apply BitVec.eq_of_toNat_eq
  rw [bits, BitVec.extractLsb'_toNat, Nat.shiftRight_zero, BitVec.toNat_ofNat]

/-- The conditions of a branch on an operand (01_long_word R23). -/
theorem condHolds_iff {c : BitVec 4} (hc : c ≠ 0) (x : Word) : condHolds c x = true ↔
    (c = 1 ∧ x.toInt = 0) ∨ (c = 2 ∧ x.toInt ≠ 0) ∨ (c = 3 ∧ x.toInt < 0) ∨ (c = 4 ∧ 0 ≤ x.toInt) ∨ (c = 5 ∧ 0 < x.toInt) ∨
      (c = 6 ∧ x.toInt ≤ 0) := by
  have hzero : x = 0#64 ↔ x.toInt = 0 := by rw [← BitVec.toInt_inj]; rfl
  have hn : c.toNat ≠ 0 := BitVec.toNat_ne.mp hc
  simp only [condHolds, ← BitVec.toNat_inj]
  generalize c.toNat = n at hn
  match n with
  | 0 => exact absurd rfl hn
  | 1 | 2 => simp [hzero]
  | 3 | 4 | 5 | 6 | _ + 7 => simp

section Transfers
variable {c : BitVec 4} {a : BitVec 6} {o : BitVec 15} {s : State} {u : Bundle}

/-! ## The operations -/

/-- BR in its slot (R63). -/
def branchOp (c : BitVec 4) (a : BitVec 6) (o : BitVec 15) (s : State) (u : Bundle) : Bundle :=
  if c = 0 then takeTransfer u (relTarget u o)
  else if (opd s u 0 a).poison then addPoison u
  else if condHolds c (opd s u 0 a).bits then takeTransfer u (relTarget u o)
  else u

theorem exec_br_eq (s : State) : exec (.br c a o) s = runSlot 1 (.br c a o) (branchOp c a o) s := rfl

/-- Whether a branch is taken: always with condition 0, else where its clean operand meets its condition. -/
def BranchHolds (c : BitVec 4) (a : BitVec 6) (s : State) (u : Bundle) : Prop :=
  let x := (opd s u 0 a).bits.toInt
  c = 0 ∨ (opd s u 0 a).poison = false ∧ ((c = 1 ∧ x = 0) ∨ (c = 2 ∧ x ≠ 0) ∨ (c = 3 ∧ x < 0) ∨ (c = 4 ∧ 0 ≤ x) ∨ (c = 5 ∧ 0 < x) ∨
    (c = 6 ∧ x ≤ 0))

theorem branchOp_taken (h : BranchHolds c a s u) : branchOp c a o s u = takeTransfer u (relTarget u o) := by
  by_cases hc : c = 0
  · rw [branchOp, if_pos hc]
  · obtain ⟨hx, hcond⟩ := h.resolve_left hc
    rw [branchOp, if_neg hc, hx, if_neg Bool.false_ne_true, if_pos ((condHolds_iff hc _).mpr hcond)]

theorem branchOp_not_taken (hc : c ≠ 0) (hx : (opd s u 0 a).poison = false) (h : ¬ BranchHolds c a s u) : branchOp c a o s u = u := by
  have hcond : ¬ condHolds c (opd s u 0 a).bits = true := fun hh => h (.inr ⟨hx, (condHolds_iff hc _).mp hh⟩)
  rw [branchOp, if_neg hc, hx, if_neg Bool.false_ne_true, if_neg hcond]

theorem branchOp_poisoned (hc : c ≠ 0) (hx : (opd s u 0 a).poison = true) : branchOp c a o s u = addFatal u 0x03 0 := by
  rw [branchOp, if_neg hc, if_pos hx, addPoison]

/-- JMPI, and RET with g31, in their slot (R64, R65). -/
def jumpOp (a : BitVec 6) (s : State) (u : Bundle) : Bundle :=
  if (opd s u 0 a).poison then addPoison (takeTransfer u (bits (opd s u 0 a).bits 0 11)) else takeTransfer u (bits (opd s u 0 a).bits 0 11)

theorem exec_jmpi_eq (s : State) : exec (.jmpi a) s = runSlot 1 (.jmpi a) (jumpOp a) s := rfl

theorem exec_ret_eq (s : State) : exec .ret s = runSlot 1 .ret (jumpOp 47) s := rfl

theorem jumpOp_clean (hx : (opd s u 0 a).poison = false) : jumpOp a s u = takeTransfer u (BitVec.ofNat 11 (opd s u 0 a).bits.toNat) := by
  rw [jumpOp, hx, if_neg Bool.false_ne_true, bits_low_eq_ofNat]

/-- Outside a shadow a jump through a poisoned operand consumes poison and nothing else (R44). -/
theorem jumpOp_poisoned_fatals (hs : u.start.shadow = none) (hx : (opd s u 0 a).poison = true) :
    (jumpOp a s u).fatals = u.fatals ++ [(u.slot, 0x03, 0)] := by
  rw [jumpOp, if_pos hx, takeTransfer_clear _ _ hs]
  rfl

/-- CALL in its slot (R65). -/
def callOp (o : BitVec 15) (u : Bundle) : Bundle :=
  setScalar (takeTransfer u (relTarget u o)) 47 1 { bits := (u.start.pc + 4).setWidth 64 }

theorem exec_call_eq (s : State) : exec (.call o) s = runSlot 1 (.call o) (fun _ u => callOp o u) s := rfl

/-- The link is a bundle number (R65). -/
theorem link_eq (p : BitVec 11) : (p + 4).setWidth 64 = BitVec.ofNat 64 ((p.toNat + 4) % 2048) := by
  rw [← BitVec.ofNat_toNat, BitVec.toNat_add]
  rfl

/-- LOOP in its slot (R66, R68). -/
def loopOp (a : BitVec 6) (o : BitVec 15) (s : State) (u : Bundle) : Bundle :=
  if u.start.shadow.isSome then addFault u 4 0
  else if (opd s u 0 a).poison then addPoison u
  else if fieldN (opd s u 0 a).bits 0 32 = 0 then { u with ctl := .skipLoop (relTarget u o + 1) }
  else { u with ctl := .enterLoop ⟨u.start.pc + 1, relTarget u o, fieldN (opd s u 0 a).bits 0 32⟩ }

theorem exec_loop_eq (s : State) : exec (.loop a o) s = runSlot 1 (.loop a o) (loopOp a o) s := rfl

theorem loopOp_shadow (hs : u.start.shadow.isSome = true) : loopOp a o s u = addFault u 4 0 := by
  rw [loopOp, if_pos hs]

theorem loopOp_poisoned (hs : u.start.shadow = none) (hx : (opd s u 0 a).poison = true) : loopOp a o s u = addFatal u 0x03 0 := by
  simp [loopOp, hs, hx, addPoison]

theorem loopOp_clean (hs : u.start.shadow = none) (hx : (opd s u 0 a).poison = false) : loopOp a o s u =
    if (opd s u 0 a).bits.toNat % 2 ^ 32 = 0 then { u with ctl := .skipLoop (BitVec.ofInt 11 (u.start.pc.toNat + o.toInt) + 1) }
    else { u with ctl := .enterLoop ⟨u.start.pc + 1, BitVec.ofInt 11 (u.start.pc.toNat + o.toInt), (opd s u 0 a).bits.toNat % 2 ^ 32⟩ } := by
  simp only [loopOp, hs, hx, relTarget_eq, fieldN_eq, Option.isSome_none, Bool.false_eq_true, if_false, Nat.pow_zero, Nat.div_one]

end Transfers

/-- Settles O31: each operation takes its transfer or does not, and a transfer is one or the fault by the shadow. -/
theorem transfersOfControl : Obligations.TransfersOfControl := by
  constructor
  · intro c a o clear inside x holds aim fault
    have htaken (u : Bundle) (hs : u.start.shadow = none) : takeTransfer u (relTarget u o) = { u with ctl := .transfer (aim u) } := by
      rw [takeTransfer_clear _ _ hs, relTarget_eq]
    refine ⟨?_, ?_, ?_, ?_, ?_, ?_, ?_, ?_, ?_, ?_, ?_, ?_, ?_, ?_, ?_, ?_, ?_⟩
    · exact answersWhen_of exec_br_eq fun s u ⟨hs, h⟩ => (branchOp_taken h).trans (htaken u hs)
    · exact answersWhen_of exec_br_eq fun s u ⟨hc, hx, h⟩ => branchOp_not_taken hc hx h
    · exact answersWhen_of exec_br_eq fun s u ⟨hc, hx⟩ => branchOp_poisoned hc hx
    · exact answersWhen_of (exec_jmp o) fun s u hs => htaken u hs
    · exact answersWhen_of exec_jmpi_eq fun s u ⟨hs, hx⟩ => (jumpOp_clean hx).trans (takeTransfer_clear _ _ hs)
    · exact fun s b hb hs hx => ⟨_, answers_of exec_jmpi_eq (fun _ _ => rfl) s b hb, jumpOp_poisoned_fatals hs hx⟩
    · exact answersWhen_of exec_call_eq fun s u hs => by rw [callOp, htaken u hs, link_eq]
    · exact answersWhen_of exec_ret_eq fun s u ⟨hs, hx⟩ => (jumpOp_clean hx).trans (takeTransfer_clear _ _ hs)
    · exact fun s b hb hs hx => ⟨_, answers_of exec_ret_eq (fun _ _ => rfl) s b hb, jumpOp_poisoned_fatals hs hx⟩
    · exact answersWhen_of (exec_chk a o) fun s u hs => by rw [htaken u hs]
    · exact answersWhen_of exec_br_eq fun s u ⟨hs, h⟩ => (branchOp_taken h).trans (takeTransfer_shadow _ _ hs)
    · exact answersWhen_of (exec_jmp o) fun s u hs => takeTransfer_shadow _ _ hs
    · exact answersWhen_of exec_jmpi_eq fun s u ⟨hs, hx⟩ => (jumpOp_clean hx).trans (takeTransfer_shadow _ _ hs)
    · intro s b hb hs
      refine ⟨_, answers_of exec_call_eq (fun _ _ => rfl) s b hb, ?_⟩
      rw [callOp, takeTransfer_shadow _ _ hs]
      exact ⟨rfl, rfl⟩
    · exact answersWhen_of exec_ret_eq fun s u ⟨hs, hx⟩ => (jumpOp_clean hx).trans (takeTransfer_shadow _ _ hs)
    · exact answersWhen_of (exec_chk a o) fun s u ⟨hs, hx⟩ => (if_pos hx).trans (takeTransfer_shadow _ _ hs)
    · exact answersWhen_of (exec_chk a o) fun s u ⟨hs, hx⟩ => by rw [hx, if_neg Bool.false_ne_true]
  · intro a o last
    refine ⟨?_, ?_, ?_, ?_, ?_⟩
    · exact answersWhen_of exec_loop_eq fun s u ⟨hs, hx⟩ => loopOp_clean hs hx
    · exact answersWhen_of exec_loop_eq fun s u ⟨hs, hx⟩ => loopOp_poisoned hs hx
    · exact answersWhen_of exec_loop_eq fun s u hs => loopOp_shadow hs
    · exact answersWhen_of exec_tret fun s u hs => by rw [hs]; rfl
    · exact answersWhen_of exec_tret fun s u hs => if_pos hs

end Sys2Proof.Proofs

/-! # Control flow at the commit (02_scalar_instructions R62, R68, R71; 05_sequencer_and_tile_task R117)

The loop entries are evaluated first, then the shadow counts: `loopEnd` and `flowOn` by the cases of the innermost entry and of the shadow. -/

namespace Sys2Proof.Proofs
open Sys2Proof.Machine Sys2Proof.Laws

/-! ## Loop entries -/

/-- With the innermost entry not at its last bundle no entry is judged. -/
theorem loopEnd_elsewhere {x : BitVec 11} {l : List LoopEntry} (h : ∀ e ∈ l.head?, e.last ≠ x) : loopEnd x l = (none, l) := by
  cases l with
  | nil => rfl
  | cons e r => exact if_pos (h e rfl)

theorem loopEnd_again {x : BitVec 11} {e : LoopEntry} {r : List LoopEntry} (hx : e.last = x) (hn : 1 < e.left) :
    loopEnd x (e :: r) = (some e.start, { e with left := e.left - 1 } :: r) := by
  rw [loopEnd, if_neg (not_not.mpr hx), if_pos hn]

theorem loopEnd_done {x : BitVec 11} {e : LoopEntry} {r : List LoopEntry} (hx : e.last = x) (hn : e.left ≤ 1) :
    loopEnd x (e :: r) = loopEnd x r := by
  rw [loopEnd, if_neg (not_not.mpr hx), if_neg hn.not_gt]

/-! ## The next bundle -/

theorem flowOn_next {q : Seq} {x : BitVec 11} (hs : q.shadow = none) (hl : ∀ e ∈ q.loops.head?, e.last ≠ x) :
    flowOn q x = { q with pc := x + 1 } := by
  simp [flowOn, hs, loopEnd_elsewhere hl]

theorem flowOn_back {q : Seq} {x : BitVec 11} {e : LoopEntry} {r : List LoopEntry} (hs : q.shadow = none) (hl : q.loops = e :: r)
    (hx : e.last = x) (hn : 1 < e.left) : flowOn q x = { q with pc := e.start, loops := { e with left := e.left - 1 } :: r } := by
  simp [flowOn, hs, hl, loopEnd_again hx hn]

/-- An entry whose passes are done is as if it did not stand. -/
theorem flowOn_done {q : Seq} {x : BitVec 11} {e : LoopEntry} {r : List LoopEntry} (hl : q.loops = e :: r) (hx : e.last = x)
    (hn : e.left ≤ 1) : flowOn q x = flowOn { q with loops := r } x := by
  simp only [flowOn, hl, loopEnd_done hx hn]

/-- Inside a shadow the next bundle issues and the shadow has one bundle less. -/
theorem flowOn_delay {q : Seq} {x y t : BitVec 11} {k : Nat} (hl : ∀ e ∈ q.loops.head?, e.last ≠ x) (hk : 0 < k) (hy : x + 1 = y) :
    flowOn { q with pc := x, shadow := some ⟨t, k + 1⟩ } x = { q with pc := y, shadow := some ⟨t, k⟩ } := by
  simpa [flowOn, hk.ne', loopEnd_elsewhere hl] using hy

/-- The last delay slot is followed by the target. -/
theorem flowOn_target {q : Seq} {x t : BitVec 11} (hl : ∀ e ∈ q.loops.head?, e.last ≠ x) :
    flowOn { q with pc := x, shadow := some ⟨t, 1⟩ } x = { q with pc := t, shadow := none } := by
  simp [flowOn, loopEnd_elsewhere hl]

theorem flow_transfer {q : Seq} {x t : BitVec 11} (hl : ∀ e ∈ q.loops.head?, e.last ≠ x) :
    flow q x (.transfer t) = { q with pc := x + 1, shadow := some ⟨t, 3⟩ } := by
  simp [flow, loopEnd_elsewhere hl]

/-- A taken transfer: three bundles issue, and then its target (R62). -/
theorem flow_transfer_delay_slots {q : Seq} {x t : BitVec 11}
    (h : ∀ e ∈ q.loops.head?, ∀ k ∈ [0#11, 1#11, 2#11, 3#11], e.last ≠ x + k) :
    let q1 := flow q x (.transfer t)
    let q2 := flowOn q1 q1.pc
    let q3 := flowOn q2 q2.pc
    let q4 := flowOn q3 q3.pc
    q1 = { q with pc := x + 1, shadow := some ⟨t, 3⟩ } ∧ q2 = { q with pc := x + 2, shadow := some ⟨t, 2⟩ } ∧
      q3 = { q with pc := x + 3, shadow := some ⟨t, 1⟩ } ∧ q4 = { q with pc := t, shadow := none } := by
  intro q1 q2 q3 q4
  have h1 : q1 = { q with pc := x + 1, shadow := some ⟨t, 3⟩ } :=
    flow_transfer fun e he => by simpa using h e he 0 (by simp)
  have h2 : q2 = { q with pc := x + 2, shadow := some ⟨t, 2⟩ } := by
    rw [show q2 = flowOn q1 q1.pc from rfl, h1]
    exact flowOn_delay (fun e he => h e he 1 (by simp)) (by decide) (BitVec.add_assoc x 1 1)
  have h3 : q3 = { q with pc := x + 3, shadow := some ⟨t, 1⟩ } := by
    rw [show q3 = flowOn q2 q2.pc from rfl, h2]
    exact flowOn_delay (fun e he => h e he 2 (by simp)) (by decide) (BitVec.add_assoc x 2 1)
  have h4 : q4 = { q with pc := t, shadow := none } := by
    rw [show q4 = flowOn q3 q3.pc from rfl, h3]
    exact flowOn_target fun e he => h e he 3 (by simp)
  exact ⟨h1, h2, h3, h4⟩

/-! ## The return from a handler -/

/-- What a handler set aside is reinstated, and of the results in flight those that `keep` names stay (05_sequencer_and_tile_task R117). -/
def reinstated (keep : Pending → Bool) (q : Seq) : Seq :=
  { q with sr := { q.sr with hstat := false }, sq := List.replicate 16 {}, savedShadow := none, savedLoops := [],
           pending := q.pending.filter keep,
           shadow := q.savedShadow, loops := q.savedLoops, pc := bits q.sr.resume 0 11 }

/-- The program counter before a commit does not matter to the next one. -/
theorem flowOn_pc (q : Seq) (p x : BitVec 11) : flowOn { q with pc := p } x = flowOn q x := rfl

/-- The results in flight that stay are those not for the shadow queue. -/
theorem returnFromHandler_eq (q : Seq) : returnFromHandler q =
    if anyBit q.sr.resume 11 1 then flowOn (reinstated (fun e => !intoShadow e) q) (bits q.sr.resume 0 11)
    else reinstated (fun e => !intoShadow e) q := by
  have hkeep : (fun e : Pending => match e.dest with | .shadow _ => false | _ => true) = fun e => !intoShadow e := by
    funext e
    unfold intoShadow
    cases e.dest <;> rfl
  rw [← hkeep]
  unfold returnFromHandler
  dsimp only
  split
  · exact (flowOn_pc _ (bits q.sr.resume 0 11) _).symm
  · rfl

/-- Settles O16: by the innermost loop entry and the shadow, bundle after bundle. -/
theorem controlFlow : Obligations.ControlFlow := by
  refine ⟨⟨fun q x t h => flow_transfer_delay_slots h, fun q x e r hs hl hx hn => flowOn_back hs hl hx hn,
    fun q x e r hl hx hn => flowOn_done hl hx hn, fun q x hs hl => flowOn_next hs hl, fun q x t hl => ?_, fun q x e hs hx => ?_⟩, ?_⟩
  · simp [flow, loopEnd_elsewhere hl]
  · exact flowOn_next (q := { q with loops := pushLoop e q.loops }) hs fun f hf => by cases hf; exact hx
  · intro q x back
    exact ⟨fun h => (returnFromHandler_eq q).trans (if_neg (by simp [h])), fun h => (returnFromHandler_eq q).trans (if_pos h)⟩

end Sys2Proof.Proofs

/-! # Staging and state registers (02_scalar_instructions R72 to R75, 05_sequencer_and_tile_task R105) -/

namespace Sys2Proof.Proofs
open Sys2Proof.Machine Sys2Proof.Laws

/-! ## The staging registers -/

theorem at'_set {α : Type} {l : List α} {i : Nat} (h : i < l.length) (j : Nat) (x d : α) :
    at' (l.set i x) j d = if j = i then x else at' l j d := by
  simp only [at', List.getD_eq_getElem?_getD, List.getElem?_set]
  grind

/-- The staging codes are registers of their own: mp, cp and np by their ranges (01_long_word R23). -/
theorem stageRead_stageWrite {q : Seq} {c e : Nat} (w : Word) (hc : c < 24) (hm : q.mp.length = 8) (hp : q.cp.length = 8)
    (hn : q.np.length = 8) : stageRead (stageWrite q c w) e = if e = c then w else stageRead q e := by
  unfold stageRead stageWrite
  by_cases h8 : c < 8
  · rw [if_pos h8]
    dsimp only
    rw [at'_set (by omega)]
    grind
  · by_cases h16 : c < 16
    · rw [if_neg h8, if_pos h16]
      dsimp only
      rw [at'_set (by omega)]
      grind
    · rw [if_neg h8, if_neg h16, if_pos hc]
      dsimp only
      rw [at'_set (by omega)]
      grind

theorem stageWrite_frame (q : Seq) (c : Nat) (w : Word) :
    stageWrite q c w = { q with mp := (stageWrite q c w).mp, cp := (stageWrite q c w).cp, np := (stageWrite q c w).np } := by
  unfold stageWrite
  split
  · rfl
  · split
    · rfl
    · split
      · rfl
      · rfl

theorem getLsbD_putBits {n len : Nat} (x : BitVec n) (lo : Nat) (y : BitVec len) (i : Nat) (hi : i < n) :
    (putBits x lo y).getLsbD i = if lo ≤ i ∧ i < lo + len then y.getLsbD (i - lo) else x.getLsbD i := by
  simp [putBits]
  grind

/-- The bits put in are read back. -/
theorem bits_putBits {n len : Nat} (x : BitVec n) (lo : Nat) (y : BitVec len) (h : lo + len ≤ n) : bits (putBits x lo y) lo len = y := by
  apply BitVec.eq_of_getLsbD_eq
  intro i hi
  rw [bits, BitVec.getLsbD_extractLsb', getLsbD_putBits x lo y _ (by omega), if_pos (by omega)]
  simp [hi]

theorem encodeSlot_stg_opcode (d a : BitVec 6) : bits (encodeSlot (.stg d a)) 25 7 = 0x38#7 := by
  have h : encodeSlot (.stg d a) = field 32 25 0x38#7 ||| field 32 19 d ||| field 32 13 a := rfl
  simp [h, bits_or, bits_field_self, bits_field_above]

theorem encodeSlot_stgi_opcode (d : BitVec 6) (k : BitVec 2) (i : BitVec 16) : bits (encodeSlot (.stgi d k i)) 25 7 = 0x39#7 := by
  have h : encodeSlot (.stgi d k i) = field 32 25 0x39#7 ||| field 32 19 d ||| field 32 17 k ||| field 32 1 i := rfl
  simp [h, bits_or, bits_field_self, bits_field_above]

/-- Staging codes 24 to 63 are reserved (01_long_word R23). -/
theorem two_mem_ckStage {d : BitVec 6} (h : 24 ≤ d.toNat) : 2 ∈ ckStage d := by
  simp [ckStage, rsv, h]

/-! ## The state registers -/

/-- The low bits of a word, as a word. -/
theorem setWidth_bits_low (w : Word) (n : Nat) : (bits w 0 n).setWidth 64 = w &&& (BitVec.allOnes n).setWidth 64 := by
  simpa [field] using field_bits (lo := 0) (len := n) w

/-- One bit of a word, as a word. -/
theorem ite_anyBit_eq (w : Word) (k : Nat) : (if anyBit w k 1 then BitVec.twoPow 64 k else 0) = w &&& BitVec.twoPow 64 k := by
  have hbit : anyBit w k 1 = w.getLsbD k := by
    rw [anyBit, fieldN_eq, ← BitVec.testBit_toNat, Nat.testBit_eq_decide_div_mod_eq, Nat.pow_one]
    rcases Nat.mod_two_eq_zero_or_one (w.toNat / 2 ^ k) with h | h <;> rw [h] <;> rfl
  rw [hbit, BitVec.and_twoPow]
  rfl

/-- The twenty state registers of R105 as they read, in the order of their codes. -/
def srValues (q : Seq) (n : Nat) : List Word := (List.range 20).map (readSr q n)

theorem readSr_of_le (q : Seq) (n : Nat) {j : Nat} (h : 20 ≤ j) : readSr q n j = 0 := by
  obtain ⟨k, rfl⟩ := Nat.exists_eq_add_of_le' h
  rfl

theorem readSr_eq_at' (q : Seq) (n j : Nat) : readSr q n j = at' (srValues q n) j 0 := by
  by_cases h : j < 20
  · simp [srValues, at', h]
  · rw [readSr_of_le q n (by omega)]
    simp [srValues, at', h]

theorem readSr_of_srValues_eq_set {q r : Seq} {n x j : Nat} {v : Word} (hs : srValues r n = (srValues q n).set x v) (hx : x < 20)
    (hj : j ≠ x) : readSr r n j = readSr q n j := by
  have hlen : (srValues q n).length = 20 := rfl
  rw [readSr_eq_at', hs, at'_set (by omega), if_neg hj, ← readSr_eq_at']

/-- A write to one register changes no other. -/
theorem readSr_writeSr_other (q : Seq) (n : Nat) {x j : Nat} (w : Word) (h : j ≠ x) :
    readSr { q with sr := writeSr q.sr x w } n j = readSr q n j := by
  unfold writeSr
  split
  case h_7 => rfl
  case h_3 =>
    split
    · exact readSr_of_srValues_eq_set rfl (by decide) h
    · rfl
  all_goals exact readSr_of_srValues_eq_set rfl (by decide) h
/-- A register that SWR does not write keeps every register. -/
theorem writeSr_eq_self (r : StateRegs) {x : Nat} (w : Word) (h : x ∉ [0, 3, 8, 9, 10, 11]) : writeSr r x w = r := by
  unfold writeSr
  split
  case h_7 => rfl
  all_goals exact absurd (by decide) h

/-- RM takes the five modes only. -/
theorem readSr_writeSr_vmode (q : Seq) (n : Nat) (w : Word) : readSr { q with sr := writeSr q.sr 8 w } n 8 =
    if 1 ≤ w.toNat % 8 ∧ w.toNat % 8 ≤ 5 then w &&& 7 else readSr q n 8 := by
  have hf : fieldN w 0 3 = w.toNat % 8 := by simp [fieldN_eq]
  have hw : writeSr q.sr 8 w = if 1 ≤ fieldN w 0 3 ∧ fieldN w 0 3 ≤ 5 then { q.sr with vmode := bits w 0 3 } else q.sr := rfl
  rw [← hf, hw]
  split
  · exact setWidth_bits_low w 3
  · rfl

theorem or_pend_last (a p b c : Word) : a ||| p ||| b ||| c = a ||| b ||| c ||| p := by ac_rfl

/-- PEND is bit 6 of sr.seg, apart from LAST, BAD and ERR. -/
theorem seg_and_pend (l : BitVec 6) (p b e : Bool) :
    ((l.setWidth 64 ||| (if p then 0 else 0x40) ||| (if b then 0x80 else 0) ||| (if e then 0x100 else 0) : Word) &&& 0x40) =
      if p then 0 else 0x40 := by
  have hl : (l.setWidth 64 : Word) &&& 0x40 = 0 := by revert l; decide
  rw [← BitVec.and_comm, BitVec.and_or_distrib_left, BitVec.and_or_distrib_left, BitVec.and_or_distrib_left, BitVec.and_comm _ (l.setWidth 64), hl]
  revert p b e
  decide

/-- PEND of sr.seg is read-only; LAST, BAD and ERR take their bits. -/
theorem readSr_writeSr_seg (q : Seq) (n : Nat) (w : Word) : readSr { q with sr := writeSr q.sr 10 w } n 10 =
    (w &&& 0x1BF) ||| (readSr q n 10 &&& 0x40) := by
  have hpend : readSr q n 10 &&& 0x40 = if q.segFetch.isEmpty then 0 else 0x40 := seg_and_pend _ _ _ _
  have hmask : (w &&& 0x1BF : Word) = w &&& 0x3F ||| w &&& 0x80 ||| w &&& 0x100 := by
    rw [← BitVec.and_or_distrib_left, ← BitVec.and_or_distrib_left]
    rfl
  have hlast : ((bits w 0 6).setWidth 64 : Word) = w &&& 0x3F := setWidth_bits_low w 6
  have hbad : (if anyBit w 7 1 then 0x80 else 0 : Word) = w &&& 0x80 := ite_anyBit_eq w 7
  have herr : (if anyBit w 8 1 then 0x100 else 0 : Word) = w &&& 0x100 := ite_anyBit_eq w 8
  have hread : readSr { q with sr := writeSr q.sr 10 w } n 10 = (bits w 0 6).setWidth 64 ||| (if q.segFetch.isEmpty then 0 else 0x40) |||
      (if anyBit w 7 1 then 0x80 else 0) ||| (if anyBit w 8 1 then 0x100 else 0) := rfl
  rw [hread, hlast, hbad, herr, hpend, hmask]
  exact or_pend_last _ _ _ _

/-- Numbers that share no bit, put together. -/
theorem toNat_or_shiftLeft {a b : Word} {k : Nat} (ha : a.toNat < 2 ^ k) (hb : b.toNat * 2 ^ k < 2 ^ 64) :
    (a ||| b <<< k).toNat = a.toNat + 2 ^ k * b.toNat := by
  have hshift : (b <<< k).toNat = b.toNat <<< k := by rw [BitVec.toNat_shiftLeft, Nat.mod_eq_of_lt (by rwa [Nat.shiftLeft_eq])]
  rw [BitVec.toNat_or, hshift, Nat.or_comm, ← Nat.shiftLeft_add_eq_or_of_lt ha, Nat.shiftLeft_eq]
  ring

theorem shadowWord_toNat (t : BitVec 11) {k : Nat} (hk : k ≤ 3) : (shadowWord (some ⟨t, k⟩)).toNat = t.toNat + 2 ^ 12 * k + 2 ^ 15 := by
  have ht := t.isLt
  have h1 : (t.setWidth 64).toNat = t.toNat := BitVec.toNat_setWidth_of_le (by decide)
  have h2 : (BitVec.ofNat 64 k).toNat = k := toNat_ofNat_of_le (by omega)
  have h3 := toNat_or_shiftLeft (a := t.setWidth 64) (b := BitVec.ofNat 64 k) (k := 12) (by omega) (by omega)
  have h4 := toNat_or_shiftLeft (a := t.setWidth 64 ||| BitVec.ofNat 64 k <<< 12) (b := 1#64) (k := 15) (by omega) (by decide)
  rw [h3, h1, h2] at h4
  exact h4

theorem loopWord_toNat (a b : BitVec 11) {k : Nat} (hk : k < 2 ^ 32) :
    (loopWord (some ⟨a, b, k⟩)).toNat = a.toNat + 2 ^ 11 * b.toNat + 2 ^ 22 * k + 2 ^ 63 := by
  have ha := a.isLt
  have hb := b.isLt
  have h1 : (a.setWidth 64).toNat = a.toNat := BitVec.toNat_setWidth_of_le (by decide)
  have h2 : (b.setWidth 64).toNat = b.toNat := BitVec.toNat_setWidth_of_le (by decide)
  have h3 : (BitVec.ofNat 64 k).toNat = k := by rw [BitVec.toNat_ofNat, Nat.mod_eq_of_lt (by omega)]
  have h4 := toNat_or_shiftLeft (a := a.setWidth 64) (b := b.setWidth 64) (k := 11) (by omega) (by omega)
  have h5 := toNat_or_shiftLeft (a := a.setWidth 64 ||| b.setWidth 64 <<< 11) (b := BitVec.ofNat 64 k) (k := 22) (by omega) (by omega)
  have h6 := toNat_or_shiftLeft (a := a.setWidth 64 ||| b.setWidth 64 <<< 11 ||| BitVec.ofNat 64 k <<< 22) (b := 1#64) (k := 63)
    (by omega) (by decide)
  rw [h5, h4, h1, h2, h3] at h6
  exact h6

/-- The two loop registers hold the entries that stand, those set aside inside a handler. -/
theorem readSr_loop (q : Seq) (n : Nat) {i : Nat} (hi : i < 2) :
    readSr q n (5 + i) = loopWord (if q.sr.hstat then q.savedLoops else q.loops)[i]? := by
  match i, hi with
  | 0, _ | 1, _ => rfl

theorem windowWord_toNat (b : BitVec 20) (z : BitVec 21) : (b.setWidth 64 ||| z.setWidth 64 <<< 20 : Word).toNat = b.toNat + 2 ^ 20 * z.toNat := by
  have hb := b.isLt
  have hz := z.isLt
  have h1 : (b.setWidth 64).toNat = b.toNat := BitVec.toNat_setWidth_of_le (by decide)
  have h2 : (z.setWidth 64).toNat = z.toNat := BitVec.toNat_setWidth_of_le (by decide)
  rw [toNat_or_shiftLeft (by omega) (by omega), h1, h2]

/-! ## The operations -/

theorem srWord_of_ne {f : BitVec 128} {q : Seq} {n r : Nat} (h : r ≠ 10 ∨ anyBit f 0 1 = true) : srWord f q n r = readSr q n r := by
  rcases h with h | h <;> simp [srWord, h]

/-- SRD of a register other than sr.fpstat (R75). -/
theorem srd_answersWhen {d : BitVec 6} {r : BitVec 12} (h9 : r ≠ 9) : AnswersWhen (.srd d r)
    (fun s _ => r.toNat ≠ 10 ∨ anyBit s.faccept 0 1 = true) (fun _ u => setScalar u d 2 { bits := readSr u.start u.seq r.toNat }) :=
  answersWhen_of (exec_srd d r) fun s u h => by simp only [if_neg h9, srWord_of_ne h]

/-- Settles O24: the registers as a list of which a write sets one place. -/
theorem stagingAndStateRegisters : Obligations.StagingAndStateRegisters := by
  intro d a r k i
  refine ⟨rfl, ⟨encodeSlot_stg_opcode d a, encodeSlot_stgi_opcode d k i, fun h f c => ⟨?_, ?_⟩⟩, ?_, ?_, fun x => ?_, fun h9 h10 => ?_, ?_, ?_,
    fun h9 => ?_, ?_, fun q c e w hc he hm hp hn => ?_, fun q n x w => ?_, fun q n => ?_⟩
  · exact mem_issueCauses_of_mem_slotCauses (i := .stg d a) (List.mem_append_left _ (two_mem_ckStage h)) f c
  · exact mem_issueCauses_of_mem_slotCauses (i := .stgi d k i) (two_mem_ckStage h) f c
  · exact answers_of (exec_stg d a) fun _ _ => rfl
  · exact answers_of (exec_stgi d k i) fun _ _ => rfl
  · have hk := k.isLt
    refine ⟨bits_putBits x _ i (by omega), fun n hn => ?_⟩
    by_cases hx : n < 64
    · rw [getLsbD_putBits x _ i n hx, if_neg (by omega)]
    · rw [BitVec.getLsbD_of_ge _ _ (by omega), BitVec.getLsbD_of_ge _ _ (by omega)]
  · exact fun s b hb => srd_answersWhen h9 s b hb (.inl fun h => h10 (BitVec.eq_of_toNat_eq h))
  · exact fun s b hb hf => srd_answersWhen (by decide) s b hb (.inr hf)
  · exact answers_of (exec_srd d 9) fun s u => by simp only [if_true]; rfl
  · exact answers_of (exec_swr a r) fun s u => by simp only [if_neg h9]; rfl
  · exact answers_of (exec_swr a 9) fun s u => by simp only [if_true, mapWork, orFpstat, BitVec.or_self]; rfl
  · refine ⟨?_, fun hne => ?_, stageWrite_frame q c w, fun h => ?_, fun h h' => ?_, fun h => ?_⟩
    · rw [stageRead_stageWrite w hc hm hp hn, if_pos rfl]
    · rw [stageRead_stageWrite w hc hm hp hn, if_neg hne]
    · rw [stageRead, if_pos h]
    · rw [stageRead, if_neg (by omega), if_pos h']
    · rw [stageRead, if_neg (by omega), if_neg (by omega)]
  · refine ⟨?_, ?_, ?_, ?_, ?_, ?_, fun j hj => readSr_writeSr_other q n w hj, writeSr_eq_self q.sr w⟩
    · rintro rfl; rfl
    · rintro rfl; rfl
    · rintro rfl; exact readSr_writeSr_vmode q n w
    · rintro rfl; exact setWidth_bits_low w 6
    · rintro rfl; exact readSr_writeSr_seg q n w
    · rintro rfl; exact setWidth_bits_low w 32
  · refine ⟨rfl, rfl, rfl, BitVec.toNat_setWidth_of_le (by decide), BitVec.toNat_setWidth_of_le (by decide), rfl,
      BitVec.toNat_setWidth_of_le (by decide), fun hn => ?_, windowWord_toNat _ _, BitVec.toNat_setWidth_of_le (by decide), rfl, ?_, ?_⟩
    · exact (BitVec.toNat_ofNat n 64).trans (Nat.mod_eq_of_lt (by omega))
    · intro h
      exact ⟨fun hs => congrArg shadowWord hs, fun t k hs hk => (congrArg (fun x => (shadowWord x).toNat) hs).trans (shadowWord_toNat t hk)⟩
    · intro i hi e
      rw [readSr_loop q n hi]
      exact ⟨fun he => congrArg loopWord he, fun a b k he hk => (congrArg (fun x => (loopWord x).toNat) he).trans (loopWord_toNat a b hk)⟩

end Sys2Proof.Proofs

/-! # Flags and the sync slot (03_sync_and_transfer_instructions R77 to R87, 05_sequencer_and_tile_task R116) -/

namespace Sys2Proof.Proofs
open Sys2Proof.Machine Sys2Proof.Laws

/-! ## The next value of a flag (R77) -/

/-- The number that the increments of a clock are added to. -/
def flagStart (old : BitVec 16) : Option (Option (BitVec 16)) → Nat
  | none => old.toNat
  | some none => 0
  | some (some th) => old.toNat - th.toNat

theorem flagNext_eq (old : BitVec 16) (base : Option (Option (BitVec 16))) (inc : Nat) :
    flagNext old base inc =
      if 0xFFFF < flagStart old base + inc then (0xFFFF, true) else (BitVec.ofNat 16 (flagStart old base + inc), false) := by
  rcases base with _ | _ | _ <;> rfl

theorem flagNext_toNat (old : BitVec 16) (base : Option (Option (BitVec 16))) (inc : Nat) :
    (flagNext old base inc).1.toNat = min (flagStart old base + inc) 0xFFFF := by
  rw [flagNext_eq]
  split
  · exact (Nat.min_eq_right (by omega)).symm
  · rw [BitVec.toNat_ofNat, Nat.mod_eq_of_lt (by omega), Nat.min_eq_left (by omega)]

theorem flagNext_saturates (old : BitVec 16) (base : Option (Option (BitVec 16))) (inc : Nat) :
    (flagNext old base inc).2 = decide (0xFFFF < flagStart old base + inc) := by
  rw [flagNext_eq]
  split <;> simp [*]

theorem flagNext_idle (old : BitVec 16) : flagNext old none 0 = (old, false) := by
  have := old.isLt
  simp [flagNext_eq, flagStart, show ¬ 65535 < old.toNat by omega]

theorem at'_flagsGo (q : Seq) {l : List (BitVec 16)} {inc : List Nat} (h : l.length = inc.length) (i : Nat) {k : Nat} (hk : k < l.length) :
    at' (flagsGo q i l inc).1 k 0 = (flagNext (at' l k 0) (flagBase q (i + k)) (at' inc k 0)).1 := by
  induction l generalizing inc i k with
  | nil => exact absurd hk (Nat.not_lt_zero k)
  | cons x r ih =>
    obtain _ | ⟨y, ys⟩ := inc
    · cases h
    · cases k with
      | zero => rfl
      | succ k =>
        have h' := ih (Nat.succ.inj h) (i + 1) (Nat.lt_of_succ_lt_succ hk)
        rwa [Nat.add_assoc, Nat.add_comm 1 k] at h'

theorem getLsbD_flagsGo_cons (q : Seq) (x : BitVec 16) (r : List (BitVec 16)) (y : Nat) (ys : List Nat) (i j : Nat) :
    (flagsGo q i (x :: r) (y :: ys)).2.getLsbD j =
      ((flagsGo q (i + 1) r ys).2.getLsbD j || ((flagNext x (flagBase q i) y).2 && (decide (i < 32) && decide (i = j)))) := by
  have hbit : (1 <<< i : BitVec 32).getLsbD j = (decide (i < 32) && decide (i = j)) :=
    (congrArg (fun b : BitVec 32 => b.getLsbD j) (BitVec.twoPow_eq 32 i).symm).trans (BitVec.getLsbD_twoPow i j)
  simp only [flagsGo]
  split
  next h => rw [BitVec.getLsbD_or, hbit, h, Bool.true_and]
  next h => rw [Bool.eq_false_of_not_eq_true h, Bool.false_and, Bool.or_false]

theorem getLsbD_flagsGo_below (q : Seq) (l : List (BitVec 16)) (inc : List Nat) (i : Nat) {j : Nat} (hj : j < i) :
    (flagsGo q i l inc).2.getLsbD j = false := by
  induction l generalizing inc i with
  | nil => cases inc <;> exact BitVec.getLsbD_zero
  | cons x r ih =>
    cases inc with
    | nil => exact BitVec.getLsbD_zero
    | cons y ys => simp [getLsbD_flagsGo_cons, ih ys (i + 1) (Nat.lt_succ_of_lt hj), Nat.ne_of_gt hj]

theorem getLsbD_flagsGo (q : Seq) {l : List (BitVec 16)} {inc : List Nat} (h : l.length = inc.length) (i : Nat) {k : Nat} (hk : k < l.length)
    (hi : i + k < 32) :
    (flagsGo q i l inc).2.getLsbD (i + k) = (flagNext (at' l k 0) (flagBase q (i + k)) (at' inc k 0)).2 := by
  induction l generalizing inc i k with
  | nil => exact absurd hk (Nat.not_lt_zero k)
  | cons x r ih =>
    obtain _ | ⟨y, ys⟩ := inc
    · cases h
    · cases k with
      | zero =>
        rw [Nat.add_zero, getLsbD_flagsGo_cons, getLsbD_flagsGo_below q r ys (i + 1) (Nat.lt_succ_self i)]
        simp [at', show i < 32 from hi]
      | succ k =>
        have h' := ih (Nat.succ.inj h) (i + 1) (Nat.lt_of_succ_lt_succ hk) (by omega)
        rw [Nat.add_assoc, Nat.add_comm 1 k] at h'
        simp [getLsbD_flagsGo_cons, h', at']

/-- One flag at the end of a clock, whether or not anything was posted in it. -/
theorem tickFlags_flag {q : Seq} {k : Nat} (hk : k < 32) (hf : q.f.length = 32) (hi : q.fInc.length = 32) :
    at' (tickFlags q).f k 0 = (flagNext (at' q.f k 0) (flagBase q k) (at' q.fInc k 0)).1 ∧
    (tickFlags q).sr.flagsat.getLsbD k = (q.sr.flagsat.getLsbD k || (flagNext (at' q.f k 0) (flagBase q k) (at' q.fInc k 0)).2) := by
  unfold tickFlags
  split
  next hq =>
    rw [Bool.and_eq_true, Option.isNone_iff_eq_none, List.all_eq_true] at hq
    have hinc : at' q.fInc k 0 = 0 := by
      simpa [at', hi, hk] using hq.2 (q.fInc[k]'(hi ▸ hk)) (List.getElem_mem _)
    have hbase : flagBase q k = none := by simp [flagBase, hq.1]
    simp [hinc, hbase, flagNext_idle]
  next =>
    have hl : q.f.length = q.fInc.length := hf.trans hi.symm
    have h1 := at'_flagsGo q hl 0 (hf ▸ hk)
    have h2 := getLsbD_flagsGo q hl 0 (hf ▸ hk) (by omega)
    rw [Nat.zero_add] at h1 h2
    exact ⟨h1, by rw [← h2]; exact BitVec.getLsbD_or⟩

/-- The base of a flag as the statement reads it. -/
theorem flagStart_flagBase (q : Seq) (k : Nat) (old : BitVec 16) : flagStart old (flagBase q k) =
    match q.fBase with
    | some (g, none) => if g = k then 0 else old.toNat
    | some (g, some th) => if g = k then old.toNat - th.toNat else old.toNat
    | none => old.toNat := by
  unfold flagBase
  obtain _ | ⟨g, _ | th⟩ := q.fBase
  · rfl
  all_goals
    by_cases h : g = k <;> simp [h, flagStart]

/-! ## A committed QUIET (R85) -/

theorem notSendNorLoad_eq (i : Instr) :
    (match i with | .lsend _ _ => false | .gld _ _ _ => false | _ => true) = (!isLsend i && !isGld i) := by
  split
  · rfl
  · rfl
  next h1 h2 =>
    have hs : isLsend i = false := by
      unfold isLsend
      split
      · exact absurd rfl (h1 _ _)
      · rfl
    have hg : isGld i = false := by
      unfold isGld
      split
      · exact absurd rfl (h2 _ _ _)
      · rfl
    rw [hs, hg]
    rfl

theorem quietNow_eq (q : Seq) : quietNow q = (q.mx.queue.isEmpty && q.mx.running.isEmpty && q.mx.routine.isNone && q.mx.fills.isEmpty &&
    q.net.queue.all (fun c => !isLsend c.op && !isGld c.op) && q.net.running.all (fun r => !isLsend r.cmd.op && !isGld r.cmd.op)) :=
  congrArg₂ (· && ·) (congrArg (_ && q.net.queue.all ·) (funext fun c => notSendNorLoad_eq c.op))
    (congrArg q.net.running.all (funext fun r => notSendNorLoad_eq r.cmd.op))

theorem quietNow_iff (q : Seq) : quietNow q = true ↔ q.mx.queue = [] ∧ q.mx.running = [] ∧ q.mx.routine = none ∧ q.mx.fills = [] ∧
    (∀ c ∈ q.net.queue, isLsend c.op = false ∧ isGld c.op = false) ∧ (∀ r ∈ q.net.running, isLsend r.cmd.op = false ∧ isGld r.cmd.op = false) := by
  simp [quietNow_eq, and_assoc]

theorem commitQuiet_quiet {q : Seq} (l : BitVec 16) (hq : quietNow q = true) :
    (commitQuiet q l false).sr = { q.sr with cutnext := q.sr.cutnext + 1, cutlabel := l } := by
  simp only [commitQuiet, hq, Bool.not_false, Bool.and_self, if_true]
  cases q.hold with
  | none => rfl
  | some h => by_cases hc : h.toNat ≤ q.sr.cutnext.toNat <;> simp [hc]

theorem commitQuiet_missed {q : Seq} (l : BitVec 16) {h : Bool} (hq : quietNow q = false ∨ h = true) :
    (commitQuiet q l h).sr =
      { q.sr with cutmiss := if q.sr.cutmiss == BitVec.allOnes 32 then q.sr.cutmiss else q.sr.cutmiss + 1 } := by
  have : (quietNow q && !h) = false := by rcases hq with hq | hq <;> simp [hq]
  simp [commitQuiet, this]

theorem saturating_succ_toNat (x : BitVec 32) : (if x == BitVec.allOnes 32 then x else x + 1).toNat = min (x.toNat + 1) 0xFFFFFFFF := by
  have := x.isLt
  split
  next h =>
    rw [beq_iff_eq.1 h]
    decide
  next h =>
    have hx : x.toNat ≠ 0xFFFFFFFF := fun he => h (beq_iff_eq.2 (BitVec.eq_of_toNat_eq he))
    rw [BitVec.toNat_add, show (1 : BitVec 32).toNat = 1 from rfl]
    omega

/-- Settles O17: flag by flag along the two lists, and by whether the bundle of the QUIET is quiet. -/
theorem flagRule : Obligations.FlagRule := by
  refine ⟨fun q k hk hf hi => ?_, fun q l h => ⟨?_, fun hq => ?_, quietNow_iff q⟩⟩
  · obtain ⟨hn, hs⟩ := tickFlags_flag hk hf hi
    rw [hn, hs, flagNext_toNat, flagNext_saturates, flagStart_flagBase]
    obtain _ | ⟨g, _ | th⟩ := q.fBase <;> exact ⟨rfl, rfl⟩
  · rintro hq rfl
    exact commitQuiet_quiet l hq
  · rw [commitQuiet_missed l hq]
    exact ⟨rfl, rfl, saturating_succ_toNat _⟩

/-! ## The operations of the sync slot -/

/-- The test of a wait, as numbers (R78). -/
theorem waitMet_iff (q : Seq) (f : BitVec 5) (t : BitVec 16) : waitMet q f t = true ↔ t.toNat ≤ (at' q.f f.toNat 0).toNat := decide_eq_true_iff

theorem segb_invalid {k : BitVec 6} : AnswersWhen (.segb k) (fun s u => segmentEntry s u.work k.toNat = none)
    (fun _ u => { u with work := { u.work with sr := { u.work.sr with segLast := k, segBad := true } } }) :=
  answersWhen_of (exec_segb k) fun s u h => by
    have h' : segmentEntry s { u.work with sr := { u.work.sr with segLast := k } } k.toNat = none := h
    simp only [mapWork, h']

/-- Whether a segment is resident or being fetched. -/
def segHeld (q : Seq) (k : Nat) : Bool := q.segRes.getLsbD k || q.segFetch.any (fun f => f.seg == k)

theorem segb_held {k : BitVec 6} :
    AnswersWhen (.segb k) (fun s u => segmentEntry s u.work k.toNat ≠ none ∧ segHeld u.work k.toNat = true)
      (fun _ u => { u with work := { u.work with sr := { u.work.sr with segLast := k } } }) :=
  answersWhen_of (exec_segb k) fun s u ⟨h, hh⟩ => by
    obtain ⟨e, he⟩ := Option.ne_none_iff_exists'.1 h
    have he' : segmentEntry s { u.work with sr := { u.work.sr with segLast := k } } k.toNat = some (e.1, e.2.1, e.2.2) := he
    unfold segHeld at hh
    simp only [mapWork, he', hh, if_true]

theorem segb_fetched {k : BitVec 6} (e : Nat × Nat × Nat) :
    AnswersWhen (.segb k) (fun s u => segmentEntry s u.work k.toNat = some e ∧ segHeld u.work k.toNat = false)
      (fun s u => { u with work := { u.work with
        sr := { u.work.sr with segLast := k }
        segFetch := u.work.segFetch ++ [⟨k.toNat, e.1, e.2.1, e.2.2, Config.freeClocks s.free, []⟩] } }) :=
  answersWhen_of (exec_segb k) fun s u ⟨he, hh⟩ => by
    have he' : segmentEntry s { u.work with sr := { u.work.sr with segLast := k } } k.toNat = some (e.1, e.2.1, e.2.2) := he
    unfold segHeld at hh
    simp only [mapWork, he', hh, Bool.false_eq_true, if_false]

/-- Settles O32: a wait by whether its flag has come, SEGB by its entry. -/
theorem syncSlot : Obligations.SyncSlot := by
  refine ⟨fun f o c t => ⟨?_, ?_, ?_, ?_, ?_, ?_, ?_, ?_, ?_, ?_, ?_⟩, fun k => ⟨segb_invalid, fun s b hb hc => ?_, fun s b e hb he hr hf => ?_⟩⟩
  · exact answersWhen_of (exec_wait f o t) fun s u h => if_pos ((waitMet_iff _ _ _).2 h)
  · exact answersWhen_of (exec_wait f o t) fun s u h => if_neg (h ∘ (waitMet_iff _ _ _).1)
  · exact answersWhen_of (exec_waitc f o t) fun s u h => if_pos ((waitMet_iff _ _ _).2 h)
  · exact answersWhen_of (exec_waitc f o t) fun s u h => if_neg (h ∘ (waitMet_iff _ _ _).1)
  · exact answers_of (exec_post f o c t) fun _ _ => rfl
  · exact answers_of (exec_clrf f) fun _ _ => rfl
  · exact answers_of (exec_quiet t) fun _ _ => rfl
  · exact answers_of (exec_drain c) fun _ _ => rfl
  · exact answers_of exec_endOp fun _ _ => rfl
  · exact answers_of (exec_brk t) fun _ _ => rfl
  · exact answers_of (exec_trapi t) fun _ _ => rfl
  · exact segb_held s b hb (hc.imp id fun h => by simpa [segHeld] using h)
  · exact ⟨_, _, segb_fetched e s b hb ⟨he, by simpa [segHeld, hr] using hf⟩, rfl⟩

end Sys2Proof.Proofs

/-! # The transfer slot (03_sync_and_transfer_instructions R88 to R93) -/

namespace Sys2Proof.Proofs
open Sys2Proof.Machine Sys2Proof.Laws

/-! ## Lanes -/

theorem at'_lanesGo {α : Type} (f : Nat → Lane → α) (d : α) (n i : Nat) (v : VReg) {j : Nat} (hj : j < n) :
    at' (lanesGo f n i v) j d = f (i + j) (at' v j 0) := by
  induction n generalizing i v j with
  | zero => exact absurd hj (Nat.not_lt_zero j)
  | succ n ih =>
    cases j with
    | zero => cases v <;> rfl
    | succ j =>
      have h := fun v => ih (i + 1) v (Nat.lt_of_succ_lt_succ hj)
      rw [Nat.add_right_comm] at h
      cases v with
      | nil => exact h []
      | cons x r => exact h r

theorem at'_mapLanes {α : Type} (f : Nat → Lane → α) (d : α) (v : VReg) {j : Nat} (hj : j < 256) :
    at' (mapLanes f v) j d = f j (at' v j 0) := by
  rw [mapLanes, at'_lanesGo f d 256 0 v hj, Nat.zero_add]

/-! ## Toward the vector side (R89 to R92) -/

theorem toVector_clean {u : Bundle} {x : Scalar} {e : Pending} (h : x.poison = false) :
    toVector u x e = { u with work := { u.work with pending := u.work.pending ++ [e] } } := by
  simp [toVector, h, mapWork, addPending]

theorem toVector_poisoned {u : Bundle} {x : Scalar} {e : Pending} (h : x.poison = true) : toVector u x e = addFatal u 0x03 0 := if_pos h

theorem bits_high_eq_ofNat (x : Word) : bits x 32 32 = BitVec.ofNat 32 (x.toNat / 2 ^ 32) := by
  apply BitVec.eq_of_toNat_eq
  rw [BitVec.toNat_ofNat]
  exact fieldN_eq x 32 32

theorem bits_low32 (x : Word) : bits x 0 32 = BitVec.ofNat 32 x.toNat := bits_low_eq_ofNat x 32

theorem getLsbD_quarterMask (q : BitVec 2) {j : Nat} (hj : j < 256) : (quarterMask q).getLsbD j = true ↔ j / 64 = q.toNat := by
  rw [quarterMask, BitVec.getLsbD_shiftLeft, BitVec.getLsbD_setWidth, BitVec.getLsbD_allOnes]
  simp only [Bool.and_eq_true, decide_eq_true_eq, Bool.not_eq_true', decide_eq_false_iff_not]
  omega

/-! ## Toward the scalar side (R90) -/

theorem pair_eq_ofNat (lo hi : Lane) : (lo.setWidth 64 ||| (hi.setWidth 64 <<< 32) : Word) = BitVec.ofNat 64 (lo.toNat + 2 ^ 32 * hi.toNat) := by
  have hlo := lo.isLt
  have hhi := hi.isLt
  have h1 : (lo.setWidth 64).toNat = lo.toNat := BitVec.toNat_setWidth_of_le (by decide)
  have h2 : (hi.setWidth 64).toNat = hi.toNat := BitVec.toNat_setWidth_of_le (by decide)
  apply BitVec.eq_of_toNat_eq
  rw [toNat_or_shiftLeft (by omega) (by omega), h1, h2, BitVec.toNat_ofNat, Nat.mod_eq_of_lt (by omega)]

/-! ## Walk parameters (R91) -/

theorem setParam_eq (x : Gen) (p : BitVec 4) (w : Word) :
    setParam x p.toNat w = { x with
      idx := [0, 0, 0, 0]
      base := if p = 0 then BitVec.ofNat 20 w.toNat else x.base
      count := if 1 ≤ p.toNat ∧ p.toNat ≤ 4 then x.count.set (p.toNat - 1) (BitVec.ofNat 16 w.toNat) else x.count
      stride := if 5 ≤ p.toNat ∧ p.toNat ≤ 8 then x.stride.set (p.toNat - 5) (BitVec.ofNat 32 w.toNat) else x.stride
      ctl := if 9 ≤ p.toNat then BitVec.ofNat 3 w.toNat else x.ctl } := by
  have hp : p = 0 ↔ p.toNat = 0 := ⟨fun h => h ▸ rfl, fun h => BitVec.eq_of_toNat_eq h⟩
  simp only [setParam, hp, bits_low_eq_ofNat]
  generalize p.toNat = n
  obtain rfl | ⟨h, h'⟩ | ⟨h, h'⟩ | h : n = 0 ∨ (1 ≤ n ∧ n ≤ 4) ∨ (5 ≤ n ∧ n ≤ 8) ∨ 9 ≤ n := by omega
  · rfl
  · simp [h, h', show n ≠ 0 by omega, show ¬ 5 ≤ n by omega, show ¬ 9 ≤ n by omega]
  · simp [h, h', show n ≠ 0 by omega, show ¬ n ≤ 4 by omega, show ¬ 9 ≤ n by omega]
  · simp [h, show n ≠ 0 by omega, show ¬ n ≤ 4 by omega, show ¬ n ≤ 8 by omega]

/-! ## The status word (R93) -/

/-- The status word of a valid stream, from its fields. -/
def statusWord (done frozen cut : Bool) (digits : Nat) (op : BitVec 7) : Word :=
  1 ||| (if done then 2 else 0) ||| (if frozen then 4 else 0) ||| (if cut then 8 else 0) ||| (BitVec.ofNat 64 digits <<< 8) ||| (op.setWidth 64 <<< 16)

theorem foldl_le_init {α : Type} {f : Nat → α → Nat} (h : ∀ c x, f c x ≤ c) (l : List α) (c : Nat) : l.foldl f c ≤ c := by
  induction l generalizing c with
  | nil => exact le_refl c
  | cons x r ih => exact (ih (f c x)).trans (h c x)

theorem leastDigits_le (z : Stream) (m : Mask) : leastDigits z m ≤ 255 := by
  refine foldl_le_init (fun c i => ?_) _ _
  split
  · exact Nat.min_le_left _ _
  · exact le_refl c

theorem streamStatus_valid {z : Stream} (h : z.valid = true) (frozen : Bool) : ∃ k, k < 256 ∧ streamStatus z frozen =
    statusWord ((openLanes z &&& ~~~z.cut) == 0) (frozen && streamPending z) (z.cut != 0) k z.op := by
  refine ⟨if (openLanes z &&& ~~~z.cut) == 0 then 255 else leastDigits z (~~~z.cut), ?_, ?_⟩
  · have := leastDigits_le z (~~~z.cut)
    split <;> omega
  · simp only [streamStatus, h, Bool.not_true, Bool.false_eq_true, if_false]
    rfl

theorem streamStatus_invalid {z : Stream} (h : z.valid = false) (frozen : Bool) : streamStatus z frozen = 0 := by
  simp [streamStatus, h]

theorem statusWord_flags (done frozen cut : Bool) (k : Nat) (op : BitVec 7) :
    let w := statusWord done frozen cut k op
    w.getLsbD 0 = true ∧ w.getLsbD 1 = done ∧ w.getLsbD 2 = frozen ∧ w.getLsbD 3 = cut := by
  cases done <;> cases frozen <;> cases cut <;> simp [statusWord]

theorem statusWord_op (done frozen cut : Bool) {k : Nat} (hk : k < 256) (op : BitVec 7) : bits (statusWord done frozen cut k op) 16 7 = op := by
  have hlow : (1 ||| (if done then 2 else 0) ||| (if frozen then 4 else 0) ||| (if cut then 8 else 0) ||| (BitVec.ofNat 64 k <<< 8) : Word).toNat < 2 ^ 16 := by
    have hd : (BitVec.ofNat 64 k <<< 8 : Word).toNat < 2 ^ 16 := by
      rw [BitVec.toNat_shiftLeft, BitVec.toNat_ofNat, Nat.shiftLeft_eq]
      omega
    rw [BitVec.toNat_or]
    refine Nat.or_lt_two_pow ?_ hd
    cases done <;> cases frozen <;> cases cut <;> decide
  have hop : (op.setWidth 64).toNat = op.toNat := BitVec.toNat_setWidth_of_le (by decide)
  have := op.isLt
  apply BitVec.eq_of_toNat_eq
  calc (bits (statusWord done frozen cut k op) 16 7).toNat
      = (statusWord done frozen cut k op).toNat / 2 ^ 16 % 2 ^ 7 := fieldN_eq _ 16 7
    _ = op.toNat := by
      rw [statusWord, toNat_or_shiftLeft hlow (by omega), hop]
      omega

/-- The status of a valid stream, field by field. -/
theorem streamStatus_bits {z : Stream} (hv : z.valid = true) (frozen : Bool) :
    (streamStatus z frozen).getLsbD 0 = true ∧
    ((streamStatus z frozen).getLsbD 1 = true ↔ openLanes z &&& ~~~z.cut = 0) ∧
    ((streamStatus z frozen).getLsbD 2 = true ↔ frozen = true ∧ (z.left ≠ 0 ∨ z.olds ≠ [])) ∧
    ((streamStatus z frozen).getLsbD 3 = true ↔ z.cut ≠ 0) ∧ bits (streamStatus z frozen) 16 7 = z.op := by
  obtain ⟨k, hk, hw⟩ := streamStatus_valid hv frozen
  obtain ⟨h0, h1, h2, h3⟩ := statusWord_flags ((openLanes z &&& ~~~z.cut) == 0) (frozen && streamPending z) (z.cut != 0) k z.op
  rw [hw, h0, h1, h2, h3]
  exact ⟨rfl, beq_iff_eq, by simp [streamPending], bne_iff_ne, statusWord_op _ _ _ hk _⟩

/-! ## The operations -/

/-- Settles O33: each direction by the poison of its source, the status word bit by bit. -/
theorem transferSlot : Obligations.TransferSlot := by
  intro v d l g z e p q
  refine ⟨?_, ?_, fun s b hb hc => ⟨_, answersWhen_of (exec_xtov v d l 2) (fun s u h => toVector_clean h) s b hb hc, rfl, rfl, rfl, rfl, ?_, fun hl => ?_⟩,
    ?_, ?_, ?_, ?_, ?_, ?_, fun x w => ?_, ?_, ?_, fun j hj => getLsbD_quarterMask q hj, ?_, fun s b hb => ?_⟩
  · exact answersWhen_of (exec_xtov v d l 0) fun s u h => (toVector_clean h).trans (by rw [← bits_low32]; rfl)
  · exact answersWhen_of (exec_xtov v d l 1) fun s u h => (toVector_clean h).trans (by rw [← bits_low32]; rfl)
  · exact (at'_mapLanes _ _ _ l.isLt).trans ((if_pos rfl).trans (bits_low32 _))
  · exact (at'_mapLanes _ _ _ (by omega)).trans ((if_neg (by omega)).trans (bits_high_eq_ofNat _))
  · exact answersWhen_of (exec_xtov v d l q) fun s u h => toVector_poisoned h
  · exact answers_of (exec_xfromv v d l 0) fun s u => rfl
  · exact answers_of (exec_xfromv v d l 1) fun s u => by
      rw [BitVec.ofNat_toNat]
      rfl
  · exact answers_of (exec_xfromv v d l 2) fun s u => by
      rw [← pair_eq_ofNat]
      rfl
  · exact answersWhen_of (exec_xag g p d) fun s u h => toVector_poisoned h
  · exact answersWhen_of (exec_xag g p d) fun s u h => toVector_clean h
  · rw [setParam_eq]
    exact ⟨rfl, rfl, rfl, rfl, rfl⟩
  · exact answersWhen_of (exec_xmask g 0 q d) fun s u h => by
      simp only [if_true, h]
      exact toVector_poisoned h
  · exact answersWhen_of (exec_xmask g 0 q d) fun s u h => by
      simp only [if_true, h, toVector_clean h]
      rfl
  · exact answers_of (exec_xmask g 1 q d) fun s u => rfl
  · refine ⟨_, answers_of (exec_xsts z e d) (fun s u => rfl) s b hb, fun he => if_neg fun h => ?_, ?_, ?_⟩
    · rw [h] at he
      exact absurd he (by decide)
    · rintro rfl hv
      exact (if_pos rfl).trans (streamStatus_invalid hv _)
    · rintro rfl hv
      rw [if_pos rfl]
      exact streamStatus_bits hv _

end Sys2Proof.Proofs

/-! # Results that land, complete streams and decisions (05_sequencer_and_tile_task R110; 11_digit_streams R226, R231; 03_sync_and_transfer_instructions R88) -/

namespace Sys2Proof.Proofs
open Sys2Proof.Machine Sys2Proof.Laws

/-! ## What a destination holds -/

/-- The contents of a destination: a scalar, lanes, mask bits, or a generator. -/
inductive Held where
  | scalar (x : Scalar)
  | lanes (v : VReg)
  | mask (m : Mask)
  | gen (g : Gen)

/-- What the register of a destination holds. -/
def holds (q : Seq) : Dest → Held
  | .queue a => .scalar (at' q.q a {})
  | .shadow a => .scalar (at' q.sq a {})
  | .named a => .scalar (at' q.g a {})
  | .vector k => .lanes (at' q.v k [])
  | .mask k => .mask (at' q.m k 0)
  | .param g _ => .gen (at' q.ag g {})

/-- Whether a destination's register is one of its file. -/
def Listed (q : Seq) : Dest → Prop
  | .queue a => a < q.q.length
  | .shadow a => a < q.sq.length
  | .named a => a < q.g.length
  | .vector k => k < q.v.length
  | .mask k => k < q.m.length
  | .param g _ => g < q.ag.length

/-- The register of a destination: the parameters of a generator share one. -/
def regOf : Dest → Dest
  | .param g _ => .param g 0
  | d => d

/-- What an entry for destination `d` makes of what the register held (R110). -/
def heldAfter (e : Pending) (d : Dest) (old : Held) : Held :=
  match d, old with
  | .vector _, .lanes v => .lanes (mergeLanes e.lanes e.vec v)
  | .mask _, .mask m => .mask ((m &&& ~~~e.lanes) ||| (e.mvec &&& e.lanes))
  | .param _ p, .gen g => .gen (setParam g p e.value.bits)
  | _, _ => .scalar e.value

/-- The register of a destination given new contents. -/
def putHeld (q : Seq) : Dest → Held → Seq
  | .queue a, .scalar x => { q with q := q.q.set a x }
  | .shadow a, .scalar x => { q with sq := q.sq.set a x }
  | .named a, .scalar x => { q with g := q.g.set a x }
  | .vector k, .lanes v => { q with v := q.v.set k v }
  | .mask k, .mask m => { q with m := q.m.set k m }
  | .param g _, .gen x => { q with ag := q.ag.set g x }
  | _, _ => q

/-- The register files that results land in. -/
def files (q : Seq) : List Scalar × List Scalar × List Scalar × List VReg × List Mask × List Gen := (q.q, q.sq, q.g, q.v, q.m, q.ag)

theorem holds_of_files {q w : Seq} (h : files w = files q) (d : Dest) : holds w d = holds q d := by
  simp only [files, Prod.mk.injEq] at h
  cases d <;> simp only [holds, h]

theorem listed_of_files {q w : Seq} (h : files w = files q) (d : Dest) : Listed w d ↔ Listed q d := by
  simp only [files, Prod.mk.injEq] at h
  cases d <;> simp only [Listed, h]

theorem at'_set_ne {α : Type} {l : List α} {i j : Nat} (h : j ≠ i) (x d : α) : at' (l.set i x) j d = at' l j d := by
  simp [at', List.getD_eq_getElem?_getD, List.getElem?_set_ne h.symm]

theorem putHeld_other {q : Seq} {d e : Dest} (hd : regOf d ≠ regOf e) (h : Held) : holds (putHeld q e h) d = holds q d := by
  cases e <;> cases h <;> cases d <;> simp_all [putHeld, holds, regOf, at'_set_ne]

theorem listed_putHeld (q : Seq) (e d : Dest) (h : Held) : Listed (putHeld q e h) d ↔ Listed q d := by
  cases e <;> cases h <;> cases d <;> simp [putHeld, Listed]

theorem putHeld_same {q : Seq} {d : Dest} (hd : Listed q d) (e : Pending) :
    holds (putHeld q d (heldAfter e d (holds q d))) d = heldAfter e d (holds q d) := by
  cases d <;> exact congrArg _ ((at'_set hd _ _ _).trans (if_pos rfl))

/-! ## One entry -/

/-- An entry without lanes lands nowhere; any other changes its own register. -/
theorem land_files (q : Seq) (e : Pending) :
    files (land q e) = files (if e.lanes = 0 then q else putHeld q e.dest (heldAfter e e.dest (holds q e.dest))) := by
  by_cases h : e.lanes = 0
  · simp only [land, h, beq_self_eq_true, if_true]
    cases e.dest <;> rfl
  · simp only [land, beq_false_of_ne h, h, Bool.false_eq_true, if_false]
    cases e.dest <;> rfl

theorem land_empty {q : Seq} {e : Pending} (h : e.lanes = 0) (d : Dest) : holds (land q e) d = holds q d :=
  holds_of_files ((land_files q e).trans (by rw [if_pos h])) d

theorem land_same {q : Seq} {e : Pending} (h : e.lanes ≠ 0) (hd : Listed q e.dest) : holds (land q e) e.dest = heldAfter e e.dest (holds q e.dest) := by
  rw [holds_of_files (land_files q e), if_neg h, putHeld_same hd]

theorem land_other {q : Seq} {e : Pending} {d : Dest} (hd : regOf d ≠ regOf e.dest) : holds (land q e) d = holds q d := by
  rw [holds_of_files (land_files q e)]
  split
  · rfl
  · exact putHeld_other hd _

theorem listed_land (q : Seq) (e : Pending) (d : Dest) : Listed (land q e) d ↔ Listed q d := by
  rw [listed_of_files (land_files q e)]
  split
  · rfl
  · exact listed_putHeld q e.dest d _

theorem land_fpstat (q : Seq) (e : Pending) : (land q e).sr.fpstat = q.sr.fpstat ||| e.flags := by
  cases h : e.lanes == 0 <;> simp only [land, h] <;> cases e.dest <;> rfl

theorem land_pc (q : Seq) (e : Pending) : (land q e).pc = q.pc := by
  cases h : e.lanes == 0 <;> simp only [land, h] <;> cases e.dest <;> rfl

/-! ## The entries of a clock, in the order of issue -/

/-- The entries due among a list, landed one after another. -/
def landAll (l : List Pending) (q : Seq) : Seq := (l.filter (fun e => e.left == 0)).foldl land q

/-- The entries that stand after a list has landed over those in `kept`. -/
def standing : List Pending → List Pending → List Pending
  | [], kept => kept
  | e :: r, kept => if e.left = 0 then standing r (dropLanes e.dest e.lanes kept) else standing r (kept ++ [e])

theorem landGo_eq (l kept : List Pending) (q : Seq) : landGo l kept q = { landAll l q with pending := standing l kept } := by
  induction l generalizing kept q with
  | nil => rfl
  | cons e r ih =>
    by_cases h : e.left = 0
    · simp [landGo, standing, landAll, h, ih]
    · simp [landGo, standing, landAll, h, ih]

theorem landDue_eq (q : Seq) : landDue q = { landAll q.pending q with pending := standing q.pending [] } := landGo_eq _ _ _

/-- What no entry due changes, all of them together leave alone. -/
theorem landAll_keeps {α : Type} {f : Seq → α} {l : List Pending} (h : ∀ e ∈ l, e.left = 0 → ∀ q, f (land q e) = f q) (q : Seq) :
    f (landAll l q) = f q := by
  unfold landAll
  induction l generalizing q with
  | nil => rfl
  | cons e r ih =>
    have hr := ih (fun x hx => h x (List.mem_cons_of_mem e hx))
    by_cases he : e.left = 0
    · rw [List.filter_cons_of_pos (by simp [he]), List.foldl_cons, hr, h e List.mem_cons_self he]
    · rw [List.filter_cons_of_neg (by simp [he]), hr]

theorem landAll_append (l r : List Pending) (q : Seq) : landAll (l ++ r) q = landAll r (landAll l q) := by
  simp [landAll, List.filter_append, List.foldl_append]

theorem landAll_cons_due {e : Pending} (he : e.left = 0) (r : List Pending) (q : Seq) : landAll (e :: r) q = landAll r (land q e) := by
  simp [landAll, he]

theorem landAll_fpstat (l : List Pending) (q : Seq) :
    (landAll l q).sr.fpstat = (l.filter (fun e => e.left == 0)).foldl (fun f e => f ||| e.flags) q.sr.fpstat :=
  (List.foldl_hom (fun q : Seq => q.sr.fpstat) (fun q e => (land_fpstat q e).symm)).symm

theorem listed_landAll (l : List Pending) (q : Seq) (d : Dest) : Listed (landAll l q) d ↔ Listed q d :=
  iff_of_eq (landAll_keeps (f := fun q => Listed q d) (fun e _ _ q => propext (listed_land q e d)) q)

/-- A register that no entry due lands in stands. -/
theorem holds_landAll {l : List Pending} {d : Dest} (h : ∀ e ∈ l, e.left = 0 → e.lanes ≠ 0 → regOf e.dest ≠ regOf d) (q : Seq) :
    holds (landAll l q) d = holds q d :=
  landAll_keeps (f := fun q => holds q d) (fun e he h0 q => by
    by_cases hl : e.lanes = 0
    · exact land_empty hl d
    · exact land_other (h e he h0 hl).symm) q

/-- The last entry due in a register stands over what the earlier ones left there. -/
theorem holds_landAll_last {l r : List Pending} {e : Pending} (q : Seq) (he : e.left = 0) (hl : e.lanes ≠ 0) (hd : Listed q e.dest)
    (hr : ∀ x ∈ r, x.left = 0 → x.lanes ≠ 0 → regOf x.dest ≠ regOf e.dest) :
    holds (landAll (l ++ e :: r) q) e.dest = heldAfter e e.dest (holds (landAll l q) e.dest) := by
  rw [landAll_append, landAll_cons_due he, holds_landAll hr, land_same hl ((listed_landAll l q e.dest).2 hd)]

/-! ## The entries that stand -/

/-- An entry but for its lanes. -/
def withoutLanes (e : Pending) : Pending := { e with lanes := 0 }

theorem dropLanes_map_withoutLanes (d : Dest) (m : Mask) (p : List Pending) : (dropLanes d m p).map withoutLanes = p.map withoutLanes := by
  rw [dropLanes, List.map_map]
  refine List.map_congr_left fun e _ => ?_
  dsimp only [Function.comp]
  split <;> rfl

theorem standing_map_withoutLanes (l kept : List Pending) :
    (standing l kept).map withoutLanes = (kept ++ l.filter (fun e => e.left != 0)).map withoutLanes := by
  induction l generalizing kept with
  | nil => simp [standing]
  | cons e r ih =>
    by_cases h : e.left = 0
    · simp [standing, h, ih, dropLanes_map_withoutLanes]
    · simp [standing, h, ih]

theorem mem_standing {l kept : List Pending} {e : Pending} (h : e ∈ kept ∨ e ∈ l ∧ e.left ≠ 0) (hd : ∀ x ∈ l, x.left = 0 → x.dest ≠ e.dest) :
    e ∈ standing l kept := by
  induction l generalizing kept with
  | nil => simpa [standing] using h
  | cons y r ih =>
    have hr := fun x hx => hd x (List.mem_cons_of_mem y hx)
    by_cases hy : y.left = 0
    · rw [standing, if_pos hy]
      refine ih (h.imp (fun hk => ?_) (fun ⟨hm, h0⟩ => ⟨(List.mem_cons.1 hm).resolve_left ?_, h0⟩)) hr
      · exact List.mem_map.2 ⟨e, hk, if_neg fun hb => hd y List.mem_cons_self hy (beq_iff_eq.1 hb).symm⟩
      · rintro rfl
        exact h0 hy
    · rw [standing, if_neg hy]
      refine ih ?_ hr
      rcases h with hk | ⟨hm, h0⟩
      · exact .inl (List.mem_append_left _ hk)
      · exact (List.mem_cons.1 hm).imp (fun h => List.mem_append_right _ (List.mem_singleton.2 h)) (fun h => ⟨h, h0⟩)

/-! ## The source rule at a landing (R227) -/

theorem breakSource_frame (fr : Nat) (q : Seq) (c : BitVec 6) : ∃ l z, breakSource fr q c = { q with leaving := l, z := z } := by
  unfold breakSource
  dsimp only
  split
  · exact ⟨q.leaving, q.z, rfl⟩
  · exact ⟨_, _, rfl⟩

/-- The source rule changes streams only. -/
theorem breakLanding_frame (fr : Nat) (q : Seq) : ∃ l z, breakLanding fr q = { q with leaving := l, z := z } := by
  unfold breakLanding
  refine List.foldlRecOn (motive := fun x : Seq => ∃ l z, x = { q with leaving := l, z := z }) _ _ ⟨q.leaving, q.z, rfl⟩ ?_
  rintro _ ⟨l, z, rfl⟩ e -
  split
  · split
    next k _ =>
      obtain ⟨l', z', h⟩ := breakSource_frame fr { q with leaving := l, z := z } (BitVec.ofNat 6 k)
      exact ⟨l', z', h⟩
    · exact ⟨l, z, rfl⟩
  · exact ⟨l, z, rfl⟩

/-! ## Lanes of two registers -/

theorem at'_zipLanesGo (f : Nat → Lane → Lane → Lane) (n i : Nat) (a b : VReg) {j : Nat} (hj : j < n) :
    at' (zipLanesGo f n i a b) j 0 = f (i + j) (at' a j 0) (at' b j 0) := by
  induction n generalizing i a b j with
  | zero => exact absurd hj (Nat.not_lt_zero j)
  | succ n ih =>
    cases j with
    | zero => cases a <;> cases b <;> rfl
    | succ j =>
      have h := ih (i + 1) a.tail b.tail (Nat.lt_of_succ_lt_succ hj)
      rw [Nat.add_right_comm] at h
      refine h.trans ?_
      cases a <;> cases b <;> rfl

theorem at'_mergeLanes (m : Mask) (new old : VReg) {j : Nat} (hj : j < 256) :
    at' (mergeLanes m new old) j 0 = if m.getLsbD j then at' new j 0 else at' old j 0 := by
  rw [mergeLanes, zipLanes, at'_zipLanesGo _ 256 0 new old hj, Nat.zero_add]

theorem getLsbD_mergeMask {m new : Mask} (old : Mask) {j : Nat} (hj : j < 256) (h : m.getLsbD j = true) :
    ((old &&& ~~~m) ||| (new &&& m)).getLsbD j = new.getLsbD j := by
  simp only [BitVec.getLsbD_or, BitVec.getLsbD_and, BitVec.getLsbD_not, h, hj]
  simp

/-! ## A sequencer's step -/

theorem getSeq_modSeq (s : State) (n k : Nat) (f : Seq → Seq) : getSeq (modSeq s n f) k = if k = n then f (getSeq s n) else getSeq s k :=
  getSeq_setSeq s n k _

theorem getSeq_modSeq_same (s : State) (n : Nat) (f : Seq → Seq) : getSeq (modSeq s n f) n = f (getSeq s n) := getSeq_setSeq_same s n _

/-! ## PENDING_WRITE_LANDING (R110) -/

/-- A sequencer once what is due has landed; the source rule has left `l` and `z` of its streams. -/
def afterLanding (q : Seq) (l : List (Nat × Stream)) (z : List Stream) : Seq :=
  { landAll q.pending { q with leaving := l, z := z } with pending := standing q.pending [] }

theorem pendingWriteLanding_next {s : State} {n : Nat} (hn : n < 512) (h : (getSeq s n).pending.any (fun e => e.left == 0) = true) :
    ∃ t l z, exec (.pendingWriteLanding n) s = .next t ∧ t.mem = s.mem ∧ (∀ k, k ≠ n → getSeq t k = getSeq s k) ∧
      getSeq t n = afterLanding (getSeq s n) l z := by
  obtain ⟨l, z, hb⟩ := breakLanding_frame s.free (getSeq s n)
  refine ⟨{ modSeq s n (fun q => landDue (breakLanding s.free q)) with free := s.free + 1 }, l, z, ?_, rfl,
    fun k hk => (getSeq_modSeq s n k fun q => landDue (breakLanding s.free q)).trans (if_neg hk), ?_⟩
  · exact (if_neg (Nat.not_le.2 hn)).trans (if_pos h)
  · refine (getSeq_modSeq_same s n fun q => landDue (breakLanding s.free q)).trans ?_
    rw [hb, landDue_eq]
    rfl

theorem regOf_ne {d e : Dest} (h : d ≠ e) (he : ∀ g p, e ≠ .param g p) : regOf d ≠ regOf e := by
  cases e with
  | param g p => exact absurd rfl (he g p)
  | _ =>
    cases d with
    | param => exact Dest.noConfusion
    | _ => exact h

section
variable {q : Seq} {lv : List (Nat × Stream)} {z : List Stream}

theorem holds_afterLanding_other {d : Dest} (hd : ∀ g p, d ≠ .param g p) (h : ¬ ∃ e ∈ q.pending, e.left = 0 ∧ e.lanes ≠ 0 ∧ e.dest = d) :
    holds (afterLanding q lv z) d = holds q d := by
  have hall := holds_landAll (fun e he h0 hl => regOf_ne (fun hx => h ⟨e, he, h0, hl, hx⟩) hd) { q with leaving := lv, z := z }
  exact (holds_of_files rfl d).trans (hall.trans (holds_of_files rfl d))

variable {l r : List Pending} {e : Pending} {d : Dest} (hq : q.pending = l ++ e :: r) (he : e.left = 0) (hl : e.lanes ≠ 0)
  (hd : e.dest = d) (hf : Listed { q with leaving := lv, z := z } d)
include hq he hl hd hf

theorem holds_afterLanding_last (hr : ∀ x ∈ r, x.left = 0 → x.lanes ≠ 0 → x.dest ≠ e.dest) (hp : ∀ g p, d ≠ .param g p) :
    holds (afterLanding q lv z) d = heldAfter e d (holds (landAll l { q with leaving := lv, z := z }) d) := by
  subst hd
  have hlast := holds_landAll_last (l := l) { q with leaving := lv, z := z } he hl hf fun x hx h0 hxl => regOf_ne (hr x hx h0 hxl) hp
  rw [← hq] at hlast
  exact (holds_of_files rfl _).trans hlast

theorem holds_afterLanding_only (h : ∀ x ∈ l ++ r, x.left = 0 → regOf x.dest ≠ regOf d) :
    holds (afterLanding q lv z) d = heldAfter e d (holds q d) := by
  subst hd
  have hlast := holds_landAll_last (l := l) { q with leaving := lv, z := z } he hl hf fun x hx h0 _ => h x (List.mem_append_right l hx) h0
  have hfirst := holds_landAll (fun x hx h0 _ => h x (List.mem_append_left r hx) h0) { q with leaving := lv, z := z }
  rw [hfirst, ← hq] at hlast
  exact (holds_of_files rfl _).trans (hlast.trans (congrArg _ (holds_of_files rfl _)))

end

theorem afterLanding_pc (q : Seq) (l : List (Nat × Stream)) (z : List Stream) : (afterLanding q l z).pc = q.pc :=
  landAll_keeps (f := Seq.pc) (fun e _ _ q => land_pc q e) _

theorem afterLanding_fpstat (q : Seq) (l : List (Nat × Stream)) (z : List Stream) : (afterLanding q l z).sr.fpstat =
    (q.pending.filter (fun e => e.left == 0)).foldl (fun f e => f ||| e.flags) q.sr.fpstat := landAll_fpstat q.pending _

theorem afterLanding_pending (q : Seq) (l : List (Nat × Stream)) (z : List Stream) :
    (afterLanding q l z).pending.map withoutLanes = (q.pending.filter (fun e => e.left != 0)).map withoutLanes :=
  standing_map_withoutLanes q.pending []

/-! ## STREAM_COMPLETION (R226) -/

theorem lt_length_of_at'_ne {α : Type} {l : List α} {i : Nat} {d : α} (h : at' l i d ≠ d) : i < l.length := by
  by_contra hi
  exact h (List.getD_eq_default _ _ (Nat.not_lt.1 hi))

theorem streamCompletion_next {s : State} {n z : Nat} (hn : n < 512) (hv : (at' (getSeq s n).z z {}).valid = true)
    (h0 : (at' (getSeq s n).z z {}).left = 0) (hd : (at' (getSeq s n).z z {}).done = false) :
    ∃ t, exec (.streamCompletion n z) s = .next t ∧ at' (getSeq t n).z z {} = { at' (getSeq s n).z z {} with done := true } ∧ t.mem = s.mem := by
  have hz : z < (getSeq s n).z.length := lt_length_of_at'_ne (d := {}) fun h => by rw [h] at hv; cases hv
  refine ⟨modSeq s n (fun q => completeStream q z), ?_, ?_, rfl⟩
  · exact (if_neg (Nat.not_le.2 hn)).trans (if_pos (by rw [hv, h0, hd]; rfl))
  · rw [getSeq_modSeq_same]
    exact (at'_set hz z _ _).trans (if_pos rfl)

/-! ## VDEC_DECISION (R231) -/

/-- A stream whose decision for mask `r`, if issued before `d`, loses the lanes that `d` lands in. -/
def loseTo (r : Nat) (m : Mask) (d : Vdec) (y : Stream) : Stream :=
  { y with vdec := y.vdec.map (fun o => if o.md.toNat = r ∧ o.issued.toNat < d.issued.toNat then { o with lost := o.lost ||| m } else o) }

theorem prevail_z (q : Seq) (r : Nat) (m : Mask) (d : Vdec) (b : Mask) : (prevail q r m d b).z = q.z.map (loseTo r m d) := rfl

section
variable (c : Nat) (q : Seq) (k : Nat) (d : Vdec)


theorem landVdec_m : (landVdec c q k d).m =
    q.m.set d.md.toNat ((at' q.m d.md.toNat 0 &&& ~~~(d.scope &&& ~~~d.lost)) ||| (d.bits &&& (d.scope &&& ~~~d.lost))) := by
  simp only [landVdec]
  split <;> split <;> rfl

theorem landVdec_fInc : (landVdec c q k d).fInc =
    if d.pe then q.fInc.set d.flag.toNat (at' q.fInc d.flag.toNat 0 + 1) else q.fInc := by
  simp only [landVdec]
  split <;> split <;> rfl

theorem landVdec_z : (landVdec c q k d).z =
    (q.z.set k { at' q.z k {} with vdec := none, decided := d.scope }).map (loseTo d.md.toNat (d.scope &&& ~~~d.lost) d) := by
  simp only [landVdec]
  split <;> split <;> rfl

theorem landVdec_vdec (hk : k < q.z.length) : (at' (landVdec c q k d).z k {}).vdec = none := by
  rw [landVdec_z]
  refine (congrArg Stream.vdec (List.getD_map _ {} (loseTo d.md.toNat (d.scope &&& ~~~d.lost) d))).trans ?_
  rw [← at', at'_set hk, if_pos rfl]
  rfl

end

theorem vdecDecision_next {s : State} {n z : Nat} {d : Vdec} (hn : n < 512) (hv : (at' (getSeq s n).z z {}).vdec = some d)
    (hd : vdecDue d = true) :
    ∃ t, exec (.vdecDecision n z) s = .next t ∧ t.mem = s.mem ∧ getSeq t n = landVdec s.clock (getSeq s n) z d := by
  refine ⟨modSeq s n (fun q => landVdec s.clock q z d), ?_, rfl, getSeq_modSeq_same s n _⟩
  rw [exec_vdecDecision, execVdecDecision, if_neg (Nat.not_le.2 hn)]
  simp only [hv, hd, if_true]

/-! ## The statement -/

/-- Settles O48: the entries due are taken in the order of issue, the last one of a register over the earlier ones. -/
theorem landingSteps : Obligations.LandingSteps := by
  refine fun s n hn => ⟨fun h => ?_, fun z hv h0 hd => ?_, fun z d hv hd hm => ?_⟩
  · obtain ⟨t, lv, z, hx, hmem, hother, ht⟩ := pendingWriteLanding_next hn h
    refine ⟨t, hx, hmem, hother, ?_⟩
    dsimp only
    rw [ht]
    refine ⟨afterLanding_pc _ _ _, afterLanding_pending _ _ _, fun e he h0 hd => mem_standing (.inr ⟨he, h0⟩) hd, afterLanding_fpstat _ _ _,
      fun l e r hq he hl hr => ⟨fun a ha hd => ?_, fun a ha hd => ?_, fun a ha hd => ?_, fun g p hg hd hp => ?_,
        fun j hj hb => ⟨fun k hk hd => ?_, fun k hk hd => ?_⟩⟩,
      fun a ha => ?_, fun a ha => ?_, fun a ha => ?_, fun k hk => ?_, fun k hk => ?_⟩
    · exact Held.scalar.inj (holds_afterLanding_last hq he hl ha hd hr nofun)
    · exact Held.scalar.inj (holds_afterLanding_last hq he hl ha hd hr nofun)
    · exact Held.scalar.inj (holds_afterLanding_last hq he hl ha hd hr nofun)
    · refine Held.gen.inj (holds_afterLanding_only hq he hl hg hd fun x hx h0 => ?_)
      cases hx' : x.dest with
      | param b k =>
        have : b ≠ g := fun hb => hp x hx h0 k (hb ▸ hx')
        simpa [regOf] using this
      | _ => exact Dest.noConfusion
    · have h := Held.lanes.inj (holds_afterLanding_last (lv := lv) (z := z) hq he hl hk hd hr nofun)
      rw [h, at'_mergeLanes _ _ _ hj, if_pos hb]
    · have h := Held.mask.inj (holds_afterLanding_last (lv := lv) (z := z) hq he hl hk hd hr nofun)
      rw [h, getLsbD_mergeMask _ hj hb]
    · exact Held.scalar.inj (holds_afterLanding_other (d := .queue a) nofun ha)
    · exact Held.scalar.inj (holds_afterLanding_other (d := .shadow a) nofun ha)
    · exact Held.scalar.inj (holds_afterLanding_other (d := .named a) nofun ha)
    · exact Held.lanes.inj (holds_afterLanding_other (d := .vector k) nofun hk)
    · exact Held.mask.inj (holds_afterLanding_other (d := .mask k) nofun hk)
  · obtain ⟨t, hx, hz, hmem⟩ := streamCompletion_next hn hv h0 hd
    exact ⟨t, hx, by rw [hz], by rw [hz], hmem⟩
  · obtain ⟨t, hx, hmem, ht⟩ := vdecDecision_next hn hv hd
    have hz : z < (getSeq s n).z.length := lt_length_of_at'_ne (d := {}) fun h => by rw [h] at hv; cases hv
    refine ⟨t, hx, hmem, ?_, ?_, fun hp hf => ?_⟩ <;> rw [ht]
    · exact landVdec_vdec _ _ _ _ hz
    · rw [landVdec_m]
      exact (at'_set hm _ _ _).trans (if_pos rfl)
    · rw [landVdec_fInc, if_pos hp]
      exact (at'_set hf _ _ _).trans (if_pos rfl)

end Sys2Proof.Proofs

/-! # Tiles, segments, the watchdog and the end of a task (05_sequencer_and_tile_task R104, R119, R120; 03_sync_and_transfer_instructions R84;
10_spaces_ranges_pages R219; 20_command_processor_and_launch R358) -/

namespace Sys2Proof.Proofs
open Sys2Proof.Machine Sys2Proof.Laws

/-! ## What an access leaves behind -/

theorem passLinks_frame (s : State) (a b : Nat) : ∃ l, passLinks s a b = { s with links := l } := by
  refine List.foldlRecOn (motive := fun t : State => ∃ l, t = { s with links := l }) _ _ ⟨s.links, rfl⟩ ?_
  rintro _ ⟨l, rfl⟩ k -
  unfold passLink
  dsimp only
  split
  · exact ⟨l, rfl⟩
  · exact ⟨_, rfl⟩

theorem flits_frame (s : State) (n fa : Nat) : ∃ p, flits s n fa = { s with ports := p } := by
  unfold flits
  split
  · exact ⟨_, rfl⟩
  · exact ⟨s.ports, rfl⟩

/-- An access counts replies, flits and records, and nothing else. -/
theorem countReach_frame (s : State) (n c fa : Nat) (r : Reach) :
    ∃ d l p e, countReach s n c fa r = { s with dies := d, links := l, ports := p, events := e } := by
  obtain ⟨l, hl⟩ : ∃ l, (if linkFailed s n fa || r == .blocked then s else passLinks s (n / 128) (targetDie fa)) = { s with links := l } := by
    split
    · exact ⟨s.links, rfl⟩
    · exact passLinks_frame _ _ _
  obtain ⟨p, hp⟩ := flits_frame { s with links := l } n fa
  unfold countReach
  simp only [hl, hp]
  split
  · exact ⟨_, l, s.ports, s.events, rfl⟩
  · exact ⟨s.dies, l, p, s.events, rfl⟩
  · exact ⟨s.dies, l, p, s.events, rfl⟩
  · split
    · exact ⟨s.dies, l, s.ports, s.events, rfl⟩
    split
    · exact ⟨s.dies, l, p, s.events, rfl⟩
    split
    · split
      · split
        · exact ⟨s.dies, l, s.ports, _, rfl⟩
        · exact ⟨s.dies, l, s.ports, s.events, rfl⟩
      · exact ⟨s.dies, l, s.ports, s.events, rfl⟩
    · exact ⟨s.dies, l, s.ports, s.events, rfl⟩
  · exact ⟨s.dies, l, s.ports, s.events, rfl⟩

/-- Damage read is recorded, and counted at its site or port. -/
theorem recordDamage_frame (s : State) (p : Nat) : ∃ e x y, recordDamage s p = { s with events := e, sites := x, cxl := y } := by
  unfold recordDamage
  dsimp only
  split
  · exact ⟨_, _, s.cxl, rfl⟩
  split
  · split
    · exact ⟨_, s.sites, _, rfl⟩
    · exact ⟨_, s.sites, s.cxl, rfl⟩
  · exact ⟨_, s.sites, s.cxl, rfl⟩

theorem foldl_recordDamage_frame (l : List Nat) (s : State) :
    ∃ e x y, l.foldl recordDamage s = { s with events := e, sites := x, cxl := y } := by
  refine List.foldlRecOn (motive := fun t : State => ∃ e x y, t = { s with events := e, sites := x, cxl := y }) _ _
    ⟨s.events, s.sites, s.cxl, rfl⟩ ?_
  rintro _ ⟨e, x, y, rfl⟩ p -
  obtain ⟨e', x', y', h⟩ := recordDamage_frame { s with events := e, sites := x, cxl := y } p
  exact ⟨e', x', y', h⟩

theorem storePoisoned_frame (s : State) (p : Nat) (l : List Byte) : ∃ m k, storePoisoned s p l = { s with mem := m, poison := k } := by
  unfold storePoisoned
  split <;> exact ⟨_, _, rfl⟩

/-! ## The reads of a core, and the launches -/

/-- The launches and the queues stand. -/
def SameQueues (s t : State) : Prop := t.launches = s.launches ∧ t.queues = s.queues

theorem SameQueues.trans {s t u : State} (h : SameQueues s t) (k : SameQueues t u) : SameQueues s u :=
  ⟨k.1.trans h.1, k.2.trans h.2⟩

theorem sameQueues_modCtx (s : State) (c : Nat) (f : Ctx → Ctx) : SameQueues s (modCtx s c f) := by
  rcases modCtx_frame s c f with h | ⟨x, h⟩ <;> rw [h] <;> exact ⟨rfl, rfl⟩

theorem sameQueues_countReach (s : State) (n c fa : Nat) (r : Reach) : SameQueues s (countReach s n c fa r) := by
  obtain ⟨d, l, p, e, h⟩ := countReach_frame s n c fa r
  rw [h]
  exact ⟨rfl, rfl⟩

theorem sameQueues_recordDamages (l : List Nat) (s : State) : SameQueues s (l.foldl recordDamage s) := by
  obtain ⟨e, x, y, h⟩ := foldl_recordDamage_frame l s
  rw [h]
  exact ⟨rfl, rfl⟩

theorem sameQueues_writePost (s : State) (a n f k : Nat) (l : List Byte) : SameQueues s (postFlag (writeBytes s a l) n f k) := ⟨rfl, rfl⟩

theorem sameQueues_deliverUpcall (s : State) (c : Nat) (r : Pager) (page : Nat) (h : HeldRequest) :
    SameQueues s (deliverUpcall s c r page h).1 := by
  obtain ⟨l, hl⟩ := passLinks_frame s (controllerDie page) (r.seq / 128)
  simp only [deliverUpcall, hl]
  split
  · exact ⟨rfl, rfl⟩
  split
  · exact ⟨rfl, rfl⟩
  split
  · exact ⟨rfl, rfl⟩
  · exact sameQueues_writePost _ _ _ _ _ _

theorem sameQueues_joinWait (s : State) (c : Nat) (h : HeldRequest) : SameQueues s (joinWait s c h) := by
  unfold joinWait
  split
  · exact ⟨rfl, rfl⟩
  split
  · exact ⟨rfl, rfl⟩
  dsimp only
  split
  · exact ⟨rfl, rfl⟩
  split
  · exact (sameQueues_deliverUpcall _ _ _ _ _).trans (sameQueues_modCtx _ _ _)
  · exact ⟨rfl, rfl⟩

theorem sameQueues_coreJoins (s : State) (a c : Nat) (x : Reach) (w : Bool) (k : Nat) : SameQueues s (coreJoins s a c x w k) := by
  unfold coreJoins
  dsimp only
  split
  · split
    · exact ⟨rfl, rfl⟩
    · exact sameQueues_joinWait _ _ _
  · exact sameQueues_modCtx _ _ _
  · exact ⟨rfl, rfl⟩

theorem sameQueues_coreNote (s : State) (a c fa n : Nat) : SameQueues s (coreNote s a c fa n) := by
  have hc := sameQueues_countReach s (readerAt a) c fa (coreReach s (readerAt a) c fa 1)
  unfold coreNote
  dsimp only
  split
  · exact hc.trans (sameQueues_recordDamages _ _)
  · exact hc.trans (sameQueues_recordDamages _ _)
  · split
    · exact hc
    · exact hc.trans (sameQueues_coreJoins _ _ _ _ _ _)
  · exact hc

theorem sameQueues_noteReads (s : State) (a c : Nat) (l : List (Nat × Nat)) : SameQueues s (noteReads s a c l) := by
  induction l generalizing s with
  | nil => exact ⟨rfl, rfl⟩
  | cons x r ih =>
    unfold noteReads
    split
    · exact (sameQueues_coreNote _ _ _ _ _).trans (ih _)
    · exact sameQueues_coreNote _ _ _ _ _

/-! ## Placing a tile (R358, R104) -/

theorem getSeq_startTask (s : State) (l : Launch) (i : Image) (j n : Nat) : ∃ old, getSeq (startTask s l i j n) n = freshTask old l i j :=
  ⟨_, getSeq_setSeq_same _ _ _⟩

theorem tilePlacement_next {s : State} {d j n : Nat} {l : Launch} {i : Image} (hd : d < 4) (ht : tileDue s d = some (j, n, l))
    (hi : (getCtx s l.ctx).bind (fun x => x.images.find? (fun i => i.handle == l.handle)) = some i) :
    exec (.tilePlacement d) s = .next (placeTile s d j n l i) := by
  rw [exec_tilePlacement, execTilePlacement, if_neg (Nat.not_le.2 hd)]
  simp only [ht, hi]

theorem placeTile_starts {s : State} {d : Nat} {l : Launch} {r : List (BitVec 128)} (j n : Nat) (i : Image) (hr : launchRanges s d l = .ok r)
    (h : tableRefused s r = false) :
    ∃ old, getSeq (placeTile s d j n l i) n = freshTask old { l with ranges := r ++ List.replicate (8 - r.length) 0, rtab := none } i j := by
  simp only [placeTile, hr, h, Bool.false_eq_true, if_false]
  exact getSeq_startTask _ _ _ _ _

theorem placeTile_refuses {s : State} {d : Nat} {l : Launch} {r : List (BitVec 128)} (j n : Nat) (i : Image) (hr : launchRanges s d l = .ok r)
    (h : tableRefused s r = true) :
    (placeTile s d j n l i).launches = s.launches.filter (fun x => x.id != l.id) ∧
      (getQueue (placeTile s d j n l i) l.queue).lateFails = (getQueue s l.queue).lateFails ++ [(0x06, 16, l.index)] := by
  obtain ⟨hl, hq⟩ := sameQueues_noteReads s (dieReader d) l.ctx (launchReads l)
  simp only [placeTile, hr, h, if_true, refuseLaunch, modQueue, setQueue, getQueue, tget_tset, hl, hq, and_self]

/-! ## Landing a segment (R120, R219) -/

/-- The bundle at a place of the source, in instruction memory: marked where it is damaged. -/
def fetchedFrom (s u : State) (n dst p : Nat) : State × Bool :=
  if poisoned s p 32 then (storePoisoned ((damagedIn s p 32).foldl recordDamage u) (placeI n dst) (readBytes s p 32), true)
  else (writeBytes u (placeI n dst) (readBytes s p 32), false)

theorem fetchedFrom_seqs (s u : State) (n dst p : Nat) : (fetchedFrom s u n dst p).1.seqs = u.seqs := by
  unfold fetchedFrom
  split
  · obtain ⟨e, x, y, hd⟩ := foldl_recordDamage_frame (damagedIn s p 32) u
    obtain ⟨m, k, hs⟩ := storePoisoned_frame ((damagedIn s p 32).foldl recordDamage u) (placeI n dst) (readBytes s p 32)
    rw [hs, hd]
  · rfl

theorem storePoisoned_seqs (s : State) (p : Nat) (l : List Byte) : (storePoisoned s p l).seqs = s.seqs := by
  obtain ⟨m, k, h⟩ := storePoisoned_frame s p l
  rw [h]

theorem countReach_seqs (s : State) (n c fa : Nat) (r : Reach) : (countReach s n c fa r).seqs = s.seqs := by
  obtain ⟨d, l, p, e, h⟩ := countReach_frame s n c fa r
  rw [h]

theorem fetchBundle_seqs {s t : State} {c n fa dst : Nat} {failed : List Nat} {b : Bool} (h : fetchBundle s c n fa dst failed = .ok (t, b)) :
    t.seqs = s.seqs := by
  unfold fetchBundle at h
  dsimp only at h
  have hs : ∀ b r, (if b = true then countReach s n c fa r else s).seqs = s.seqs := by
    intro b r
    split
    · exact countReach_seqs _ _ _ _ _
    · rfl
  split at h
  · cases h
  · cases h
  next p _ => exact (congrArg (·.1.seqs) (Except.ok.inj h)).symm.trans ((fetchedFrom_seqs s _ n dst p).trans (hs _ _))
  next p _ => exact (congrArg (·.1.seqs) (Except.ok.inj h)).symm.trans ((fetchedFrom_seqs s _ n dst p).trans (hs _ _))
  · exact (congrArg (·.1.seqs) (Except.ok.inj h)).symm.trans ((storePoisoned_seqs _ _ _).trans (hs _ _))

theorem fetchBundles_seqs {c n : Nat} {failed : List Nat} {k fa dst : Nat} {s t : State} {b bad : Bool}
    (h : fetchBundles c n failed k fa dst s bad = .ok (t, b)) : t.seqs = s.seqs := by
  induction k generalizing fa dst s bad with
  | zero => cases h; rfl
  | succ k ih =>
    unfold fetchBundles at h
    split at h
    next x hx => exact (ih h).trans (fetchBundle_seqs hx)
    · cases h

theorem segmentLanding_lands {s t : State} {n : Nat} {f : SegFetch} {bad : Bool} (hn : n < 512)
    (hf : (getSeq s n).segFetch.find? (fun f => f.left == 0) = some f) (h : fetchSegment s n f = .ok (t, bad)) :
    ∃ u gone, exec (.segmentLanding n) s = .next u ∧ getSeq u n = { getSeq s n with
      segFetch := (getSeq s n).segFetch.erase f
      segRes := ((getSeq s n).segRes &&& ~~~gone) ||| (1 <<< f.seg : BitVec 64)
      sr := { (getSeq s n).sr with segErr := (getSeq s n).sr.segErr || bad } } := by
  have hr : segmentReady s n f = true := by simp only [segmentReady, h]
  have hs : getSeq t n = getSeq s n := congrArg (fun l : Table Seq => tget ({} : Seq) l n) (fetchBundles_seqs h)
  refine ⟨modSeq t n fun q => { q with
      segFetch := q.segFetch.erase f
      segRes := (q.segRes &&& ~~~overlapped s (getSeq s n) f.load f.len) ||| (1 <<< f.seg)
      sr := { q.sr with segErr := q.sr.segErr || bad } }, overlapped s (getSeq s n) f.load f.len, ?_, ?_⟩
  · rw [exec_segmentLanding, execSegmentLanding, if_neg (Nat.not_le.2 hn)]
    simp only [hf, hr, h, Bool.not_true, Bool.false_eq_true, if_false]
  · rw [getSeq_modSeq_same, hs]

theorem getLsbD_resident (r g : BitVec 64) {k : Nat} (hk : k < 64) : ((r &&& ~~~g) ||| (1 <<< k : BitVec 64)).getLsbD k = true := by
  have hbit : (1 <<< k : BitVec 64).getLsbD k = true :=
    (congrArg (fun b : BitVec 64 => b.getLsbD k) (BitVec.twoPow_eq 64 k).symm).trans (by simp [hk])
  rw [BitVec.getLsbD_or, hbit, Bool.or_true]

theorem find?_map_of_replaces {α : Type} {P : α → Bool} {g : α → α} {r r' : α} {l : List α} (h : l.find? P = some r)
    (hg : ∀ y, g y = y ∨ g y = r') (hr : g r = r') (hP : P r' = true) : (l.map g).find? P = some r' := by
  induction l with
  | nil => cases h
  | cons y l ih =>
    rw [List.map_cons]
    rcases hg y with hy | hy <;> rw [hy]
    · by_cases hPy : P y = true
      · rw [List.find?_cons_of_pos hPy] at h ⊢
        rw [← hr, ← Option.some.inj h, hy]
      · rw [List.find?_cons_of_neg hPy] at h ⊢
        exact ih h
    · exact List.find?_cons_of_pos hP

theorem regionOf_setPager {x : Ctx} {p : Nat} {r r' : Pager} (h : regionOf x p = some r) (hf : r'.first = r.first) (hp : r'.pages = r.pages) :
    regionOf (setPager x r') p = some r' := by
  have hc := List.find?_some h
  refine find?_map_of_replaces h (fun y => (ite_eq_or_eq (y.first = r'.first) r' y).symm) (if_pos hf.symm) ?_
  rw [hf, hp]
  exact hc

/-- A request that finds others waiting at its page joins them, and makes no upcall (R219). -/
theorem joinWait_joins {s : State} {c : Nat} {x : Ctx} {r : Pager} {h : HeldRequest} (hx : getCtx s c = some x) (hr : regionOf x h.page = some r)
    (hw : r.waits.any (fun w => w.page == h.page) = true) : joinWait s c h = setCtx s c (setPager x { r with waits := r.waits ++ [h] }) := by
  simp only [joinWait, hx, hr, hw, if_true]

theorem segmentLanding_waits {s : State} {n p c : Nat} {f : SegFetch} {x : Ctx} {r : Pager} (hn : n < 512)
    (hf : (getSeq s n).segFetch.find? (fun f => f.left == 0) = some f) (h : fetchSegment s n f = .error (some p))
    (hc : (getSeq s n).ctx = some c) (hx : getCtx s c = some x) (hr : regionOf x p = some r) (hw : r.waits.any (fun w => w.page == p) = true)
    (hj : r.waits.contains (segRequest n f p) = false) :
    exec (.segmentLanding n) s = .next (setCtx s c (setPager x { r with waits := r.waits ++ [segRequest n f p] })) := by
  have hready : segmentReady s n f = true := by
    simp only [segmentReady, h, hc, hx, hr, hj, Option.bind_some, Option.any_some, Bool.not_false]
  rw [exec_segmentLanding, execSegmentLanding, if_neg (Nat.not_le.2 hn)]
  simp only [hf, hready, h, hc, Bool.not_true, Bool.false_eq_true, if_false]
  exact congrArg Host.Outcome.next (joinWait_joins (h := segRequest n f p) hx hr hw)

/-! ## The watchdog (R119) -/

theorem modCtx_fatals (s : State) (c : Nat) (f : Ctx → Ctx) : (modCtx s c f).fatals = s.fatals := by
  rcases modCtx_frame s c f with h | ⟨x, h⟩ <;> rw [h]
  rfl

theorem chargeFatal_fatals (s : State) (n cause slot : Nat) (p : BitVec 11) (d : Word) :
    (chargeFatal s n cause slot p d).fatals = s.fatals ++ [fatalRecord (getSeq s n) n cause slot p d] := by
  unfold chargeFatal
  split
  next c hc =>
    have hq : { getSeq s n with ctx := some c } = getSeq s n := by rw [← hc]
    unfold stopCharged
    rw [hq]
    exact modCtx_fatals _ _ _
  · rfl

theorem watchdogExpiry_next {s : State} {n : Nat} (hn : n < 512) (hr : (getSeq s n).status = .running)
    (hw : 2 ^ (getSeq s n).sr.wdog.toNat ≤ (getSeq s n).stallCount) : exec (.watchdogExpiry n) s =
      .next (stopContext s n 0x04 (getSeq s n).stallSlot (getSeq s n).pc (getSeq s n).stallDetail) := by
  rw [exec_watchdogExpiry, execWatchdogExpiry, if_neg (Nat.not_le.2 hn)]
  exact if_pos (by simp [watchdogDue, hr, hw])

/-! ## The end of a task (03_sync_and_transfer_instructions R84) -/

theorem dropRows_mem (s : State) (n : Nat) : (dropRows s n).mem = s.mem := by
  unfold dropRows
  dsimp only
  split <;> rfl

/-- A sequencer whose task has been reported. -/
def freed (q : Seq) : Seq := { q with status := .idle, launch := none, hold := none, reported := none }

theorem taskCompletion_next {s : State} {n : Nat} (hn : n < 512) (he : (getSeq s n).status = .ending) (hi : enginesIdle s n = true) :
    ∃ t, exec (.taskCompletion n) s = .next t ∧ getSeq t n = freed (getSeq (dropRows s n) n) ∧ t.mem = s.mem := by
  refine ⟨{ modSeq (dropRows s n) n freed with
    launches := (dropRows s n).launches.map fun l => if (getSeq s n).launch = some l.id then { l with running := l.running - 1 } else l },
    ?_, getSeq_modSeq_same (dropRows s n) n freed, dropRows_mem s n⟩
  rw [exec_taskCompletion, execTaskCompletion, if_neg (Nat.not_le.2 hn)]
  exact if_pos (by rw [he, hi]; rfl)

/-! ## The statement -/

/-- Settles O53: each step from what its own lemma above says of it. -/
theorem taskSteps : Obligations.TaskSteps := by
  refine ⟨fun s d j n l i r hd ht hi hr => ⟨fun hb => ?_, fun hb => ?_⟩,
    fun s n f hn hf hk => ⟨fun t bad h => ?_, fun p c x r h hc hx hr hw hj => ?_⟩, fun s n hn hr hw => ?_, fun s n hn he hi => ?_⟩
  · obtain ⟨old, h⟩ := placeTile_starts j n i hr hb
    refine ⟨_, tilePlacement_next hd ht hi, ?_⟩
    rw [h]
    exact ⟨rfl, rfl, rfl, rfl, rfl, rfl, rfl, rfl⟩
  · exact ⟨_, tilePlacement_next hd ht hi, placeTile_refuses j n i hr hb⟩
  · obtain ⟨u, gone, hu, hq⟩ := segmentLanding_lands hn hf h
    refine ⟨u, hu, ?_⟩
    rw [hq]
    exact ⟨rfl, getLsbD_resident _ _ hk, rfl⟩
  · exact ⟨_, _, _, segmentLanding_waits hn hf h hc hx hr hw hj, rfl, getCtx_setCtx_same _ _ _, regionOf_setPager hr rfl rfl, rfl⟩
  · obtain ⟨hmem, -, hq⟩ := stopContext_frame s n 0x04 (getSeq s n).stallSlot (getSeq s n).pc (getSeq s n).stallDetail
    exact ⟨_, watchdogExpiry_next hn hr hw, by rw [hq], hmem, chargeFatal_fatals _ _ _ _ _ _⟩
  · obtain ⟨t, hx, hq, hmem⟩ := taskCompletion_next hn he hi
    exact ⟨t, hx, by rw [hq, freed], by rw [hq, freed], hmem⟩

end Sys2Proof.Proofs
